-- ==== Sys2Proof/Word.lean ====
section
/-! DEFINITION. The word types of the module and the plainest operations on bits, bytes and little-endian byte lists. -/

namespace Sys2Proof

/-- A byte of a buffer, a register lane or a memory. -/
abbrev Byte := BitVec 8
/-- A 16-bit field. -/
abbrev W16 := BitVec 16
/-- A register of BAR0 (R8). -/
abbrev W32 := BitVec 32
/-- A chip time, a general register of an engine, or any 64-bit field. -/
abbrev W64 := BitVec 64
/-- A lane: 0 is A, 1 is B, 2 is C. -/
abbrev LaneId := Fin 3
/-- A host ring pair (R407). -/
abbrev RingId := Fin 32
/-- An Ethernet port of the module (R305). -/
abbrev PortId := Fin 10
/-- A Strait ring (R47). -/
abbrev StraitId := Fin 4
/-- A local field channel (R50). -/
abbrev ChanId := Fin 32
/-- A metering point. -/
abbrev MeterId := Fin 8

end Sys2Proof
end

