-- ==== Sys2Proof/Syntax.lean ====
section
/-! DEFINITION. The syntax of the commands the module takes: the operand types and `Instr`, one constructor per row of the opcode table. A
row that is an event on a land, a link or a timer of the module carries as operands what the event brings with it. -/

namespace Sys2Proof

/-- The size of a BAR0 access (R8, R9). -/
inductive Width
  | byte | half | word
  deriving DecidableEq, Repr

/-- What a network buffer holds (R34, R37): the IN frame of a station, a frame that waits for the gate of its ring, by its place, or a
fragment of the response to a Class A transaction, by tag and index. -/
inductive NetBuffer
  | input (station : Fin 256)
  | held (index : Nat)
  | fragment (tag index : Nat)
  deriving DecidableEq, Repr

/-- The place of a damaged transfer or memory word (R31, R37, R39): scratchpads by offset, network buffers by the frame they
hold, the snapshot of a release by its task and cycle with the points in the word, the effect buffers by the place of the record in its
buffer, and the four partitions of DRAM. -/
inductive DamagePlace
  | scratchpad (lane : LaneId) (off : W32)
  | serviceMemory
  | networkBuffer (ring : StraitId) (buf : NetBuffer)
  | snapshot (task cycle : Nat) (points : List W32)
  | effectBuffer (lane : LaneId) (index : Nat)
  | retentiveShadow (off : W32)
  | otherSram
  | imageStore (id : W64)
  | tableWay (table : Fin 16) (bucket way : Nat)
  | traceRecord (seq : W32)
  | bulk (off : Nat)
  deriving DecidableEq, Repr

/-- The blocks of the processor die that own SRAM, each of which counts its corrected errors (R35): a lane, the service island, the
network island, the snapshot and effect area, the queue of the event recorder, the retentive shadow and the staging buffer of the
trace. -/
inductive SramOwner
  | lane (l : LaneId)
  | service
  | network
  | snapshots
  | recorder
  | shadow
  | staging
  deriving DecidableEq, Repr

/-- What the ECC of an SRAM word says when its owner reads it (R35, R37). -/
inductive Ecc
  | clean | corrected | bad
  deriving DecidableEq, Repr

/-- The system identity of a clock, the first six fields of an 802.1AS priority vector, most significant first (R69). -/
structure PtpSystem where
  priority1 : Byte
  clockClass : Byte
  clockAccuracy : Byte
  variance : W16
  priority2 : Byte
  identity : W64
  deriving DecidableEq, Repr

/-- What an Announce message carries (R69, R64). -/
structure PtpAnnounce where
  gm : PtpSystem
  stepsRemoved : W16
  sourcePort : BitVec 80
  utcOffset : W16
  utcValid : Bool
  deriving DecidableEq, Repr

/-- A peer-delay message on a port (R69): a request to answer, or a finished measurement of the neighbour delay. -/
inductive PdelayMessage
  | request (seq : W16)
  | measured (ns : Nat)
  deriving DecidableEq, Repr

/-- The message kinds the time island sends (R69). -/
inductive PtpKind
  | sync | announce | pdelayReq
  deriving DecidableEq, Repr

/-- What reset the host interface (R405). -/
inductive HifResetKind
  | linkDown | hotReset | functionLevel
  deriving DecidableEq, Repr


/-- The pair states of R363. -/
inductive PairState
  | waiting | claiming | activeSynced | activeAlone | standbyJoining | standbySynced | standbyDetached | safeTalk
  deriving DecidableEq, Repr

/-- The code of PAIR_STATUS.STATE (R363). -/
def PairState.code : PairState → Nat
  | .waiting => 0
  | .claiming => 1
  | .activeSynced => 2
  | .activeAlone => 3
  | .standbyJoining => 4
  | .standbySynced => 5
  | .standbyDetached => 6
  | .safeTalk => 7

/-- A change of one of a module's local points (R382): point, value, quality, chip time. -/
structure PointChange where
  point : Nat
  value : W64
  quality : Nat
  ct : Nat
  deriving DecidableEq, Repr

/-- A way of a destination table as bucket images carry it (R146, R386); a way that is not `valid` is free. -/
structure BucketWay where
  bucket : Nat
  way : Nat
  valid : Bool
  key : W64
  value : W64
  gen : Nat
  deleted : Bool
  deriving DecidableEq, Repr

/-- A mirrored item (R384); `from_` is the chip time of the first snapshot that sees a table
change (R386), `mapped` the IMAGE_ID and the map CRC of the bank that a transaction switches to (R255). -/
inductive MirrorItem
  | txnStage (kind ring : Nat) (bytes : List Byte)
  | txnRws (off : Nat) (val : W32)
  | txnSwitch (bank x : Nat)
  | txnApply (num : Byte) (x dT : Nat) (mapped : Option (W64 × W32))
  | txnAbandon
  | image (bank : Nat) (bytes : List Byte)
  | map (bank : Nat) (bytes : List Byte)
  | stop
  | trigger (task : Nat)
  | forceSet (ring : RingId) (sym : W32) (value : List Byte)
  | forceClear (ring : RingId) (sym : W32)
  | forceClearAll (ring : RingId)
  | varWrite (ring : RingId) (items : List (W32 × List Byte))
  | buckets (table gen from_ : Nat) (ways : List BucketWay)
  | tableLoad (table k : Nat) (salt : W32) (offset from_ : Nat) (ways : List BucketWay)
  | tableUnload (table from_ : Nat)
  | taiUtc (val : W32) (offset : Int)
  | offset (toActive : Int)
  | retentive (task : Nat) (cycle : Nat) (crc : W32)
  | storePage (page : Nat) (body : List Byte)
  | rwp (off : Nat) (val : W32)
  deriving DecidableEq, Repr

/-- What a STATE cell of a join carries (R377). -/
inductive StateItem
  | config (kind ring : Nat) (bytes : List Byte)
  | rws (off : Nat) (val : W32)
  | force (sym : W32) (value : List Byte) (instant : Nat)
  | taiUtc (val : W32)
  | image (bank : Nat) (active : Bool) (bytes : List Byte)
  | map (bank : Nat) (bytes : List Byte)
  | table (table k : Nat) (salt : W32) (offset gen : Nat) (ways : List BucketWay)
  | line (index : Nat) (bytes : List Byte)
  | context (task : Nat) (words : List W64)
  | anchor (ct : Nat)
  | task (task next first k0 : Nat) (cycle : Option Nat) (lastCt lastInstant : Nat) (due : Option Nat)
  | version (writer cycle instant : Nat) (readable : Bool) (xout xsize : Nat)
  | ring (ring : StraitId) (count cycle : Nat) (aEpoch mEpoch : W16)
  | station (ring : StraitId) (station : Nat) (identity : W64) (typ : W32) (res misses good cause : Nat) (dropped lagging : Bool)
    (outSeq : W32) (inSeq aSeq : Option W32) (gens : List Byte) (used : Option (Nat × W32 × List Byte × W32)) (events : List Byte)
  | final
  deriving DecidableEq, Repr

/-- A message of the Narrows link (R366 to R368); a mirrored item carries the ring pair and submission index of its
descriptor (R391). -/
inductive NarrowsMsg
  | heartbeat (ct : Nat) (state : PairState) (ilk : Bool) (mark : Nat) (down : List PortId)
  | mirror (item : MirrorItem) (source : Option (RingId × Nat))
  | edges (changes : List PointChange)
  | accepted (ring : StraitId) (due : Nat) (map : BitVec 256) (crc : W32)
  | recognised (task : Nat) (ct : Nat)
  | state (item : StateItem)
  | relinquish
  | revertReq
  | decision (commit : Bool)
  deriving DecidableEq, Repr

/-- What a condition is about, or reads, and how long it has lasted, in µs (R51). -/
structure Lasting (α : Type) where
  value : α
  us : Nat
  deriving DecidableEq, Repr

/-- A reading of a lane regulator in mV, and for how many ns it has stood there (R23). -/
structure SupplyReading where
  mv : Nat
  ns : Nat
  deriving DecidableEq, Repr

/-- What a patrol pass over DRAM finds: the number of words it corrects and writes back, and the places of words beyond correction
(R38, R39). -/
structure PatrolPass where
  fixed : Nat
  bad : List DamagePlace
  deriving DecidableEq, Repr

/-- What a gPTP message carries, and its domain (R69). -/
structure InDomain (α : Type) where
  domain : Nat
  value : α
  deriving DecidableEq, Repr

/-- What an engine issues, and the most elements of a block operation that it runs before the next row takes its turn (R121). -/
structure Within (α : Type) where
  value : α
  elems : Nat
  deriving DecidableEq, Repr

/-- What the DMA read of a program image returns, and the lanes whose copy differs when it is read back (R230). -/
structure LoadData where
  bytes : List Byte
  differ : List LaneId
  deriving DecidableEq, Repr

/-- The completeness mark of a HEARTBEAT and the ring ports that it says are down (R367, R395). -/
structure HeartbeatTail where
  mark : Nat
  down : List PortId
  deriving DecidableEq, Repr

/-- The partner's GLB_OPTION as the link tells it, and its clock identity (R70, R377). -/
structure LinkIdent where
  option : W32
  clock : W64
  deriving DecidableEq, Repr

/-- A write to a doorbell register: its size and the data on the bus (R9). -/
structure DoorbellWrite where
  width : Width
  val : W32
  deriving DecidableEq, Repr

/-- What fails in the built-in self-test (R597): the parts numbered 2, 3, 4, 6 and 7 in the order of R597, with the sub-part; for each lane
the first part that fails in its own self-test, 0 for none; and the first pattern of the comparator test that gives a wrong verdict. -/
structure SelfTestFails where
  blocks : List (Nat × Nat)
  laneParts : Vector Byte 3
  pattern : Option (Fin 778)
  deriving DecidableEq, Repr

/-- The commands of the module: one constructor per row of the opcode table, in its families' order. -/
inductive Instr
  /-- PAIR_READ_LATCH (R12): a BAR0 read of the lower-offset register of a pair. -/
  | pairReadLatch (off : Nat)
  /-- PAIR_WRITE_HOLD (R12): a BAR0 write to the lower-offset register of a pair. -/
  | pairWriteHold (off : Nat) (val : W32)
  /-- REGISTER_WRITE (R13): a BAR0 write of the stated size; `val` is the data on the bus. -/
  | registerWrite (off : Nat) (width : Width) (val : W32)
  /-- RWS_WRITE (R434): a BAR0 write to a register that holds RWS fields. -/
  | rwsWrite (off : Nat) (val : W32)
  /-- LANE_FREQ_MEASURE (R22): the frequency measured of a lane clock, in kHz. -/
  | laneFreqMeasure (lane : LaneId) (khz : Nat)
  /-- LANE_SUPPLY_FAULT (R23): the power monitor reads a lane regulator. -/
  | laneSupplyFault (lane : LaneId) (mv : SupplyReading)
  /-- TRANSFER_UNCORRECTABLE (R31): an uncorrectable error in a transfer of `place`; `failed` attempts fail. -/
  | transferUncorrectable (place : DamagePlace) (failed : Nat)
  /-- SRAM_SCRUB (R36): a scrub pass, with the owners of the single-bit errors it corrects, one entry each, and the
  places where it finds words beyond correction. -/
  | sramScrub (fixed : List SramOwner) (bad : List DamagePlace)
  /-- DRAM_PATROL_SCRUB (R38): a patrol pass. -/
  | dramPatrolScrub (found : PatrolPass)
  /-- SYNC_RECEIVED (R66, R69): a Sync on a port, one-step or with its Follow_Up, with chip time minus the grandmaster's time, in ns. -/
  | syncReceived (port : PortId) (offset : InDomain Int)
  /-- ANNOUNCE_RECEIVED (R71): an Announce on a port. -/
  | announceReceived (port : PortId) (msg : InDomain PtpAnnounce)
  /-- TIM_SET (R63): the BAR0 write that completes TIM_SET, to TIM_SET_HI. -/
  | timSet (hi : W32)
  /-- TRACE_DRAIN (R74): the trace writer copies up to `n` staged records into the trace partition. -/
  | traceDrain (n : Nat)
  /-- CMT_READ (R89); `overtaken` is how many of the oldest records the writer overwrites while the copy runs. -/
  | cmtRead (q : RingId) (overtaken : Nat)
  /-- CMT_MARK (R88). -/
  | cmtMark (q : RingId)
  /-- CMT_RESUME (R83). -/
  | cmtResume (q : RingId)
  /-- CMT_STATUS_READ (R87). -/
  | cmtStatusRead (q : RingId)
  /-- BUNDLE_ISSUE (R104): an engine issues the bundle at its program counter, whose words read as `ecc` says, or goes on with the block
  operation in progress. -/
  | bundleIssue (lane : LaneId) (engine : Fin 4) (ecc : Within Ecc)
  /-- ALU_ADD (R129): a bundle with this one move, whose value is B. -/
  | aluAdd (lane : LaneId) (engine : Fin 4) (b : W64)
  /-- ALU_SUB (R129): a bundle with this one move, whose value is B. -/
  | aluSub (lane : LaneId) (engine : Fin 4) (b : W64)
  /-- ALU_AND (R129): a bundle with this one move, whose value is B. -/
  | aluAnd (lane : LaneId) (engine : Fin 4) (b : W64)
  /-- ALU_OR (R129): a bundle with this one move, whose value is B. -/
  | aluOr (lane : LaneId) (engine : Fin 4) (b : W64)
  /-- ALU_XOR (R129): a bundle with this one move, whose value is B. -/
  | aluXor (lane : LaneId) (engine : Fin 4) (b : W64)
  /-- ALU_SHL (R129): a bundle with this one move, whose value is B. -/
  | aluShl (lane : LaneId) (engine : Fin 4) (b : W64)
  /-- ALU_SHR (R129): a bundle with this one move, whose value is B. -/
  | aluShr (lane : LaneId) (engine : Fin 4) (b : W64)
  /-- ALU_SAR (R129): a bundle with this one move, whose value is B. -/
  | aluSar (lane : LaneId) (engine : Fin 4) (b : W64)
  /-- ALU_MUL (R129): a bundle with this one move, whose value is B. -/
  | aluMul (lane : LaneId) (engine : Fin 4) (b : W64)
  /-- ALU_EQ (R129): a bundle with this one move, whose value is B. -/
  | aluEq (lane : LaneId) (engine : Fin 4) (b : W64)
  /-- ALU_NE (R129): a bundle with this one move, whose value is B. -/
  | aluNe (lane : LaneId) (engine : Fin 4) (b : W64)
  /-- ALU_LT (R129): a bundle with this one move, whose value is B. -/
  | aluLt (lane : LaneId) (engine : Fin 4) (b : W64)
  /-- ALU_LTU (R129): a bundle with this one move, whose value is B. -/
  | aluLtu (lane : LaneId) (engine : Fin 4) (b : W64)
  /-- ALU_LE (R129): a bundle with this one move, whose value is B. -/
  | aluLe (lane : LaneId) (engine : Fin 4) (b : W64)
  /-- ALU_LEU (R129): a bundle with this one move, whose value is B. -/
  | aluLeu (lane : LaneId) (engine : Fin 4) (b : W64)
  /-- ALU_MIN (R129): a bundle with this one move, whose value is B. -/
  | aluMin (lane : LaneId) (engine : Fin 4) (b : W64)
  /-- ALU_MAX (R129): a bundle with this one move, whose value is B. -/
  | aluMax (lane : LaneId) (engine : Fin 4) (b : W64)
  /-- ALU_PASS (R129): a bundle with this one move, whose value is B. -/
  | aluPass (lane : LaneId) (engine : Fin 4) (b : W64)
  /-- BIT_LD (R131): a bundle with this one move, whose value is B. -/
  | bitLd (lane : LaneId) (engine : Fin 4) (b : W64)
  /-- BIT_AND (R131): a bundle with this one move, whose value is B. -/
  | bitAnd (lane : LaneId) (engine : Fin 4) (b : W64)
  /-- BIT_OR (R131): a bundle with this one move, whose value is B. -/
  | bitOr (lane : LaneId) (engine : Fin 4) (b : W64)
  /-- BIT_XOR (R131): a bundle with this one move, whose value is B. -/
  | bitXor (lane : LaneId) (engine : Fin 4) (b : W64)
  /-- BIT_ANDN (R131): a bundle with this one move, whose value is B. -/
  | bitAndn (lane : LaneId) (engine : Fin 4) (b : W64)
  /-- BIT_ORN (R131): a bundle with this one move, whose value is B. -/
  | bitOrn (lane : LaneId) (engine : Fin 4) (b : W64)
  /-- BIT_OPEN (R131): a bundle with this one move, whose value is B. -/
  | bitOpen (lane : LaneId) (engine : Fin 4) (b : W64)
  /-- BIT_CLOSE (R131): a bundle with this one move, whose value is B. -/
  | bitClose (lane : LaneId) (engine : Fin 4) (b : W64)
  /-- BIT_ST (R131): a bundle with this one move, whose value is B. -/
  | bitSt (lane : LaneId) (engine : Fin 4) (b : W64)
  /-- BIT_SET (R131): a bundle with this one move, whose value is B. -/
  | bitSet (lane : LaneId) (engine : Fin 4) (b : W64)
  /-- BIT_RST (R131): a bundle with this one move, whose value is B. -/
  | bitRst (lane : LaneId) (engine : Fin 4) (b : W64)
  /-- BIT_INV (R131): a bundle with this one move, whose value is B. -/
  | bitInv (lane : LaneId) (engine : Fin 4) (b : W64)
  /-- BIT_LDV (R131): a bundle with this one move, whose value is B. -/
  | bitLdv (lane : LaneId) (engine : Fin 4) (b : W64)
  /-- TMR_TON (R137): a bundle with this one move, whose value is B. -/
  | tmrTon (lane : LaneId) (engine : Fin 4) (b : W64)
  /-- TMR_TOF (R137): a bundle with this one move, whose value is B. -/
  | tmrTof (lane : LaneId) (engine : Fin 4) (b : W64)
  /-- TMR_TP (R137): a bundle with this one move, whose value is B. -/
  | tmrTp (lane : LaneId) (engine : Fin 4) (b : W64)
  /-- TMR_TACC (R137): a bundle with this one move, whose value is B. -/
  | tmrTacc (lane : LaneId) (engine : Fin 4) (b : W64)
  /-- TMR_TRST (R137): a bundle with this one move, whose value is B. -/
  | tmrTrst (lane : LaneId) (engine : Fin 4) (b : W64)
  /-- EDG_RISE (R139): a bundle with this one move, whose value is B. -/
  | edgRise (lane : LaneId) (engine : Fin 4) (b : W64)
  /-- EDG_FALL (R139): a bundle with this one move, whose value is B. -/
  | edgFall (lane : LaneId) (engine : Fin 4) (b : W64)
  /-- BLK_MOVE (R141): a bundle with this one move, whose value is B, and elements of the operation. -/
  | blkMove (lane : LaneId) (engine : Fin 4) (b : Within W64)
  /-- BLK_FILL (R141): a bundle with this one move, whose value is B, and elements of the operation. -/
  | blkFill (lane : LaneId) (engine : Fin 4) (b : Within W64)
  /-- BLK_CMP (R141): a bundle with this one move, whose value is B, and elements of the operation. -/
  | blkCmp (lane : LaneId) (engine : Fin 4) (b : Within W64)
  /-- BLK_SCAN (R141): a bundle with this one move, whose value is B, and elements of the operation. -/
  | blkScan (lane : LaneId) (engine : Fin 4) (b : Within W64)
  /-- TBL_LOOKUP (R151): a lookup of key B into a slot. -/
  | tblLookup (lane : LaneId) (engine : Fin 4) (slot : Fin 4) (b : W64)
  /-- TBL_LOOKUP_DONE (R153): the result of a task's lookup becomes readable in its slot. -/
  | tblLookupDone (lane : LaneId) (task : Fin 256) (slot : Fin 4)
  /-- IMG_RD (R165): a bundle with this one move, whose value is B. -/
  | imgRd (lane : LaneId) (engine : Fin 4) (b : W64)
  /-- IMG_WR (R166): a bundle with this one move, whose value is B. -/
  | imgWr (lane : LaneId) (engine : Fin 4) (b : W64)
  /-- LS_LD (R168): a load of 1, 2, 4 or 8 bytes (`size` 0 to 3). -/
  | lsLd (lane : LaneId) (engine : Fin 4) (size : Fin 4) (b : W64)
  /-- LS_ST (R168): a store of 1, 2, 4 or 8 bytes (`size` 0 to 3). -/
  | lsSt (lane : LaneId) (engine : Fin 4) (size : Fin 4) (b : W64)
  /-- BR_ABS (R111): a bundle with this one move, whose value is B. -/
  | brAbs (lane : LaneId) (engine : Fin 4) (b : W64)
  /-- BR_REL (R111): a bundle with this one move, whose value is B. -/
  | brRel (lane : LaneId) (engine : Fin 4) (b : W64)
  /-- BR_CALL (R111): a bundle with this one move, whose value is B. -/
  | brCall (lane : LaneId) (engine : Fin 4) (b : W64)
  /-- BR_RET (R111): a bundle with this one move, whose value is B. -/
  | brRet (lane : LaneId) (engine : Fin 4) (b : W64)
  /-- TSK_END (R113): a bundle with this one move. -/
  | tskEnd (lane : LaneId) (engine : Fin 4)
  /-- TBL_LOAD (R160): `dma` is what the read of BUF returned. -/
  | tblLoad (ring : RingId) (dma : List Byte)
  /-- TBL_UPDATE (R161): `dma` is what the read of BUF returned. -/
  | tblUpdate (ring : RingId) (dma : List Byte)
  /-- TBL_UNLOAD (R159). -/
  | tblUnload (ring : RingId)
  /-- TBL_INFO (R163). -/
  | tblInfo (ring : RingId)
  /-- TASK_RELEASE (R176): the periodic releases of the earliest release CT that has come; `bad` lists the input points
  held in damaged words of the snapshot (R37). -/
  | taskRelease (bad : List W32)
  /-- EVENT_TASK_RELEASE (R179), with the input points held in damaged words of the snapshot (R37). -/
  | eventTaskRelease (bad : List W32)
  /-- SNAPSHOT_DELIVERY (R191): the oldest release due for delivery to the lane. -/
  | snapshotDelivery (lane : LaneId)
  /-- SNAPSHOT_COPY_DONE (R191): the oldest release delivered to the lane is copied. -/
  | snapshotCopyDone (lane : LaneId)
  /-- RUN (R219). -/
  | run (q : RingId)
  /-- STOP (R218). -/
  | stop (q : RingId)
  /-- TASK_TRIGGER (R178). -/
  | taskTrigger (q : RingId)
  /-- TASK_STATUS (R214). -/
  | taskStatus (q : RingId)
  /-- VAR_READ (R215), with the symbol identifiers read from its buffer. -/
  | varRead (q : RingId) (dma : List Byte)
  /-- VAR_WRITE (R216), with what was read from its buffer. -/
  | varWrite (q : RingId) (dma : List Byte)
  /-- FORCE_SET (R206, R208), with what was read from its buffer. -/
  | forceSet (q : RingId) (dma : List Byte)
  /-- FORCE_CLEAR (R208). -/
  | forceClear (q : RingId)
  /-- FORCE_LIST (R214). -/
  | forceList (q : RingId)
  /-- FORCE_CLEAR_ALL (R208). -/
  | forceClearAll (q : RingId)
  /-- BUDGET_OVERRUN (R186). -/
  | budgetOverrun (lane : LaneId) (engine : Fin 4)
  /-- ERROR_TASK_OVERRUN (R187). -/
  | errorTaskOverrun (lane : LaneId) (engine : Fin 4)
  /-- LANE_DEADLINE (R188). -/
  | laneDeadline (lane : LaneId)
  /-- PRG_LOAD (R230): what the DMA read of BUF returned, and what reading the lanes back showed. -/
  | prgLoad (q : RingId) (dma : LoadData)
  /-- PRG_MAP_LOAD (R235): what the DMA read of BUF returned. -/
  | prgMapLoad (q : RingId) (dma : List Byte)
  /-- PRG_SWITCH_STAGE (R238). -/
  | prgSwitchStage (q : RingId)
  /-- PRG_RELEASE (R259). -/
  | prgRelease (q : RingId)
  /-- PRG_STATUS (R262). -/
  | prgStatus (q : RingId)
  /-- PRG_SAVE (R260). -/
  | prgSave (q : RingId)
  /-- PRG_KEY_SET (R229): what the DMA read of BUF returned. -/
  | prgKeySet (q : RingId) (dma : List Byte)
  /-- RECORD_COPY_ARRIVAL (R270): the oldest record of a lane's effect buffer reaches the voter; `ecc` is how its words
  read, `disagree` for the verdicts of comparators that differ. -/
  | recordCopyArrival (lane : LaneId) (ecc : Ecc) (disagree : Option Byte)
  /-- LANE_SELF_TEST_DONE (R280): the first failing part, 0 for none, and the duration in µs. -/
  | laneSelfTestDone (lane : LaneId) (part : Byte) (micros : W16)
  /-- RESYNC_FINAL_COPY (R285): into a lane, with the number of single-bit errors that the read of the source lane corrects (R35). -/
  | resyncFinalCopy (lane : LaneId) (fixed : Nat)
  /-- RESYNC_STARVED (R286). -/
  | resyncStarved (lane : LaneId)
  /-- LANE_STATUS (R303). -/
  | laneStatus (q : RingId)
  /-- LANE_RETEST (R281). -/
  | laneRetest (q : RingId)
  /-- LANE_EXCLUDE (R302). -/
  | laneExclude (q : RingId)
  /-- LANE_REJOIN (R286). -/
  | laneRejoin (q : RingId)
  /-- VOT_INJECT (R295), with the first pattern that gave a wrong verdict. -/
  | votInject (q : RingId) (failed : Option (Fin 778))
  /-- PORT_LINK_CHANGE (R305): the link of a port, its speed in Mb/s and full duplex. -/
  | portLinkChange (port : PortId) (up : Bool) (speed : Nat) (full : Bool)
  /-- FRAME_RECEIVE (R320): an Ethernet frame without its FCS that has arrived on a ring port, and whether its FCS is bad. -/
  | frameReceive (port : PortId) (badFcs : Bool) (bytes : List Byte)
  /-- GATE_OPEN (R335). -/
  | gateOpen (ring : StraitId)
  /-- NET_STATUS (R361). -/
  | netStatus (ring : RingId)
  /-- NET_A_SEND (R337): `dma` is what the read of BUF returned. -/
  | netASend (ring : RingId) (dma : List Byte)
  /-- NET_A_RECV (R361). -/
  | netARecv (ring : RingId)
  /-- NET_INAUGURATE (R349). -/
  | netInaugurate (ring : RingId)
  /-- NET_STATION_INFO (R361). -/
  | netStationInfo (ring : RingId)
  /-- NET_COUNTERS (R361). -/
  | netCounters (ring : RingId)
  /-- NET_RAW_SEND (R361): `dma` is what the read of BUF returned. -/
  | netRawSend (ring : RingId) (dma : List Byte)
  /-- NET_RAW_RECV (R361). -/
  | netRawRecv (ring : RingId)
  /-- BACKBONE_FRAME_RECEIVE (R306): an Ethernet frame without its FCS on port 8 or 9. -/
  | backboneFrameReceive (port : PortId) (bytes : List Byte)
  /-- GATE_CLOSE (R335). -/
  | gateClose (ring : StraitId)
  /-- NARROWS_HEARTBEAT (R367): sequence number of the cell and what it carries. -/
  | narrowsHeartbeat (seq ct : Nat) (state : PairState) (ilk : Bool) (mark : HeartbeatTail)
  /-- NARROWS_MIRROR (R384): the item, and the ring pair and index of its descriptor. -/
  | narrowsMirror (seq : Nat) (item : MirrorItem) (source : Option (RingId × Nat))
  /-- NARROWS_EDGES (R382). -/
  | narrowsEdges (seq : Nat) (changes : List PointChange)
  /-- NARROWS_ACCEPTED (R380): ring, due instant, map of stations and CRC. -/
  | narrowsAccepted (seq : Nat) (ring : StraitId) (due : Nat) (map : BitVec 256) (crc : W32)
  /-- NARROWS_RECOGNISED (R383): task and recognition CT. -/
  | narrowsRecognised (seq task ct : Nat)
  /-- NARROWS_STATE (R377). -/
  | narrowsState (seq : Nat) (item : StateItem)
  /-- RELINQUISH (R388). -/
  | relinquish (seq : Nat)
  /-- REVERT_REQ (R396). -/
  | revertReq (seq : Nat)
  /-- ROLE_DECISION (R390). -/
  | roleDecision (seq : Nat) (commit : Bool)
  /-- NARROWS_DELAY_MEASURE (R367): the round trip in ns. -/
  | narrowsDelayMeasure (roundTrip : Nat)
  /-- NARROWS_LINK_UP (R368): the partner's FEAT0 to FEAT7, and how it names itself (R70, R377). -/
  | narrowsLinkUp (feats : List W32) (option : LinkIdent)
  /-- ILK_TEST_PULSE (R375): whether the readback of the land shows the pulse. -/
  | ilkTestPulse (seen : Bool)
  /-- PAIR_STATUS (R402). -/
  | pairStatus (ring : RingId)
  /-- PAIR_SWITCH (R396). -/
  | pairSwitch (ring : RingId)
  /-- PAIR_JOIN (R377). -/
  | pairJoin (ring : RingId)
  /-- PAIR_DETACH (R401). -/
  | pairDetach (ring : RingId)
  /-- PAIR_REVERT_ARM (R397). -/
  | pairRevertArm (ring : RingId)
  /-- NARROWS_CELL_ACK (R385): the cell and the instant at which the partner acknowledged it. -/
  | narrowsCellAck (seq ct : Nat)
  /-- HIF_RESET (R405). -/
  | hifReset (kind : HifResetKind)
  /-- DMA_TIMEOUT (R406): a read on behalf of a ring pair, for the buffer of the descriptor fetched from a slot where it is one, has
  waited so long for its completion. -/
  | dmaTimeout (q : RingId) (slot : Lasting (Option Nat))
  /-- DMA_ERROR (R406): of a read or a write on behalf of a ring pair, for the buffer of the descriptor fetched from `slot`
  where it is one. -/
  | dmaError (q : RingId) (write : Bool) (slot : Option Nat)
  /-- RING_ENABLE (R411): a write to HIF_RPq_CFG with ENABLE 1 and RESET 0; `cfg` gives the other bits. -/
  | ringEnable (q : RingId) (cfg : W32)
  /-- RING_DISABLE (R416): a write to HIF_RPq_CFG with ENABLE 0 and RESET 0; `cfg` gives the other bits. -/
  | ringDisable (q : RingId) (cfg : W32)
  /-- RING_RESET (R416): a write to HIF_RPq_CFG with RESET 1; `cfg` gives the other bits. -/
  | ringReset (q : RingId) (cfg : W32)
  /-- SQ_TAIL_DOORBELL (R9, R412): a write to HIF_DBq_SQ_TAIL. -/
  | sqTailDoorbell (q : RingId) (val : DoorbellWrite)
  /-- CQ_HEAD_DOORBELL (R9, R412): a write to HIF_DBq_CQ_HEAD. -/
  | cqHeadDoorbell (q : RingId) (val : DoorbellWrite)
  /-- DESCRIPTOR_FETCH (R415): the 64 bytes that the read of the slot returns, and what the read of its buffer returns where
  admission needs it, which is for VAR_WRITE alone (R426). -/
  | descriptorFetch (bytes dma : List Byte)
  /-- COMPLETION_POST (R421): the oldest completion of a ring pair. -/
  | completionPost (q : RingId)
  /-- COAL_TIMER (R409). -/
  | coalTimer (q : RingId)
  /-- IRQ_CAUSE_CLEAR (R410): a write to HIF_IRQ_CAUSE. -/
  | irqCauseClear (val : W32)
  /-- MSIX_UNMASK (R410). -/
  | msixUnmask (vector : Fin 64)
  /-- NOP (R430). -/
  | nop (q : RingId)
  /-- TIME_READ (R430). -/
  | timeRead (q : RingId)
  /-- MODULE_INFO (R430). -/
  | moduleInfo (q : RingId)
  /-- RING_STATUS (R430). -/
  | ringStatus (q : RingId)
  /-- BULK_ALLOC (R431). -/
  | bulkAlloc (q : RingId)
  /-- BULK_FREE (R431). -/
  | bulkFree (q : RingId)
  /-- BULK_COPY (R430): what the read of BUF returned. -/
  | bulkCopy (q : RingId) (dma : List Byte)
  /-- PCIE_LINK_UP (R593): the negotiated width, 1, 2 or 4, and rate, 1 to 3. -/
  | pcieLinkUp (width rate : BitVec 4)
  /-- PCIE_POWER_STATE_CHANGE (R405): into D3hot or back to D0. -/
  | pciePowerStateChange (d3 : Bool)
  /-- PCIE_UNCORRECTABLE_ERROR (R445): the AER uncorrectable status. -/
  | pcieUncorrectableError (status : W32)
  /-- TXN_OPEN (R432). -/
  | txnOpen (q : RingId)
  /-- TXN_STAGE (R433, R434): what the DMA read of BUF returned. -/
  | txnStage (q : RingId) (dma : List Byte)
  /-- TXN_CHECK (R435). -/
  | txnCheck (q : RingId)
  /-- TXN_APPLY (R437). -/
  | txnApply (q : RingId)
  /-- TXN_ABANDON (R441). -/
  | txnAbandon (q : RingId)
  /-- TXN_STATUS (R432). -/
  | txnStatus (q : RingId)
  /-- TXN_READ (R660). -/
  | txnRead (q : RingId)
  /-- CONFIG_SAVE (R440): the pages written when power fails, none where it does not. -/
  | configSave (cut : Option Nat)
  /-- BARRIER_REFRESH (R452): a refresh leaves; `intact` says that it reaches the field die undamaged. -/
  | barrierRefresh (intact : Bool)
  /-- BARRIER_ECHO (R452): an echo arrives, undamaged or not, `ns` after its refresh left. -/
  | barrierEcho (intact : Bool) (ns : Nat)
  /-- BARRIER_FAULT (R457), with the cause of class 0x0508. -/
  | barrierFault (cause : BitVec 2)
  /-- FIELD_INPUT_CHANGE (R460): the input stage of a channel sees a new level. -/
  | fieldInputChange (chan : ChanId) (level : Bool)
  /-- PULSED_SAMPLE (R461): the level at the end of a draw. -/
  | pulsedSample (chan : ChanId) (level : Bool)
  /-- DEBOUNCE_EXPIRY (R460). -/
  | debounceExpiry (chan : ChanId)
  /-- WIRE_BREAK_SET (R464): how long the land current has stayed below 0.2 mA. -/
  | wireBreakSet (chan : Lasting ChanId)
  /-- WIRE_BREAK_CLEAR (R464): how long the land current has stayed at or above 0.4 mA. -/
  | wireBreakClear (chan : Lasting ChanId)
  /-- THERMAL_SHUTDOWN (R465). -/
  | thermalShutdown (chan : ChanId)
  /-- THERMAL_RESTART (R465). -/
  | thermalRestart (chan : ChanId)
  /-- LATCH_OFF_RELEASE (R465). -/
  | latchOffRelease (chan : ChanId)
  /-- READBACK_DISCREPANCY (R466). -/
  | readbackDiscrepancy (chan : ChanId)
  /-- GROUP_OVERLOAD (R468): the current of a group in mA, and how long it has stayed on its side of 2.2 A. -/
  | groupOverload (group : Fin 4) (ma : Lasting W16)
  /-- SAG_LEVEL1 (R469): L+ in mV, and how long it has stood below 18 V. -/
  | sagLevel1 (group : Fin 4) (mv : Lasting W16)
  /-- SAG_LEVEL2 (R469): L+ in mV, and how long it has stood below 12 V. -/
  | sagLevel2 (group : Fin 4) (mv : Lasting W16)
  /-- SAG_RESTORE (R469): L+ in mV, and how long it has stood at or above 18 V. -/
  | sagRestore (group : Fin 4) (mv : Lasting W16)
  /-- METER_SAMPLE (R478): the decimated samples of the 16 channels, in units of 2^-30 of modulator full scale. -/
  | meterSample (x : Vector Int 16)
  /-- STREAM_LOST (R480): how long the bitstream has shown no change of level. -/
  | streamLost (chan : Lasting (Fin 16))
  /-- STREAM_RESTORED (R480): how long the bitstream has changed level in every 250 µs. -/
  | streamRestored (chan : Lasting (Fin 16))
  /-- ZC_LOST (R485). -/
  | zcLost (point : Fin 8)
  /-- PQ_VALUE_REFRESH (R488). -/
  | pqValueRefresh (point : Fin 8)
  /-- ENERGY_SAVE (R497): the comparisons that fail, and whether the one that succeeds comes within 1 ms of the capture. -/
  | energySave (fails : Fin 3) (inTime : Bool)
  /-- MTR_READ (R504). -/
  | mtrRead (q : RingId)
  /-- MTR_HARM (R504). -/
  | mtrHarm (q : RingId)
  /-- MTR_PRESET (R504, R505), with the password read from its buffer. -/
  | mtrPreset (q : RingId) (dma : List Byte)
  /-- PAGE_WRITE (R511): the page write that comes next, with its failed comparisons. -/
  | pageWrite (fails : Fin 3)
  /-- TRAILER_SCAN (R523), with the single-bit errors that its reads correct (R509). -/
  | trailerScan (fixed : Nat)
  /-- BACKOFF_END (R525). -/
  | backoffEnd (region : Fin 3)
  /-- POWER_FAIL_WARNING (R529): the pages written when power is lost during the save, none where it is not. -/
  | powerFailWarning (cut : Option Nat)
  /-- PST_READ (R535). -/
  | pstRead (q : RingId)
  /-- PST_INFO (R535). -/
  | pstInfo (q : RingId)
  /-- PST_PWD_SET (R526): what the read of BUF returned. -/
  | pstPwdSet (q : RingId) (dma : List Byte)
  /-- PST_RET_SAVE (R529). -/
  | pstRetSave (q : RingId)
  /-- PST_RET_INFO (R535). -/
  | pstRetInfo (q : RingId)
  /-- EVR_RECORD_WRITE (R542): the failed comparisons of the two page writes; `cut` where power fails between them. -/
  | evrRecordWrite (fails1 fails2 : Fin 3) (cut : Bool)
  /-- EVR_WRITE_REPEAT (R544), with the failed comparisons of the two page writes. -/
  | evrWriteRepeat (fails1 fails2 : Fin 3)
  /-- EVR_READ (R550). -/
  | evrRead (q : RingId)
  /-- EVR_STATUS_READ (R550). -/
  | evrStatusRead (q : RingId)
  /-- RTC_SUB_READ (R556), by host software or by service firmware. -/
  | rtcSubRead (firmware : Bool)
  /-- RTC_DATE_READ (R556). -/
  | rtcDateRead (firmware : Bool)
  /-- RTC_TIME_READ (R556). -/
  | rtcTimeRead (firmware : Bool)
  /-- RTC_FREEZE_TIMEOUT (R556). -/
  | rtcFreezeTimeout (firmware : Bool)
  /-- RTC_DATE_WRITE (R559). -/
  | rtcDateWrite (val : W32)
  /-- RTC_TIME_WRITE (R559). -/
  | rtcTimeWrite (val : W32)
  /-- RTC_HALT (R558): the HALT bit of a write to RTC_CTRL. -/
  | rtcHalt (halt : Bool)
  /-- RTC_ALARM_ARM (R563): a write to RTC_ALM_CTRL. -/
  | rtcAlarmArm (val : W32)
  /-- RTC_COMPENSATION (R565): the reading of the temperature sensor, in 0.1 °C. -/
  | rtcCompensation (temp : Int)
  /-- VBAT_CHECK (R568): VBAT in mV. -/
  | vbatCheck (mv : W16)
  /-- WDG_SERVICE (R575): service firmware writes an answer. -/
  | wdgService (answer : W32)
  /-- SUPPLY_RESET (R638), with VIN in mV. -/
  | supplyReset (mv : W16)
  /-- OVER_TEMPERATURE (R654): a die is above 150 °C, or every die is below 135 °C again; VIN in mV. -/
  | overTemperature (hot : Bool) (mv : W16)
  /-- POWER_UP_RELEASE (R592): PAIR_ID as sampled, whether both reads of the fuses agree and their redundancy holds, and whether
  steps 2 and 3 pass. -/
  | powerUpRelease (pairId fusesAgree storeOk marchOk : Bool)
  /-- BUILT_IN_SELF_TEST (R597): what fails, the duration of the lane self-test in µs, the first delay of the barrier in ns, and the
  duration of step 6 in ms. -/
  | builtInSelfTest (failed : SelfTestFails) (laneMicros : W16) (delay : Nat) (millis : W16)
  /-- SYS_RESTART (R604). -/
  | sysRestart (q : RingId)
  /-- SYS_CMD_RESTART (R596): a BAR0 write to SYS_CMD. -/
  | sysCmdRestart (val : W32)
  /-- SYS_START_INFO (R606). -/
  | sysStartInfo (q : RingId)
  /-- FUSE_PROGRAM (R609): whether VPP_FUSE lies within its range throughout (R637). -/
  | fuseProgram (q : RingId) (vpp : Bool)
  /-- FWU_BEGIN (R614). -/
  | fwuBegin (q : RingId)
  /-- FWU_BLOCK (R615): what the read of BUF returned. -/
  | fwuBlock (q : RingId) (dma : List Byte)
  /-- FWU_VERIFY (R616). -/
  | fwuVerify (q : RingId)
  /-- FWU_ACTIVATE (R618). -/
  | fwuActivate (q : RingId)
  /-- SERVICE_PAUSE_END (R621): whether the image passes its digest as it is copied into the working set (R619). -/
  | servicePauseEnd (intact : Bool)
  /-- FWU_CONFIRM (R622). -/
  | fwuConfirm (q : RingId)
  /-- FWU_ABORT (R617). -/
  | fwuAbort (q : RingId)
  /-- FWU_STATUS_READ (R628). -/
  | fwuStatusRead (q : RingId)
  /-- ANNOUNCE_RECEIPT_TIMEOUT (R69). -/
  | announceReceiptTimeout (port : PortId)
  /-- PDELAY_MESSAGE_RECEIVED (R69). -/
  | pdelayMessageReceived (port : PortId) (msg : PdelayMessage)
  /-- PTP_MESSAGE_TRANSMIT (R69). -/
  | ptpMessageTransmit (port : PortId) (kind : PtpKind)
  /-- OUTPUT_CURRENT_LIMIT (R465): a channel begins or ends to limit its current. -/
  | outputCurrentLimit (chan : ChanId) (active : Bool)
  /-- READBACK_DISCREPANCY_CLEAR (R466). -/
  | readbackDiscrepancyClear (chan : ChanId)
  /-- JOIN_FINAL_COPY (R377): the number of single-bit errors that the read of the source lane corrects (R35). -/
  | joinFinalCopy (fixed : Nat)

  -- The commands without operands.
  /-- SYNC_RECEIPT_TIMEOUT (R66). -/
  | syncReceiptTimeout
  /-- HOLDOVER_EXPIRY (R66). -/
  | holdoverExpiry
  /-- CHIP_TIME_SEED (R67, R68). -/
  | chipTimeSeed
  /-- RTC_SYNC (R561). -/
  | rtcSync
  /-- CHIP_TIME_SAVE (R68). -/
  | chipTimeSave
  /-- REFCLK_FAULT_SET (R649). -/
  | refclkFaultSet
  /-- REFCLK_FAULT_CLEAR (R649). -/
  | refclkFaultClear
  /-- TRACE_LOSS_RECORD (R73). -/
  | traceLossRecord
  /-- TRACE_FREEZE (R82). -/
  | traceFreeze
  /-- TABLE_WAY_FREE (R150). -/
  | tableWayFree
  /-- EVENT_RECOGNISED (R178, R179): the oldest event on its way to recognition. -/
  | eventRecognised
  /-- CUT_OFF (R193): the earliest cut-off that has come. -/
  | cutOff
  /-- OUTPUT_INSTANT (R193): the earliest output instant that has come. -/
  | outputInstant
  /-- FORCE_INSTANT (R208). -/
  | forceInstant
  /-- AUTONOMOUS_START (R219). -/
  | autonomousStart
  /-- STOP_COMPLETE (R218). -/
  | stopComplete
  /-- VAR_READ_CAPTURE (R215): a writer's release has ended and its symbols are read. -/
  | varReadCapture
  /-- VAR_WRITE_TIMEOUT (R216). -/
  | varWriteTimeout
  /-- SWITCH_COMMIT (R243): at the commit point of a committed switch. -/
  | switchCommit
  /-- SWITCH_INSTANT (R244): at X of a committed switch. -/
  | switchInstant
  /-- ONE_LANE_HOURLY (R293). -/
  | oneLaneHourly
  /-- ONE_LANE_EXPIRED (R293). -/
  | oneLaneExpired
  /-- ONE_LANE_ALLOWANCE_SAVE (R292). -/
  | oneLaneAllowanceSave
  /-- STREAM_SILENCE (R321). -/
  | streamSilence
  /-- DUE_INSTANT (R331). -/
  | dueInstant
  /-- A_RESPONSE_TIMEOUT (R338). -/
  | aResponseTimeout
  /-- DISCOVER_ROUND (R347). -/
  | discoverRound
  /-- INAUGURATION_TIMEOUT (R349). -/
  | inaugurationTimeout
  /-- CATCH_UP_REPEAT (R357). -/
  | catchUpRepeat
  /-- STANDBY_FRAME_CHECK (R399). -/
  | standbyFrameCheck
  /-- HEARTBEAT_SEND (R367). -/
  | heartbeatSend
  /-- CELL_REPEAT (R367). -/
  | cellRepeat
  /-- NARROWS_SILENCE (R368). -/
  | narrowsSilence
  /-- NARROWS_LOCK_LOSS (R368). -/
  | narrowsLockLoss
  /-- ILK_IN_TOGGLING (R370): a run of 16 rising edges ends. -/
  | ilkInToggling
  /-- ILK_IN_STOPPED (R370). -/
  | ilkInStopped
  /-- CLAIM_BACKOFF_END (R372). -/
  | claimBackoffEnd
  /-- CLAIM_COMPLETE (R373). -/
  | claimComplete
  /-- ILK_PULSE_MISSING (R375). -/
  | ilkPulseMissing
  /-- PAIR_START_TIMEOUT (R376). -/
  | pairStartTimeout
  /-- JOIN_TIMEOUT (R378). -/
  | joinTimeout
  /-- ACTIVE_ALONE_ENTRY (R393). -/
  | activeAloneEntry
  /-- STANDBY_DETACH (R394). -/
  | standbyDetach
  /-- REVERT_HOLD_OFF (R396). -/
  | revertHoldOff
  /-- RETENTIVE_CRC_MIRROR (R384). -/
  | retentiveCrcMirror
  /-- ILK_TEST_PULSE_RECEIVED (R375). -/
  | ilkTestPulseReceived
  /-- REVERT_WAIT_TIMEOUT (R396). -/
  | revertWaitTimeout
  /-- REVERT_RATE_WINDOW_EXPIRY (R397). -/
  | revertRateWindowExpiry
  /-- FENCE_CLEAR (R429). -/
  | fenceClear
  /-- TXN_DECISION (R439): at D_T of an apply in progress. -/
  | txnDecision
  /-- TXN_APPLY_INSTANT (R440): at X of a committed transaction. -/
  | txnApplyInstant
  /-- TXN_IDLE_TIMEOUT (R441): 600 s without a transaction opcode from the owner. -/
  | txnIdleTimeout
  /-- FIELD_SAFE_TIMEOUT (R455). -/
  | fieldSafeTimeout
  /-- FIELD_EDGE_REPORT (R453): the oldest edge crosses the barrier. -/
  | fieldEdgeReport
  /-- FIELD_OUTPUT_COMMAND (R454). -/
  | fieldOutputCommand
  /-- FIELD_OUTPUT_APPLY (R454). -/
  | fieldOutputApply
  /-- MEASUREMENT_INTERVAL_END (R482). -/
  | measurementIntervalEnd
  /-- RWP_RECORD_WRITE (R519). -/
  | rwpRecordWrite
  /-- PAGE_REFRESH (R523). -/
  | pageRefresh
  /-- WARNING_REARM (R638). -/
  | warningRearm
  /-- RTC_SECOND (R554): a seconds transition. -/
  | rtcSecond
  /-- RTC_PHASE_STEP (R566). -/
  | rtcPhaseStep
  /-- VBAT_LOST (R569). -/
  | vbatLost
  /-- OSC_STOP (R569). -/
  | oscStop
  /-- WATCHDOG_START (R573). -/
  | watchdogStart
  /-- WDG_EXPIRY (R575). -/
  | wdgExpiry
  /-- RESTART_STAMP_EXPIRY (R584). -/
  | restartStampExpiry
  /-- VIN_PRESENT (R638). -/
  | vinPresent
  /-- VIN_ABSENT (R638). -/
  | vinAbsent
  /-- EXTERNAL_RESET (R639). -/
  | externalReset
  /-- SERVICE_PAUSE_START (R619). -/
  | servicePauseStart
  /-- FIRMWARE_CONFIRMED (R622): the new firmware's own checks have passed. -/
  | firmwareConfirmed
  /-- FIRMWARE_TRIAL_TIMEOUT (R625). -/
  | firmwareTrialTimeout
  /-- FWU_IDLE_TIMEOUT (R617). -/
  | fwuIdleTimeout
  deriving DecidableEq, Repr

end Sys2Proof
end

