-- ==== Sys2Proof/Machine/Bytes.lean ====
section
/-! DEFINITION. Byte lists as the spec lays records out: little-endian fields, the CRC-32C of R147 and the CRC-64 of R268, and small helpers
on lists and vectors. -/

namespace Sys2Proof.Machine

/-- The `n` low bytes of `v`, least significant first (little-endian layouts, R8, R75, R417, R420). -/
def leBytes : Nat → Nat → List Byte
  | 0, _ => []
  | n + 1, v => BitVec.ofNat 8 v :: leBytes n (v / 256)

/-- The number a little-endian byte list spells. -/
def leNat : List Byte → Nat
  | [] => 0
  | b :: bs => b.toNat + 256 * leNat bs

/-- `n` bytes of a record from byte `off`. -/
def slice (bs : List Byte) (off n : Nat) : List Byte := (bs.drop off).take n

/-- The little-endian field of `n` bytes at byte `off` of a record. -/
def rd (bs : List Byte) (off n : Nat) : Nat := leNat (slice bs off n)

/-- A record built from fields given as (width in bytes, value), in order. -/
def fields : List (Nat × Nat) → List Byte
  | [] => []
  | (n, v) :: fs => leBytes n v ++ fields fs

/-- A byte list cut or zero-padded to `n` bytes. -/
def fitTo (n : Nat) (bs : List Byte) : List Byte := (bs ++ List.replicate n 0).take n

/-- The eight detail bytes of an event (R77), from fields given as (width in bytes, value). -/
def det (fs : List (Nat × Nat)) : W64 := BitVec.ofNat 64 (leNat (fields fs))

/-- Two's complement of an integer in `n` bits, as a number. -/
def signedNat (n : Nat) (i : Int) : Nat := (BitVec.ofInt n i).toNat

/-- Add with saturation at `top`. -/
def satAdd (top a b : Nat) : Nat := min top (a + b)

/-- A counter field of width `w` advanced by `n`, saturating at all ones. -/
def satInc {w : Nat} (c : BitVec w) (n : Nat) : BitVec w :=
  BitVec.ofNat w (min (2 ^ w - 1) (c.toNat + n))

/-- The integer `x` kept within `lo` and `hi`. -/
def clampInt (lo hi x : Int) : Int := max lo (min hi x)

/-- `0` or `1`. -/
def bit (b : Bool) : Nat := if b then 1 else 0

/-- Change one element of a vector. -/
def vmod {α : Type} {n : Nat} (v : Vector α n) (i : Fin n) (f : α → α) : Vector α n :=
  v.set i.val (f (v.get i)) i.isLt

/-- All indices below `n`, in ascending order. -/
def allFin (n : Nat) : List (Fin n) := List.finRange n

/-- The index `k` of a `Fin (n + 1)`, or the first one where `k` is out of range. -/
def finOr {n : Nat} (k : Nat) : Fin (n + 1) := if h : k < n + 1 then ⟨k, h⟩ else 0

/-- `k` as an index, where it is in range. -/
def fin? (n k : Nat) : Option (Fin n) := if h : k < n then some ⟨k, h⟩ else none

/-- Serial-number arithmetic with a 2^31 window (R76, R320): `a - b` as a signed number. -/
def serialDiff (a b : W32) : Int := (a - b).toInt

/-- Replace the elements of a list that meet `p`. -/
def updWhere {α : Type} (p : α → Bool) (f : α → α) (l : List α) : List α :=
  l.map fun x => if p x then f x else x

/-- Replace the first element of a list that meets `p`. -/
def updFirst {α : Type} (p : α → Bool) (f : α → α) : List α → List α
  | [] => []
  | x :: xs => if p x then f x :: xs else x :: updFirst p f xs

/-- An association list with one entry per key. -/
def assoc? {κ α : Type} [DecidableEq κ] (k : κ) : List (κ × α) → Option α
  | [] => none
  | (k', v) :: r => if k' = k then some v else assoc? k r

/-- Set the entry of a key in an association list, in place or at the end. -/
def assocSet {κ α : Type} [DecidableEq κ] (k : κ) (v : α) : List (κ × α) → List (κ × α)
  | [] => [(k, v)]
  | (k', v') :: r => if k' = k then (k, v) :: r else (k', v') :: assocSet k v r

/-- Eight shifts of the reflected CRC-32C register (R147). -/
def crc32cBits : Nat → W32 → W32
  | 0, c => c
  | n + 1, c => crc32cBits n (if c.getLsbD 0 then (c >>> 1) ^^^ 0x82F63B78#32 else c >>> 1)

/-- The CRC-32C register after the bytes of a list. -/
def crc32cGo : List Byte → W32 → W32
  | [], c => c
  | b :: bs, c => crc32cGo bs (crc32cBits 8 (c ^^^ b.setWidth 32))

/-- CRC-32C (R147): polynomial 0x1EDC6F41 reflected, initial value and final inversion all ones. -/
def crc32c (bs : List Byte) : W32 := ~~~ (crc32cGo bs 0xFFFFFFFF#32)

/-- Eight shifts of the CRC-64 register (R268). -/
def crc64Bits : Nat → W64 → W64
  | 0, c => c
  | n + 1, c =>
    crc64Bits n (if c.getLsbD 63 then (c <<< 1) ^^^ 0x42F0E1EBA9EA3693#64 else c <<< 1)

/-- The CRC-64 of R268 after the bytes of a list, from a running value. -/
def crc64Go : List Byte → W64 → W64
  | [], c => c
  | b :: bs, c => crc64Go bs (crc64Bits 8 (c ^^^ (b.setWidth 64 <<< 56)))

end Sys2Proof.Machine
end

