-- ==== Sys2Proof/Machine/Crypto.lean ====
section
/-! DEFINITION. SHA-384 and the verification of ECDSA P-384 signatures. The spec names both (R225, R229, R612, R616) and defines neither:
they are those of FIPS 180-4 and FIPS 186-4, PRESUMED (log entry 62). -/

namespace Sys2Proof.Machine

/-! ## SHA-384 -/

/-- A sum of 64-bit words. -/
def add64 (a b : Nat) : Nat := (a + b) % 18446744073709551616

/-- A 64-bit word rotated right. -/
def rotr64 (k x : Nat) : Nat := (x >>> k) ||| (x <<< (64 - k)) % 18446744073709551616

/-- The initial hash value. -/
def shaInit : List Nat :=
  [0xCBBB9D5DC1059ED8, 0x629A292A367CD507, 0x9159015A3070DD17, 0x152FECD8F70E5939, 0x67332667FFC00B31,
    0x8EB44A8768581511, 0xDB0C2E0D64F98FA7, 0x47B5481DBEFA4FA4]

/-- The round constants 0 to 19. -/
def shaRounds0 : List Nat :=
  [0x428A2F98D728AE22, 0x7137449123EF65CD, 0xB5C0FBCFEC4D3B2F, 0xE9B5DBA58189DBBC, 0x3956C25BF348B538,
    0x59F111F1B605D019, 0x923F82A4AF194F9B, 0xAB1C5ED5DA6D8118, 0xD807AA98A3030242, 0x12835B0145706FBE,
    0x243185BE4EE4B28C, 0x550C7DC3D5FFB4E2, 0x72BE5D74F27B896F, 0x80DEB1FE3B1696B1, 0x9BDC06A725C71235,
    0xC19BF174CF692694, 0xE49B69C19EF14AD2, 0xEFBE4786384F25E3, 0x0FC19DC68B8CD5B5, 0x240CA1CC77AC9C65]

/-- The round constants 20 to 39. -/
def shaRounds1 : List Nat :=
  [0x2DE92C6F592B0275, 0x4A7484AA6EA6E483, 0x5CB0A9DCBD41FBD4, 0x76F988DA831153B5, 0x983E5152EE66DFAB,
    0xA831C66D2DB43210, 0xB00327C898FB213F, 0xBF597FC7BEEF0EE4, 0xC6E00BF33DA88FC2, 0xD5A79147930AA725,
    0x06CA6351E003826F, 0x142929670A0E6E70, 0x27B70A8546D22FFC, 0x2E1B21385C26C926, 0x4D2C6DFC5AC42AED,
    0x53380D139D95B3DF, 0x650A73548BAF63DE, 0x766A0ABB3C77B2A8, 0x81C2C92E47EDAEE6, 0x92722C851482353B]

/-- The round constants 40 to 59. -/
def shaRounds2 : List Nat :=
  [0xA2BFE8A14CF10364, 0xA81A664BBC423001, 0xC24B8B70D0F89791, 0xC76C51A30654BE30, 0xD192E819D6EF5218,
    0xD69906245565A910, 0xF40E35855771202A, 0x106AA07032BBD1B8, 0x19A4C116B8D2D0C8, 0x1E376C085141AB53,
    0x2748774CDF8EEB99, 0x34B0BCB5E19B48A8, 0x391C0CB3C5C95A63, 0x4ED8AA4AE3418ACB, 0x5B9CCA4F7763E373,
    0x682E6FF3D6B2B8A3, 0x748F82EE5DEFB2FC, 0x78A5636F43172F60, 0x84C87814A1F0AB72, 0x8CC702081A6439EC]

/-- The round constants 60 to 79. -/
def shaRounds3 : List Nat :=
  [0x90BEFFFA23631E28, 0xA4506CEBDE82BDE9, 0xBEF9A3F7B2C67915, 0xC67178F2E372532B, 0xCA273ECEEA26619C,
    0xD186B8C721C0C207, 0xEADA7DD6CDE0EB1E, 0xF57D4F7FEE6ED178, 0x06F067AA72176FBA, 0x0A637DC5A2C898A6,
    0x113F9804BEF90DAE, 0x1B710B35131C471B, 0x28DB77F523047D84, 0x32CAAB7B40C72493, 0x3C9EBE0A15C9BEBC,
    0x431D67C49C100D4C, 0x4CC5D4BECB3E42B6, 0x597F299CFC657E2A, 0x5FCB6FAB3AD6FAEC, 0x6C44198C4A475817]

/-- The round constants. -/
def shaRounds : List Nat := shaRounds0 ++ shaRounds1 ++ shaRounds2 ++ shaRounds3

/-- A big-endian number. -/
def beNat (bs : List Byte) : Nat := bs.foldl (fun n b => n * 256 + b.toNat) 0

/-- `n` words of 8 bytes each. -/
def shaWords : Nat → List Byte → List Nat
  | 0, _ => []
  | n + 1, bs => beNat (bs.take 8) :: shaWords n (bs.drop 8)

/-- The next `n` words of the message schedule after a window of sixteen. -/
def shaExtend : Nat → List Nat → List Nat
  | 0, _ => []
  | n + 1, w =>
    let a := w.getD 1 0
    let b := w.getD 14 0
    let s0 := rotr64 1 a ^^^ rotr64 8 a ^^^ (a >>> 7)
    let s1 := rotr64 19 b ^^^ rotr64 61 b ^^^ (b >>> 6)
    let x := (s1 + w.getD 9 0 + s0 + w.getD 0 0) % 18446744073709551616
    x :: shaExtend n (w.drop 1 ++ [x])

/-- One round on the working variables a to h, with the constant and the word of the schedule. -/
def shaRound (v : List Nat) (k w : Nat) : List Nat :=
  match v with
  | [a, b, c, d, e, f, g, h] =>
    let s1 := rotr64 14 e ^^^ rotr64 18 e ^^^ rotr64 41 e
    let ch := (e &&& f) ^^^ ((18446744073709551615 ^^^ e) &&& g)
    let t1 := h + s1 + ch + k + w
    let s0 := rotr64 28 a ^^^ rotr64 34 a ^^^ rotr64 39 a
    let maj := (a &&& b) ^^^ (a &&& c) ^^^ (b &&& c)
    [(t1 + s0 + maj) % 18446744073709551616, a, b, c, add64 d t1, e, f, g]
  | _ => v

/-- The hash value after one block of 128 bytes. -/
def shaBlock (h : List Nat) (bs : List Byte) : List Nat :=
  let w := shaWords 16 bs
  let v := (shaRounds.zip (w ++ shaExtend 64 w)).foldl (fun v x => shaRound v x.1 x.2) h
  (h.zip v).map fun x => add64 x.1 x.2

/-- The hash value after `n` blocks. -/
def shaBlocks : Nat → List Nat → List Byte → List Nat
  | 0, h, _ => h
  | n + 1, h, bs => shaBlocks n (shaBlock h (bs.take 128)) (bs.drop 128)

/-- The padded message: a one bit, zeros, and the length in bits as 128 bits. -/
def shaPadded (bs : List Byte) : List Byte :=
  bs ++ [0x80#8] ++ List.replicate ((239 - bs.length % 128) % 128) 0 ++ (leBytes 16 (8 * bs.length)).reverse

/-- The SHA-384 digest, 48 bytes. -/
def sha384 (bs : List Byte) : List Byte :=
  let m := shaPadded bs
  ((shaBlocks (m.length / 128) shaInit m).take 6).flatMap fun x => (leBytes 8 x).reverse

/-! ## ECDSA on P-384 -/

/-- The prime of the field. -/
def p384Prime : Nat := 0xFFFFFFFFFFFFFFFFFFFFFFFFFFFFFFFFFFFFFFFFFFFFFFFFFFFFFFFFFFFFFFFEFFFFFFFF0000000000000000FFFFFFFF

/-- The order of the base point. -/
def p384Order : Nat := 0xFFFFFFFFFFFFFFFFFFFFFFFFFFFFFFFFFFFFFFFFFFFFFFFFC7634D81F4372DDF581A0DB248B0A77AECEC196ACCC52973

/-- The coefficient b of the curve; a is −3. -/
def p384B : Nat := 0xB3312FA7E23EE7E4988E056BE3F82D19181D9C6EFE8141120314088F5013875AC656398D8A2ED19D2A85C8EDD3EC2AEF

/-- The base point's coordinates. -/
def p384Gx : Nat := 0xAA87CA22BE8B05378EB1C71EF320AD746E1D3B628BA79B9859F741E082542A385502F25DBF55296C3A545E3872760AB7
/-- See `p384Gx`. -/
def p384Gy : Nat := 0x3617DE4A96262C6F5D9E98BF9292DC29F8F41DBD289A147CE9DA3113B5F0B8C00A60B1CE1D7E819D7A431D7C90EA0E5F

/-- A product in the field. -/
def fmul (a b : Nat) : Nat := a * b % p384Prime

/-- A difference in the field. -/
def fsub (a b : Nat) : Nat := (a + (p384Prime - b % p384Prime)) % p384Prime

/-- A point in Jacobian coordinates; `z` is 0 at infinity. -/
structure CurvePoint where
  x : Nat
  y : Nat
  z : Nat
  deriving DecidableEq, Repr

/-- The point at infinity. -/
def CurvePoint.infinity : CurvePoint := { x := 1, y := 1, z := 0 }

/-- Twice a point. -/
def CurvePoint.double (a : CurvePoint) : CurvePoint :=
  let yy := fmul a.y a.y
  let zz := fmul a.z a.z
  let s := fmul 4 (fmul a.x yy)
  let m := fmul 3 (fmul (fsub a.x zz) (a.x + zz))
  let x := fsub (fmul m m) (2 * s)
  { x := x, y := fsub (fmul m (fsub s x)) (fmul 8 (fmul yy yy)), z := fmul 2 (fmul a.y a.z) }

/-- The sum of two points. -/
def CurvePoint.add (a b : CurvePoint) : CurvePoint :=
  if a.z = 0 then b
  else if b.z = 0 then a
  else
    let za := fmul a.z a.z
    let zb := fmul b.z b.z
    let u1 := fmul a.x zb
    let u2 := fmul b.x za
    let s1 := fmul a.y (fmul zb b.z)
    let s2 := fmul b.y (fmul za a.z)
    if u1 = u2 then (if s1 = s2 then a.double else CurvePoint.infinity)
    else
      let h := fsub u2 u1
      let r := fsub s2 s1
      let hh := fmul h h
      let v := fmul u1 hh
      let x := fsub (fsub (fmul r r) (fmul h hh)) (2 * v)
      { x := x, y := fsub (fmul r (fsub v x)) (fmul s1 (fmul h hh)), z := fmul h (fmul a.z b.z) }

/-- `u` times the base point plus `v` times `q`, by the `n` high bits of 384. -/
def CurvePoint.combine (u v : Nat) (q : CurvePoint) : Nat → CurvePoint
  | 0 => CurvePoint.infinity
  | n + 1 =>
    let a := (CurvePoint.combine u v q n).double
    let b := if u.testBit (383 - n) then a.add { x := p384Gx, y := p384Gy, z := 1 } else a
    if v.testBit (383 - n) then b.add q else b

/-- A power modulo `m`, of an exponent of `n` bits. -/
def powMod (m : Nat) : Nat → Nat → Nat → Nat
  | 0, _, _ => 1 % m
  | n + 1, b, e =>
    let h := powMod m n (b * b % m) (e / 2)
    if e % 2 = 1 then h * b % m else h

/-- The public key is an uncompressed point of the curve (R229). -/
def onCurve (key : List Byte) : Bool :=
  let x := beNat (slice key 1 48)
  let y := beNat (slice key 49 48)
  key.length == 97 && key.head? == some 4 && decide (x < p384Prime) && decide (y < p384Prime) &&
    fmul y y == (fsub (fmul x (fmul x x)) (3 * x) + p384B) % p384Prime

/-- The signature, r followed by s, of a digest verifies under a public key. -/
def p384Verify (key digest sig : List Byte) : Bool :=
  let r := beNat (sig.take 48)
  let s := beNat (slice sig 48 48)
  let w := powMod p384Order 384 s (p384Order - 2)
  let q : CurvePoint := { x := beNat (slice key 1 48), y := beNat (slice key 49 48), z := 1 }
  let t := CurvePoint.combine (beNat digest * w % p384Order) (r * w % p384Order) q 384
  let zz := fmul t.z t.z
  onCurve key && decide (0 < r) && decide (r < p384Order) && decide (0 < s) && decide (s < p384Order) && t.z != 0 &&
    (t.x == fmul r zz || (decide (r + p384Order < p384Prime) && t.x == fmul (r + p384Order) zz))

end Sys2Proof.Machine
end

