-- ==== Sys2Proof/Config.lean ====
section
/-! DEFINITION. What the spec leaves open: free values without a body, which no proof can evaluate, and the constants of one module. A free
value is applied to the model's own counter `State.free`, or to the operands it depends on. -/

namespace Sys2Proof.Config

/-- The free values of results the spec calls open: one fresh value per count (log entry 3). -/
opaque freeBits : Nat → W64

/-- The servo of R62 and R66, whose law the spec does not give: the rate correction in parts per 10^12 from the count of
free values, the offset and the present rate. The machine keeps it within the limit of R62 (log entry 4). -/
opaque servoRate : Nat → Int → Int → Int

/-- The clock class, clock accuracy and variance the module announces for its own clock, which the spec does not give
(log entry 5). -/
opaque ownClockClass : Byte
/-- See `ownClockClass`. -/
opaque ownClockAccuracy : Byte
/-- See `ownClockClass`. -/
opaque ownClockVariance : W16

/-- Whether the module as grandmaster announces its TAI − UTC offset as valid (log entry 5). -/
opaque ownUtcValid : Bool

/-- The chip time of a fault within a release, which must be the same in every lane and whose measure the spec does not
give: a value from the release CT and the context cycles used (log entry 21). -/
opaque causeCt : Nat → Nat → Nat

/-- The interpolation by which a current sample is delayed (R479), whose law the spec does not give: from the count of free
values, PHASE, and the current samples before and at the instant. -/
opaque interpolated : Nat → Int → Int → Int → Int

/-- The polynomial of R565 with the factory coefficients C0 to C4 of the module, from the temperature in 0.1 °C, in units of
0.1 ppm and rounded. -/
opaque rtcCurve : Int → Int

/-- The ticks between the sets of the calendar that service firmware reads (R557), which the spec does not give: from the count of free
values (log entry 144). -/
opaque readGaps : Nat → Vector Nat 3

/-- The code of a frame's class in a frame record of the trace, which R77 does not give: from the frame type. -/
opaque frameClass : Nat → Byte

/-- The public firmware key in the read-only memory of the processor die (R612). -/
opaque firmwareKey : List Byte

end Sys2Proof.Config
end

