-- ==== Sys2Proof/Machine/Mem.lean ====
section
/-! DEFINITION. A byte memory in one canonical form: addresses strictly rising, and no entry equal to what an unlisted address reads as,
which is zero (log entry 2). -/

namespace Sys2Proof.Machine

/-- A memory: the bytes that differ from zero, by rising address. -/
abbrev Memory := List Host.Cell

/-- What an unlisted address reads as (log entry 2). -/
def Memory.blank : Byte := 0

/-- The byte at an address. -/
def memGet (a : Nat) : Memory → Byte
  | [] => Memory.blank
  | (a', b) :: r => if a = a' then b else memGet a r

/-- Put a byte at the front of the memory above it, unless it is what an unlisted address reads as. -/
def memCons (a : Nat) (b : Byte) (r : Memory) : Memory := if b = Memory.blank then r else (a, b) :: r

/-- Write the byte at an address. -/
def memSet (a : Nat) (b : Byte) : Memory → Memory
  | [] => memCons a b []
  | (a', b') :: r =>
    if a < a' then memCons a b ((a', b') :: r)
    else if a = a' then memCons a b r
    else (a', b') :: memSet a b r

/-- `n` bytes from an address up. -/
def memRead (m : Memory) (a : Nat) : Nat → List Byte
  | 0 => []
  | n + 1 => memGet a m :: memRead m (a + 1) n

/-- Write a list of bytes from an address up. -/
def memWrite (m : Memory) (a : Nat) : List Byte → Memory
  | [] => m
  | b :: bs => memWrite (memSet a b m) (a + 1) bs

/-- The number that `n` bytes from an address spell, little-endian. -/
def memNat (m : Memory) (a n : Nat) : Nat := leNat (memRead m a n)

/-- Every address of the list is above `a`. -/
def memAbove (a : Nat) (m : Memory) : Bool := m.all fun c => a < c.1

/-- The canonical form of a memory. -/
def Memory.wf : Memory → Bool
  | [] => true
  | (a, b) :: r => memAbove a r && (b != Memory.blank) && Memory.wf r

end Sys2Proof.Machine
end

