-- ==== Sys2Proof/Machine/State.lean ====
section
/-! DEFINITION. The state of the module as plain data: every register, buffer, counter, mode and land the spec gives it, the queue of
waiting commands, and the state after reset. -/

namespace Sys2Proof.Machine

/-- Why a step can stop with a fault. No command of this block stops so: the type has one member only because the host
asks for a type of faults; nothing raises it (safe). -/
inductive Fault
  | unreachable
  deriving DecidableEq, Repr

/-- Why a step can be refused. -/
inductive Refusal
  /-- raised by an arm of `exec` whose command has no meaning yet (safe) -/
  | notModelled (mnemonic : String)
  deriving DecidableEq, Repr

/-- The memories held as bytes: DRAM by offset from 0x04_0000_0000 (R32, R40). The scratchpads stand in the lanes; the
parts of the shared SRAM that the spec lays out stand in the blocks that own them (R34). `fixed` counts the single-bit errors that
the owners other than the lanes have corrected (R35) and `dramFixed` the words that the patrol has written back (R38), which no
register shows; `scrubAt` and `patrolAt` are when the last passes were made (R36, R38). -/
structure Mems where
  dram : Memory
  fixed : List (SramOwner × Nat)
  dramFixed : Nat
  scrubAt : Nat
  patrolAt : Nat
  deriving DecidableEq, Repr

/-- The lines of 256 bytes of a data partition that are marked dirty (R283, R377): all but those in `lines` where `all` holds, else
those in `lines`. -/
structure Dirty where
  all : Bool
  lines : List Nat
  deriving DecidableEq, Repr

/-- The DRAM partition sizes in force, in MiB (R40). -/
structure Partitions where
  tables : Nat
  trace : Nat
  deriving DecidableEq, Repr

/-- A cell sent and not yet acknowledged (R367): its sequence number and message, when it was last sent, its
repeats, and for a MIRROR cell the descriptor whose fetch it fixes (R385) with the bytes read
from its buffer. -/
structure PairCell where
  seq : Nat
  msg : NarrowsMsg
  sentAt : Nat
  tries : Nat
  desc : Option (RingId × Nat)
  data : List Byte
  deriving DecidableEq, Repr

/-- A hand-over in progress on the active module (R396): begun at `since`, by PAIR_SWITCH where `desc` is given. -/
structure Handover where
  since : Nat
  limit : Nat
  desc : Option (RingId × Nat)
  deriving DecidableEq, Repr

/-- An ACCEPTED record (R380): ring, cycle, the map of stations and the CRC over their frames. -/
structure AcceptedRec where
  ring : StraitId
  due : Nat
  map : BitVec 256
  crc : W32
  deriving DecidableEq, Repr

/-- The pair (R363 to R402) with the PAIR registers. `before` is the state a claiming module left; `ilkIn` is the line declared toggling,
`ilkRunAt` the end of its last run and `ilkOffAt` the instant it was declared stopped; `up` the Narrows link up and `failedAt` the instant
it failed; `goodSince` and `cellAt` the unbroken run of valid cells; `txSeq` the next cell sequence number and `rxSeen` the cells taken
lately; `joinBar` why a join is to be refused, as class 0x030C codes it, or 0, and `refused` that it has been; `rejoin` that the next join
begins at step 3; `partner` its state from its last HEARTBEAT; `mark` its last completeness mark; `clockId` its clock identity (R70) and
`gmOffset` the active's offset to an external grandmaster (R384); `prefKnown` that the PAIR_ID 1 module has the PREFERRED_ID of its partner
(R376); `delayAt` the last measurement of the delay; `lines` the dirty lines of the source lane while a standby joins (R377); `points` the
changes of its local points; `fixed` a detached standby that waits for PAIR_JOIN; `lastMirrored` the ring and index of PAIR_STATUS (R391);
`decided` a decision on the prepared transaction that the partner sent or took (R390). -/
structure Pair where
  state : PairState
  before : PairState
  changedCt : Nat
  toggling : Bool
  toggleSince : Nat
  backoff : Option Nat
  ilkIn : Bool
  ilkRunAt : Nat
  ilkOffAt : Nat
  ilkOffCt : Nat
  pulseSentAt : Nat
  pulseSeenAt : Nat
  up : Bool
  failed : Bool
  failedAt : Nat
  goodSince : Nat
  cellAt : Nat
  delay : W16
  repeats : W16
  txSeq : Nat
  rxSeen : List Nat
  sentAt : Nat
  unacked : List PairCell
  partner : Option PairState
  partnerSafeAt : Option Nat
  clockId : Option W64
  gmOffset : Int
  prefKnown : Bool
  delayAt : Nat
  mark : Nat
  points : List PointChange
  partnerLost : Bool
  accepted : List AcceptedRec
  joinBar : Nat
  refused : Bool
  rejoin : Bool
  joinStep : Nat
  joinAt : Nat
  dirty : Nat
  lines : Dirty
  joinFinal : Bool
  joinT : Nat
  fixed : Bool
  departures : List Nat
  reverts : List Nat
  revertOff : Bool
  healthySince : Option Nat
  handover : Option Handover
  partnerDown : List PortId
  splitMiss : W16
  resyncs : Byte
  takeovers : Byte
  lastMirrored : Option (Nat × Nat)
  crcAt : Nat
  startAt : Nat
  decided : Option Bool
  diverged : List (StraitId × Nat)
  frameCheckAt : Nat
  deriving DecidableEq, Repr

/-- The clocks of the model: `now` counts nanoseconds since the state after reset, whatever happens to chip time;
`ct` is chip time (R61); `frac` holds the part of a nanosecond that the rate correction has gathered, in 10^-12 ns
(TIM_RATE); `opNs` is the operating time of the always-on island in nanoseconds (R590). -/
structure Clock where
  now : Nat
  ct : Nat
  frac : Int
  opNs : Nat
  deriving DecidableEq, Repr

/-- A time-quality code (R65). -/
inductive Quality
  | free | seeded | locked | holdover
  deriving DecidableEq, Repr

/-- The code of a time quality (R65). -/
def Quality.code : Quality → Nat
  | .free => 0
  | .seeded => 1
  | .locked => 2
  | .holdover => 3

/-- What the time island keeps of one port (R69); `respDue` the peer-delay requests whose answers wait for gate time (R342). -/
structure PtpPort where
  announce : Option PtpAnnounce
  announceAt : Nat
  asCapable : Bool
  delay : Nat
  syncSeq : W16
  announceSeq : W16
  pdelaySeq : W16
  syncSentAt : Nat
  announceSentAt : Nat
  pdelaySentAt : Nat
  respDue : List W16
  deriving DecidableEq, Repr

/-- The time island (R61 to R71 and the TIM registers that are not RWS or RWP); `savedAt` is when chip time was last saved
(R68); `codes` lists the changes of the quality, newest first: the chip time of each and the code before it (R65). -/
structure Tim where
  offset : Int
  rate : Int
  slew : Bool
  source : BitVec 2
  slavePort : Option PortId
  refFault : Bool
  refBadSince : Option Nat
  quality : Quality
  codes : List (Nat × Quality)
  grandmaster : Bool
  goodSyncs : Nat
  lastSyncAt : Nat
  holdoverAt : Nat
  seeded : Bool
  base : W16
  savedAt : Nat
  ports : Vector PtpPort 10
  deriving DecidableEq, Repr

/-- One 32-byte record of the Comet trace (R75). -/
structure TraceRec where
  ct : Nat
  typ : Byte
  flags : Byte
  source : W16
  seq : W32
  body : List Byte
  deriving DecidableEq, Repr

/-- The trace writer (R73 to R91) and the CMT registers that are not RWS. `stage` is the staging buffer, oldest first;
`recs` is the trace partition, oldest first. `post` is the number of records still to write after a trigger (R82);
`some 0` is a writer that has written them and awaits TRACE_FREEZE. -/
structure Cmt where
  enable : Bool
  stopFull : Bool
  trigArm : Bool
  trigClass : W16
  trigPost : W16
  head : W32
  tail : W32
  lost : W32
  wrapped : Bool
  full : Bool
  frozen : Bool
  post : Option Nat
  stage : List TraceRec
  recs : List TraceRec
  dropCount : Nat
  dropFirst : Nat
  stopCount : Nat
  stopFirst : Nat
  peakKib : W16
  rateWindow : Nat
  rateNow : Nat
  rateLast : Nat
  deriving DecidableEq, Repr

/-- One entry of the MSI-X table (R407, R410). -/
structure MsixEntry where
  addr : W64
  data : W32
  masked : Bool
  pending : Bool
  deriving DecidableEq, Repr

/-- The 64 bytes of a fetched descriptor, in their fields (R417). -/
structure Desc where
  opcode : Byte
  flags : Byte
  tag : W16
  len : Nat
  deadline : Nat
  buf : Nat
  param : List Byte
  deriving DecidableEq, Repr

/-- How a descriptor's work ended: status, detail (R423) and the result bytes of R419, empty for none. -/
structure Done where
  status : Byte
  detail : W32
  result : List Byte
  deriving DecidableEq, Repr

/-- A descriptor fetched and not yet posted. `num` counts the descriptors of its ring pair; `bound` is the bound of R426, `none` for no
bound; `fenced` while it waits for its fence (R429); `waiting` once it waits on an instant or an outside party (R425); `admitted` once it
has passed the checks at fetch (R426); `ended` once its work has ended or it has been refused; `doneCt` once it is complete (R421). -/
structure Outst where
  num : Nat
  slot : Nat
  desc : Desc
  fetchCt : Nat
  bound : Option Nat
  admitted : Bool
  fenced : Bool
  waiting : Bool
  ended : Option Done
  doneCt : Option Nat
  deriving DecidableEq, Repr

/-- A host ring pair and its registers (R411 to R422). `dead` holds the descriptors whose completions a reset has discarded while
their work goes on (R416); `used` counts the completions posted and not yet consumed. -/
structure RingPair where
  sqBase : W64
  cqBase : W64
  enable : Bool
  sqLog2 : BitVec 4
  cqLog2 : BitVec 4
  prio : BitVec 2
  vector : BitVec 5
  coalUs : BitVec 10
  coalCount : Byte
  cause : Byte
  stopped : Bool
  overflow : Bool
  discarded : W16
  refused : W16
  sqTail : BitVec 12
  sqHead : BitVec 12
  cqHead : BitVec 12
  cqTail : BitVec 12
  phase : Bool
  outst : List Outst
  dead : List Outst
  used : Nat
  nextNum : Nat
  unsent : Nat
  firstUnsentAt : Nat
  deriving DecidableEq, Repr

/-- A bulk buffer allocated in the bulk partition (R431). -/
structure BulkBuf where
  offset : Nat
  size : Nat
  deriving DecidableEq, Repr

/-- The host interface (R404 to R431). `svc` is the order of the service cores: ring pair and descriptor number, oldest
first (R425); `svcStart` is the chip time at which the first of them began. `lastRing` is, per PRIO, the ring pair last
fetched from (R415). -/
structure Hif where
  dmaTimeout : Byte
  width : BitVec 4
  rate : BitVec 4
  linkUp : Bool
  d3 : Bool
  bme : Bool
  cause : BitVec 10
  errDma : W16
  errBad : W16
  msix : Vector MsixEntry 64
  rings : Vector RingPair 32
  svc : List (RingId × Nat)
  svcStart : Nat
  lastRing : Vector RingId 4
  bulk : List BulkBuf
  deriving DecidableEq, Repr

/-- The states of the configuration transaction (CFG_STATE.STATE). -/
inductive TxnPhase
  | none | opened | checked | applying | committed
  deriving DecidableEq, Repr

/-- The code of CFG_STATE.STATE. -/
def TxnPhase.code : TxnPhase → Nat
  | .none => 0
  | .opened => 1
  | .checked => 2
  | .applying => 3
  | .committed => 4

/-- A staged object of kinds 1 to 5 (R433), as the bytes staged; `ring` is 0 but for kind 3. -/
structure StagedObj where
  kind : Nat
  ring : Nat
  bytes : List Byte
  deriving DecidableEq, Repr

/-- A staged program switch (R238): the bank and the instant X. -/
structure StagedSwitch where
  bank : Nat
  x : Nat
  deriving DecidableEq, Repr

/-- A unit that must acknowledge a transaction (R438). -/
inductive TxnUnit
  | lane (l : LaneId)
  | partner
  | station (ring : StraitId) (station : Nat)
  deriving DecidableEq, Repr

/-- The configuration transaction and the CFG registers (R432 to R442). `required` lists the units that must
acknowledge, `acked` those that have; `apply` is the descriptor number of the TXN_APPLY in progress;
`applied` lists the objects of kinds 1 to 5 of the
applied set (R440). -/
structure Txn where
  phase : TxnPhase
  num : Byte
  owner : RingId
  objs : List StagedObj
  rws : List (Nat × W32)
  switch : Option StagedSwitch
  x : Nat
  w : Nat
  dT : Nat
  required : List TxnUnit
  acked : List TxnUnit
  apply : Option Nat
  lastOpAt : Nat
  lastTxn : Byte
  lastStatus : Byte
  lastReason : Byte
  xReg : Nat
  saveDue : Option Nat
  saved : Bool
  applied : List StagedObj
  deriving DecidableEq, Repr

/-- An event on its way to the recorder: the fields of R539 that the block which raises it fills. -/
structure EvItem where
  cls : W16
  source : W16
  ct : Nat
  base : W16
  flags : Byte
  opSeconds : W32
  pcycles : W32
  detail : W64
  traceSeq : W32
  arrived : Nat
  deriving DecidableEq, Repr

/-- The event recorder (R537 to R553). `queue` is the queue of 256 events, oldest first; `body` is set between the two
page writes of R542; `tries` counts the failed writes of the present record and `retryAt` is the instant of the next
repetition (R544); `last` holds the last stamp stored of each source (R540). -/
structure Evr where
  ready : Bool
  next : Nat
  full : Bool
  fault : Bool
  body : Bool
  tries : Nat
  retryAt : Option Nat
  overflow : W32
  dropped : W32
  dropCount : Nat
  dropFirst : Nat
  queue : List EvItem
  last : List ((Byte × W16) × (W16 × Nat))
  deriving DecidableEq, Repr

/-- The values of the registers with RWS fields now in force (R13), as whole words. -/
structure Rws where
  timCtrl : W32
  timPtpCfg : W32
  timPortEn : W32
  timHoldover : W32
  cmtFilter : W32
  votCfg : W32
  netCtrl : W32
  netSeed : W32
  mtrPqCfg : W32
  mtrCfg : Vector W32 8
  mtrScale : Vector W32 8
  mtrLimit : Vector W32 8
  wdgTaskEn : Vector W32 8
  deriving DecidableEq, Repr

/-- The values of the RWP fields (R13), as whole words; `changed` since the last ring record was begun (R519). -/
structure Rwp where
  changed : Bool
  taiUtc : W32
  runCfg : W32
  pairCfg : W32
  rtcSync : W32
  rtcTrim : W32
  wdgCfg : W32
  mtrCalV : Vector W32 8
  mtrCalI : Vector W32 8
  mtrPhase : Vector W32 8
  fwuCfg : W32
  deriving DecidableEq, Repr

/-- What has left the module, for an observer outside it; the messages of 802.1AS are two-step, so that a Sync and a Pdelay_Resp
are followed by the time at which they left (R69); a frame `badFrame` ends with an FCS that fails (R310). -/
inductive Out
  | msix (vector : Nat) (addr : W64) (data : W32)
  | dmaWrite (addr : Nat) (bytes : List Byte)
  | ptp (port : PortId) (kind : PtpKind) (domain : Nat) (seq : W16)
  | ptpFollowUp (port : PortId) (domain : Nat) (seq : W16) (ct : Nat)
  | ptpAnnounce (port : PortId) (domain : Nat) (seq : W16) (msg : PtpAnnounce)
  | pdelayResp (port : PortId) (seq : W16) (ct : Nat)
  | pdelayFollowUp (port : PortId) (seq : W16) (ct : Nat)
  | frame (port : PortId) (bytes : List Byte)
  | badFrame (port : PortId) (bytes : List Byte)
  | cell (seq : Nat) (msg : NarrowsMsg)
  | cellAck (seq : Nat)
  | ilkOut (toggling : Bool)
  | ilkPulse
  | fieldRefresh (resume : Bool)
  | fieldCommand (instant : Nat) (bits : W32)
  | land (chan : ChanId) (on : Bool)
  deriving DecidableEq, Repr

/-- The run states of the module (R217, SYS_RUN_STATE.STATE). -/
inductive RunState
  | stopped | running | safeTalk | starting
  deriving DecidableEq, Repr

/-- The code of SYS_RUN_STATE.STATE. -/
def RunState.code : RunState → Nat
  | .stopped => 0
  | .running => 1
  | .safeTalk => 2
  | .starting => 3

/-- The contents of FUSE_WDG (R609). -/
structure FuseWdg where
  hw : Bool
  opening : BitVec 3
  n : BitVec 3
  deriving DecidableEq, Repr

/-- The fuses (R4, R5, R609): the safety option (true on the -ES), the stepping, the serial number, the base MAC
address, the two fields the integrator programs, the requests that wait for the next power-on or external reset, and the
outcome of the two reads of step 1 (R595). -/
structure Fuse where
  safety : Bool
  stepping : Byte
  serial : W64
  mac : BitVec 48
  wdg : Option FuseWdg
  ident : Option W64
  pendingWdg : Option FuseWdg
  pendingIdent : Option W64
  readOk : Bool
  fault : Bool
  deriving DecidableEq, Repr

/-- A chip restart that has been asked for and is not yet performed (R604, R605, R596, R581): its code and the instant
from which it may be performed. -/
structure RestartDue where
  kind : Nat
  at_ : Nat
  deriving DecidableEq, Repr

/-- Reset, power and start-up (R588 to R606) with the run state of R217. `inReset` while PORST_N, the supervisor or a restart holds the
chip; `releaseAt` is the instant of the release of PORST_N; `phyReset` is PHY_RST_N held low (R642); `selfTestEnded` once step 6 has ended
(R593, R594); `powerLostAt` is the operating-time count latched at the loss of VIN or at the beginning of a chip restart (R500, R501);
`hotStop` holds the supply reset of an over-temperature; `warned` a power-fail warning that is not yet re-armed; `nextKind` the reset kind
that the next release counts as; `vinMv` VIN at the last supply reset, whose class 0x0A05 waits; `lostEvent` the count of a class 0x0A04
that waits for the next power-on; `forcesLost` the number of forces that a loss of power took (R212), to be recorded at the next power-up.
-/
structure Sys where
  resetKind : Nat
  failedStep : Nat
  failedPart : Nat
  step : Nat
  run : RunState
  stopReason : Nat
  safeCause : Nat
  safeCt : Nat
  pcycles : W32
  bistMs : W16
  totalMs : W16
  releaseAt : Nat
  inReset : Bool
  phyReset : Bool
  pairId : Bool
  selfTestEnded : Bool
  restart : Option RestartDue
  vinPresent : Bool
  powerLostAt : Option Nat
  hotStop : Bool
  warned : Bool
  nextKind : Nat
  vinMv : W16
  lostEvent : Option Nat
  forcesLost : Nat
  deriving DecidableEq, Repr

/-- The kinds of task (R172). -/
inductive TaskKind
  | periodic | event | error
  deriving DecidableEq, Repr

/-- One in-area of a reader: the writer task and the data offset (R181). -/
structure XIn where
  writer : Nat
  area : Nat
  deriving DecidableEq, Repr

/-- An entry of the schedule table (R181). Times are in the units of the table: PERIOD and PHASE in µs, OFFSET in ns.
`errorTask` is `none` for 0xFF; `xin` lists the in-areas in use. -/
structure TaskEntry where
  task : Nat
  kind : TaskKind
  priority : Nat
  engine : Fin 4
  entry : Nat
  period : Nat
  phase : Nat
  offset : Nat
  budget : Nat
  errorTask : Option Nat
  eventSrc : Nat
  maxEffects : Nat
  eventArg : W32
  cause : Nat
  xout : Nat
  xsize : Nat
  tbl : Bool
  xin : List XIn
  deriving DecidableEq, Repr

/-- A schedule table (R180). -/
structure Schedule where
  align : Nat
  imageId : W64
  aFrames : Nat
  edges : Nat
  tasks : List TaskEntry
  deriving DecidableEq, Repr

/-- An entry of the I/O map (R182); `out` for DIR 1, `substitute` for FAULT_ACTION 1. -/
structure IoEntry where
  point : W32
  out : Bool
  task : Nat
  substitute : Bool
  width : Nat
  subst : W64
  symbol : W32
  deriving DecidableEq, Repr

/-- A value with its quality code (R199). -/
structure IoValue where
  value : W64
  quality : Nat
  deriving DecidableEq, Repr

/-- The states of a program bank (R222). -/
inductive BankState
  | empty | loading | loaded | mapped | active | retained | switching
  deriving DecidableEq, Repr

/-- The code of a bank state (R222). -/
def BankState.code : BankState → Nat
  | .empty => 0
  | .loading => 1
  | .loaded => 2
  | .mapped => 3
  | .active => 4
  | .retained => 5
  | .switching => 6

/-- An entry of the symbol table (R227). -/
structure Symbol where
  sym : W32
  kind : Nat
  writer : Nat
  width : Nat
  loc : W32
  retentive : Bool
  exchange : Bool
  deriving DecidableEq, Repr

/-- A program image held in the program image store (R225): its identifier, code, initial data, symbols, and the whole
object as bytes. `damaged` marks an uncorrectable error in the store (R39). -/
structure Image where
  id : W64
  code : List Byte
  data : List Byte
  syms : List Symbol
  raw : List Byte
  damaged : Bool
  deriving DecidableEq, Repr

/-- An entry of a state map (R233). -/
structure MapEntry where
  kind : Nat
  flags : Nat
  task : Nat
  old : Nat
  new : Nat
  arg : Nat
  deriving DecidableEq, Repr

/-- A state map (R232). -/
structure StateMap where
  oldId : W64
  newId : W64
  entries : List MapEntry
  literal : List Byte
  raw : List Byte
  crc : W32
  len : Nat
  deriving DecidableEq, Repr

/-- A program bank, the same in every lane (R222). -/
structure Bank where
  state : BankState
  image : Option Image
  map : Option StateMap
  deriving DecidableEq, Repr

/-- A committed switch: the bank, X, W in ns, and whether the commit point's work is done (R239, R243). -/
structure SwitchRun where
  bank : Fin 2
  x : Nat
  w : Nat
  done : Bool
  deriving DecidableEq, Repr

/-- The program banks and online change (R222 to R263). `fetch` is the bank the engines fetch from; `key` the signing key
of R229; `edges` lists the EDGE entries whose memory bits await their task's first release (R249), and `entries` those of the map of a
switch whose transaction is still to apply at the same X (R237, R244). -/
structure Prg where
  banks : Vector Bank 2
  fetch : Fin 2
  key : Option (List Byte)
  sw : Option SwitchRun
  lastX : Nat
  switches : W16
  failed : Byte
  dropped : List W32
  edges : List MapEntry
  entries : List MapEntry
  deriving DecidableEq, Repr

/-- A force (R206): the symbol, its value as bytes, the force instant, and its place in the force table. -/
structure Force where
  sym : W32
  value : List Byte
  at_ : Nat
  place : Nat
  deriving DecidableEq, Repr

/-- What a change of the force table does (R208). -/
inductive ForceAct
  | set (f : Force)
  | clear (sym : W32)
  | clearAll
  deriving DecidableEq, Repr

/-- A change of the force table that waits for its force instant, with the descriptor that asked for it. -/
structure ForceChange where
  act : ForceAct
  at_ : Nat
  ring : RingId
  num : Nat
  deriving DecidableEq, Repr

/-- One symbol of a VAR_WRITE (R216). -/
structure VarItem where
  sym : W32
  value : List Byte
  written : Bool
  deriving DecidableEq, Repr

/-- A VAR_WRITE that waits (R216): the chip time of its fetch, its apply instant P and its symbols. -/
structure VarWrite where
  ring : RingId
  num : Nat
  ct : Nat
  p : Nat
  items : List VarItem
  overridden : Nat
  deriving DecidableEq, Repr

/-- One symbol of a VAR_READ (R215): the entry to be written to the buffer once it is known. `after` is the least release
CT whose release it waits for to end normally. -/
structure VarGet where
  sym : W32
  after : Nat
  entry : Option (List Byte)
  deriving DecidableEq, Repr

/-- A VAR_READ that waits (R215). -/
structure VarRead where
  ring : RingId
  num : Nat
  gets : List VarGet
  deriving DecidableEq, Repr

/-- The source of an event on its way to recognition (R178): the task, its stamp, and for a host trigger the
descriptor. -/
structure RawEvent where
  task : Nat
  stamp : Nat
  trigger : Option (RingId × Nat)
  deriving DecidableEq, Repr

/-- An exchange version that is valid (R196): the writer, the cycle number, the output instant, whether its slot still holds it (R198), and
where the writer's slots lie and their size. -/
structure Version where
  writer : Nat
  cycle : Nat
  instant : Nat
  readable : Bool
  xout : Nat
  xsize : Nat
  deriving DecidableEq, Repr

/-- How far the set of a release has come (R192): effects still arrive, an abort record passed and the error task's
records follow, complete with the effects of the release, complete with those of the error task after an abort, or closed
without effects. -/
inductive SetState
  | collecting | aborted | complete | errorComplete | noEffects
  deriving DecidableEq, Repr

/-- A release from its release CT to its output instant (R189 to R194). It keeps the entry and the I/O map entries it was
released under, the snapshot of its inputs, the forces on writes (R208), the table generations captured (R149) and the exchange versions selected
(R197); `stations` are the stations of its causes (R202), and `version` the writer, XOUT and XSIZE of the exchange version it makes (R196,
R253); `image` is the output image formed at the cut-off, before forces, and `sent` the rings whose OUT frames have left. `lanes` are the
lanes due to receive it, `delivered`, `ready` and `ended` per lane. -/
structure Release where
  task : Nat
  cycle : Nat
  ct : Nat
  entry : TaskEntry
  err : Option TaskEntry
  outs : List IoEntry
  snap : List (W32 × IoValue)
  forces : List Force
  tables : List (Nat × Nat)
  xsel : List (XIn × Nat × Option Version)
  lanes : Vector Bool 3
  delivered : Vector Bool 3
  ready : Vector Bool 3
  ended : Vector Bool 3
  causes : Nat
  causeCt : Nat
  stations : List W32
  version : Option (Nat × Nat × Nat)
  effects : List (W32 × W64)
  set : SetState
  instant : Nat
  lead : Nat
  resp : Nat
  late : Bool
  cut : Bool
  image : List (W32 × IoValue)
  sent : List StraitId
  done : Bool
  deriving DecidableEq, Repr

/-- The standing figures of a task (R176 to R179, R213). `next` is the next grid index, `first` the index j0 and `k0` the
cycle number K of the first release under the anchor; `cycle` the cycle number of the last release; `due` the release CT
fixed for a pending event and `triggers` the descriptors that wait for it, with whether theirs was coalesced; `causes` and
the fields after it gather the causes of R202, each station once. `ends` is per lane the cycle number of the last release that ended
normally there, and `ran` the cycle number and CT of the last release that a lane received since the data partitions were last written from
the image (R215). -/
structure TaskRun where
  next : Nat
  first : Nat
  k0 : Nat
  cycle : Option Nat
  lastCt : Nat
  lastInstant : Nat
  due : Option Nat
  triggers : List ((RingId × Nat) × Bool)
  used : Nat
  maxUsed : Nat
  overruns : Nat
  faults : Nat
  lates : Nat
  coalesced : Nat
  causes : Nat
  causeCt : Nat
  stations : List W32
  ends : Vector (Option Nat) 3
  ran : Option (Nat × Nat)
  deriving DecidableEq, Repr

/-- An O_s of R218 that is still to come: the task, the output instant, the cycle number, and whether its SUBST frames
have left. -/
structure StopTail where
  task : Nat
  instant : Nat
  cut : Bool
  sent : List StraitId
  done : Bool
  deriving DecidableEq, Repr

/-- Tasks, cycles, forcing and host access (R172 to R221). `image` is the output image last applied, point by point;
`stopAt` the stop instant of R218 and `stopper` its descriptor; `resp` the responses of R184 of the applied schedule in
lane cycles. -/
structure Tsk where
  sched : Option Schedule
  iomap : List IoEntry
  anchor : Nat
  resp : List (Nat × Nat)
  leads : List (Nat × Nat)
  run : Vector TaskRun 256
  rels : List Release
  raw : List RawEvent
  versions : List Version
  image : List (W32 × IoValue)
  forces : List Force
  planned : List Force
  changes : List ForceChange
  lastForceAt : Vector Nat 32
  writes : List VarWrite
  lastWriteP : Vector Nat 32
  floor : Vector Nat 32
  reads : List VarRead
  stopAt : Option Nat
  stopper : Option (RingId × Nat)
  tails : List StopTail
  resumeAt : Nat
  deriving DecidableEq, Repr

/-- A result port (R92, R93): the value readable now, and the results still on their way with the context cycle from which
each is readable. -/
structure ResultPort where
  val : W64
  pend : List (Nat × W64)
  deriving DecidableEq, Repr

/-- A lookup slot of the table unit (R151 to R155): the status and value readable, and for a lookup in flight the context
cycle of its result with what it will deliver. -/
structure TblSlot where
  status : Nat
  value : W64
  flight : Option (Nat × Nat × W64)
  deriving DecidableEq, Repr

/-- What a context is doing: nothing, a release delivered whose copy is not complete, a release that may run, or one that
has ended (R191). -/
inductive CtxPhase
  | idle | copying | ready
  deriving DecidableEq, Repr

/-- A task context (R117), with the running digest of R268. `cyc` counts context cycles and `start` is its value at the first bundle of the
release (R186); `delay` is the target of a taken branch whose delay bundle is next, `branch` one taken in the present cycle; `started` lists
the units started in the present cycle and `resv` the data-port reservations (cycle, reads, writes) of R127; `timerWb` the write-backs of
R136 (cycle, offset, bytes); `blk` a block operation in progress (its trigger port, B and bundle index); `index` and `effects` count the
records and effects of the release; `inErr` says that the error task runs in the owner's place, and `aborted` that it does so after a fault.
-/
structure Ctx where
  g : Vector W64 64
  pc : Int
  delay : Option Int
  branch : Option Int
  ending : Bool
  link : W64
  cyc : Nat
  start : Nat
  aluA : W64
  aluRes : ResultPort
  acc : Bool
  stack : List (Bool × Nat)
  bitAcc : ResultPort
  bitDepth : ResultPort
  tmrInst : W64
  tmrPreset : W64
  tmrQ : ResultPort
  tmrEt : ResultPort
  timerWb : List (Nat × Nat × List Byte)
  edgInst : W64
  edgQ : ResultPort
  blkSrc : W64
  blkDst : W64
  blkCnt : W64
  blkSize : W64
  blkRes : W64
  blk : Option (Nat × W64 × Int)
  tblSel : W64
  slots : Vector TblSlot 4
  imgPt : W64
  imgVal : ResultPort
  imgQual : ResultPort
  lastWr : Option Nat
  lsBase : W64
  lsData : W64
  lsRes : ResultPort
  started : List Nat
  resv : List (Nat × Nat × Nat)
  phase : CtxPhase
  inErr : Bool
  aborted : Bool
  index : Nat
  effects : Nat
  ownerUsed : Nat
  digest : W64
  deriving DecidableEq, Repr

/-- A result port that reads zero (R92). -/
def ResultPort.zero : ResultPort := { val := 0, pend := [] }

/-- A context after reset (R92, R247): every register and port zero, every slot IDLE; the digest as R268 starts it. -/
def Ctx.reset : Ctx :=
  { g := Vector.replicate 64 0, pc := 0, delay := none, branch := none, ending := false, link := 0, cyc := 0, start := 0, aluA := 0,
    aluRes := .zero, acc := false, stack := [], bitAcc := .zero, bitDepth := .zero, tmrInst := 0, tmrPreset := 0,
    tmrQ := .zero, tmrEt := .zero, timerWb := [], edgInst := 0, edgQ := .zero, blkSrc := 0, blkDst := 0, blkCnt := 0,
    blkSize := 0, blkRes := 0, blk := none, tblSel := 0,
    slots := Vector.replicate 4 { status := 0, value := 0, flight := none }, imgPt := 0, imgVal := .zero, imgQual := .zero,
    lastWr := none, lsBase := 0, lsData := 0, lsRes := .zero, started := [], resv := [], phase := .idle, inErr := false,
    aborted := false, index := 0, effects := 0, ownerUsed := 0, digest := 0xFFFFFFFFFFFFFFFF }

/-- The states of a lane (R277). -/
inductive LaneState
  | inService | selfTest | resync | wait | failed | starved | hostOut
  deriving DecidableEq, Repr

/-- The code of a lane state (R277). -/
def LaneState.code : LaneState → Nat
  | .inService => 0
  | .selfTest => 1
  | .resync => 2
  | .wait => 3
  | .failed => 4
  | .starved => 5
  | .hostOut => 6

/-- A 32-byte effect record (R266). -/
structure EffRec where
  cycle : W64
  value : W64
  target : W32
  task : Byte
  kind : Byte
  index : W16
  digest : W64
  deriving DecidableEq, Repr

/-- A lane: its scratchpad, contexts and engines, its effect buffer, and the LANE registers (R24, R33, R117, R266, R277). `run` is the task
that holds each engine; `buffer` the records not yet at the voter; `queue` the copies at the voter that wait for another copy; `owed` the
records that the other lanes have passed and this lane still owes; `freqAt` when its clock was last measured (R22); `dirty` the lines of the
source lane still to be copied and `copied` the lines copied in the present step of a resynchronisation (R283, R285); `verdict` a self-test
verdict, the failing part and the duration, that is held under R298; `snaps` the snapshot buffer, by task (R164). -/
structure Lane where
  state : LaneState
  rejoins : W16
  cause : Byte
  khz : BitVec 21
  freqAt : Nat
  supplyFaults : W16
  mv : W16
  uncorr : W16
  corr : W16
  testMicros : W16
  testPart : Byte
  testPass : Bool
  testDone : Bool
  abandoned : Byte
  step : Nat
  dirty : Dirty
  copied : Nat
  finalDirty : Nat
  exclCt : Nat
  outFaults : W16
  mem : Memory
  ctx : Vector Ctx 256
  run : Vector (Option Nat) 4
  buffer : List EffRec
  queue : List EffRec
  owed : List EffRec
  snaps : List (Nat × List (W32 × IoValue))
  verdict : Option (Byte × W16)
  retest : Option (RingId × Nat)
  finalDone : Bool
  finalT : Nat
  resyncNs : Nat
  resyncAt : Nat
  deriving DecidableEq, Repr

/-- A recovery of module scope that is open, or was last open, at one depth (R297, VOT_NEST). -/
structure Recovery where
  cls : W16
  opened : Bool
  lane : Option LaneId
  deriving DecidableEq, Repr

/-- A recovery of module scope that is open (R297): its depth, class and lane. -/
structure OpenRecovery where
  depth : Nat
  cls : W16
  lane : Option LaneId
  deriving DecidableEq, Repr

/-- The voter (R269 to R299) and the VOT registers that are not RWS. `nest` holds the VOT_NEST registers and `recs` the open recoveries;
`order` lists the lanes whose verdicts are awaited, in the order of detection (R298); `stoppedBy` is set while both lanes of the
availability configuration are stopped: the lane a fault is attributed to, if any (R289), with `stopPair` the two lanes; `prev` the last
record passed of each task in one-lane mode (R271). -/
structure Vot where
  mode : Nat
  nest : Vector Recovery 4
  recs : List OpenRecovery
  exclusions : Vector W16 3
  mismatches : Vector W16 3
  lastCt : Nat
  lastClass : W16
  lastTask : Byte
  lastLane : Option LaneId
  ratePeak : W16
  rateLast : W16
  rateWindow : Nat
  rateNow : Nat
  injFirst : W16
  injPass : Bool
  injRan : Bool
  singleLeft : Nat
  singleSince : Nat
  hourAt : Nat
  savedAt : Nat
  order : List LaneId
  stoppedBy : Option (Option LaneId)
  stopPair : List LaneId
  prev : List (Nat × EffRec)
  deriving DecidableEq, Repr

/-- A way of a bucket that holds an entry (R146). -/
structure TblEntry where
  bucket : Nat
  way : Nat
  key : W64
  value : W64
  gen : Nat
  deleted : Bool
  crc : W32
  deriving DecidableEq, Repr

/-- The buckets of an unloaded table until no release in progress has captured them (R150): the number of the load they
belong to. -/
structure OldTable where
  load : Nat
  k : Nat
  salt : W32
  offset : Nat
  entries : List TblEntry
  poisoned : List (Nat × Nat)
  deriving DecidableEq, Repr

/-- A destination table (R145, R150). `poisoned` lists the ways (bucket, way) whose read returns an uncorrectable error
(R158); `loads` counts the loads; `from_` is the chip time of the first snapshot that sees the last change (R149, R386);
`old` holds what is still being freed. -/
structure Table where
  loaded : Bool
  loads : Nat
  from_ : Nat
  k : Nat
  salt : W32
  offset : Nat
  gen : Nat
  entries : List TblEntry
  poisoned : List (Nat × Nat)
  old : List OldTable
  deriving DecidableEq, Repr

/-- A station entry of a network schedule (R343). -/
structure StationEntry where
  station : Nat
  slot : Nat
  res : Nat
  hasOut : Bool
  hasIn : Bool
  typ : W32
  identity : W64
  outStream : Nat
  inStream : Nat
  eventStream : Nat
  rspUs : Nat
  linkNs : Nat
  deriving DecidableEq, Repr

/-- The network schedule of a ring (R343); PERIOD and IN_PHASE in µs. -/
structure NetSched where
  vid : Nat
  period : Nat
  inPhase : Nat
  writer : Option Nat
  autoInaug : Bool
  pairLink : Nat
  stations : List StationEntry
  deriving DecidableEq, Repr

/-- What a receiver holds of one stream (R320, R321). -/
structure StreamRef where
  gen : Byte
  ref : Option W32
  crc : W32
  at_ : Nat
  deriving DecidableEq, Repr

/-- An IN frame accepted for the present ring cycle (R331): its input instant, status word, payload and safety CRC. -/
structure InFrame where
  time : Nat
  status : W32
  payload : List Byte
  crc : W32
  deriving DecidableEq, Repr

/-- A catch-up of a lagging station (R357): when it was last sent, its X, and whether it is acknowledged. -/
structure CatchUp where
  sentAt : Nat
  x : Nat
  acked : Bool
  deriving DecidableEq, Repr

/-- What the module keeps of one station of a ring. `got` is the frame of the present cycle, `used` the payload that
snapshots take (R190); `misses` and `good` count consecutive cycles; `inRef` and `aRef` are its Class C and Class A
streams; `outSeq` is the SEQ of the next OUT frame, and `outNext` that of the next one of the instance that begins at the X of a change, once
a frame of it has been sent before X (R324, R352); `events` the points its unsolicited messages have written (R339). -/
structure Station where
  identity : W64
  typ : W32
  res : Nat
  hopsE : Option Nat
  hopsW : Option Nat
  status : W32
  unlocked : Bool
  misses : Nat
  missCount : W32
  good : Nat
  dropped : Bool
  cause : Nat
  lagging : Bool
  got : Option InFrame
  used : Option InFrame
  inRef : StreamRef
  aRef : StreamRef
  outSeq : W32
  outNext : Option W32
  outGen : Byte
  events : List Byte
  catchUp : Option CatchUp
  standbyCount : Option Nat
  deriving DecidableEq, Repr

/-- A reply to the present DISCOVER (R347): identity, type, residence, direction of the copy and its hops. -/
structure DiscReply where
  identity : W64
  typ : W32
  res : Nat
  west : Bool
  hops : Nat
  deriving DecidableEq, Repr

/-- A Class A transaction of the module (R337, R338). `desc` is its descriptor, none for the module's own reads. -/
structure ATxn where
  tag : Nat
  gen : Byte
  station : Nat
  desc : Option (RingId × Nat)
  frames : List (List Byte)
  space : Nat
  off : Nat
  deadline : Nat
  attempts : Nat
  sentAt : Nat
  frags : List (Nat × List Byte)
  deriving DecidableEq, Repr

/-- A mode change of a ring (R353): X and D, the epochs offered, the numbering where it is an inauguration, by number, `none` for a number
whose station did not answer, and the stations that must and that did acknowledge; `decided` the decision sent. -/
structure ModeChange where
  x : Nat
  d : Nat
  newA : W16
  newM : W16
  numbering : Option (List (Option DiscReply))
  required : List Nat
  acked : List Nat
  decided : Option Bool
  deriving DecidableEq, Repr

/-- A frame that waits for the gate of its ring (R335): the port it leaves by, none for both, and its bytes. -/
structure HeldFrame where
  port : Option PortId
  bytes : List Byte
  deriving DecidableEq, Repr

/-- A Strait ring (R308 to R359) and its NET_Rr registers. `seqA` is the next SEQ of the module's Class A stream on the ring and `partnerA`
the stream of the partner; `closed` while the gates are closed; `cycle` the input cycle whose due instant comes next, `waiting` that its own
ACCEPTED record has left and the partner's is awaited (R380); `prevA` and `prevM` the epochs before the instant `epochAt`, from which the
present ones are in force (R352); `rounds` the consecutive discovery rounds that show a change; `tags` and `streams` what was freed, with
the generation used and the instant (R325); `bufErr` the frames discarded for an error in their buffer (R37) and `bad` those of a wrong
version, a reserved type or a subheader out of its range (R316, R319, R320), which no register shows; `diag` the Class A streams of sources
that are no numbered station, by SRC (R320); `firsts` the first copies of mode frames: SRC, SEQ, safety CRC and instant (R78). -/
structure Ring where
  sched : Option NetSched
  active : Bool
  count : Nat
  breakE : Byte
  breakW : Byte
  broken : Bool
  inaug : Nat
  aEpoch : W16
  mEpoch : W16
  prevA : W16
  prevM : W16
  epochAt : Nat
  leadOut : Nat
  leadIn : Nat
  dup : W32
  old : W32
  crcErr : W32
  late : W32
  miss : W32
  hops : W32
  bufErr : W32
  bad : W32
  diag : List (Nat × StreamRef)
  firsts : List (Nat × Nat × W32 × Nat)
  divCount : W16
  divStation : Byte
  stations : Vector Station 256
  seqA : W32
  partnerA : StreamRef
  closed : Bool
  held : List HeldFrame
  cycle : Nat
  waiting : Bool
  discAt : Nat
  disc : List DiscReply
  rounds : Nat
  inaugAt : Nat
  inaugBy : Option (RingId × Nat)
  mode : Option ModeChange
  atxns : List ATxn
  sentUntil : Nat
  tags : List (Nat × Byte × Nat)
  streams : List (Nat × Byte × Nat)
  nextTag : Nat
  deriving DecidableEq, Repr

/-- A port of the module (R304, R305). -/
structure Port where
  fcsErr : W16
  speed : Nat
  full : Bool
  up : Bool
  deriving DecidableEq, Repr

/-- The network island (R304 to R362). `aSent` counts the Class A, mode-change and discovery frames sent in the second `aSecond` (R59, R180). -/
structure Net where
  ports : Vector Port 10
  rings : Vector Ring 4
  aSecond : Nat
  aSent : Nat
  deriving DecidableEq, Repr

/-- A stream of which no frame has been accepted. -/
def StreamRef.empty : StreamRef := { gen := 0, ref := none, crc := 0, at_ := 0 }

/-- A station of which nothing is known. -/
def Station.unknown : Station :=
  { identity := 0, typ := 0, res := 0, hopsE := none, hopsW := none, status := 0, unlocked := false, misses := 0,
    missCount := 0, good := 0, dropped := false, cause := 0, lagging := false, got := none, used := none,
    inRef := .empty, aRef := .empty, outSeq := 0, outNext := none, outGen := 0, events := [], catchUp := none, standbyCount := none }

/-- A ring after reset. -/
def Ring.reset : Ring :=
  { sched := none, active := false, count := 0, breakE := 0xFF, breakW := 0xFF, broken := false, inaug := 0,
    aEpoch := 0, mEpoch := 0, prevA := 0, prevM := 0, epochAt := 0, leadOut := 0, leadIn := 0, dup := 0, old := 0, crcErr := 0, late := 0, miss := 0, hops := 0, bufErr := 0, bad := 0, diag := [], firsts := [],
    divCount := 0, divStation := 0xFF, stations := Vector.replicate 256 Station.unknown, seqA := 0,
    partnerA := .empty, closed := false, held := [], cycle := 0, waiting := false, discAt := 0, disc := [], rounds := 0, inaugAt := 0,
    inaugBy := none, mode := none, atxns := [], sentUntil := 0, tags := [], streams := [], nextTag := 0 }

/-- One physical copy of a page (R508): body and trailer; `bad` where a word or the CRC is beyond correction. -/
structure PageCopy where
  body : List Byte
  seq : W32
  kind : Nat
  group : Nat
  writes : Nat
  ct : Nat
  bad : Bool
  deriving DecidableEq, Repr

/-- A logical page that has been written (R508); every other page has two equal blank copies (log entry 19). -/
structure PstPage where
  num : Nat
  c0 : PageCopy
  c1 : PageCopy
  deriving DecidableEq, Repr

/-- What follows when a queued page write has ended. -/
inductive PageUse
  | nothing
  | keySet (q : RingId) (num : Nat) (key : Option (List Byte))
  | pwdSet (q : RingId) (num : Nat) (region : Fin 3) (write : Bool) (pw : List Byte)
  | refresh
  | prgSave (q : RingId) (num slot : Nat) (active : Bool) (last : Bool)
  | fwuBlock (q : RingId) (num : Nat) (last : Bool)
  deriving DecidableEq, Repr

/-- A page write that waits for its bank (R513): its row, page, body, and what follows. -/
structure PageReq where
  row : Nat
  page : Nat
  body : List Byte
  use_ : PageUse
  deriving DecidableEq, Repr

/-- A journal slot (R515): state 0 never written, 1 open, 2 committed, 3 rolled back. -/
structure Journal where
  seq : W32
  group : Nat
  state : Nat
  tag : W64
  first : Nat
  count : Nat
  ct : Nat
  bytes : Nat
  deriving DecidableEq, Repr

/-- A record of the RWP ring (R519), `none` in the ring where no record has a correct CRC. -/
structure RwpRec where
  seq : W32
  ct : Nat
  vals : Rwp
  deriving DecidableEq, Repr

/-- The passwords of a region with its failures and back-off (R524, R525): the operating time at which the present
back-off ends and the length of the next one in seconds. -/
structure PwdRegion where
  read : List Byte
  write : List Byte
  fails : Nat
  until_ : Option Nat
  next : Nat
  deriving DecidableEq, Repr

/-- The persistent store (R507 to R535) and the PST registers. `journal` holds retentive 0 and 1, configuration 0 and 1;
`rwpCount` the writes of each ring record, `rwpBad` whether RWP fields are frozen (R522); `shadow` the retentive shadow
of R528 with the frozen mark of R530; `warned` and `wornPages` the pages recorded under R521 and R522; `retDone` a
power-fail save whose class 0x0709 is written at the next power-up; `refresh` the pages the last scan listed. -/
structure Pst where
  ready : Bool
  recovering : Bool
  retSaving : Bool
  pages : List PstPage
  queue : List PageReq
  journal : Vector Journal 4
  ring : Vector (Option RwpRec) 64
  ringNext : Nat
  ringSeq : W32
  rwpCount : Vector Nat 64
  rwpBad : Bool
  records : W16
  eccBad : W16
  eccFixed : W16
  shadow : Memory
  shadowBad : Bool
  retDone : Option (Nat × Nat)
  pwd : Vector PwdRegion 3
  warned : List Nat
  wornPages : List Nat
  scanAt : Nat
  refresh : List Nat
  refreshAt : Nat
  deriving DecidableEq, Repr

/-- A task channel of the watchdog (R579): the check-ins of the open window. -/
structure TaskChan where
  task : Nat
  checkIns : Nat
  deriving DecidableEq, Repr

/-- The watchdog (R572 to R587) and the WDG registers. `since` is the tick (µs) at which the present period began and
`len` its length; `step1` the instants of the step-1 actions by channel, none for the system channel; `stamps` the
operating-time stamps of watchdog chip restarts; `resets` the tasks whose context is reset before the next release. -/
structure Wdg where
  running : Bool
  start : Bool
  since : Nat
  len : Nat
  question : W16
  answer : W32
  lastStep : Nat
  step1Count : W16
  step1 : List (Option Nat × Nat)
  stamps : List Nat
  faults : Vector W32 8
  chans : List TaskChan
  resets : List Nat
  deriving DecidableEq, Repr

/-- The states of a firmware slot (R613). -/
inductive SlotState
  | empty | receiving | verified | trial | confirmed | previous | failed
  deriving DecidableEq, Repr

/-- The code of a slot state. -/
def SlotState.code : SlotState → Nat
  | .empty => 0
  | .receiving => 1
  | .verified => 2
  | .trial => 3
  | .confirmed => 4
  | .previous => 5
  | .failed => 6

/-- A firmware slot with its slot record (R613). `good` says that the image passes its digest and signature; `total` is its
TOTAL_LEN. -/
structure FwSlot where
  state : SlotState
  version : W32
  svn : W32
  tries : Nat
  total : Nat
  good : Bool
  deriving DecidableEq, Repr

/-- Firmware update (R611 to R630). `running` is the slot whose firmware runs; `transfer` the slot of an open transfer and
`next` its next block, `lastOpAt` the last firmware descriptor; `activating` a FWU_ACTIVATE that is served: its descriptor and
slot; `pauseSlot` and `pauseAt` a service pause under way, `fallback` where it is one of R625; `pauseMs` the last pause;
`trialAt` the end of the pause of a trial (Pe), `goodSince` since when the system channel is served without a fault,
`hostConfirm` a FWU_CONFIRM received; `joinAfter` that a join follows the confirmation (R626). -/
structure Fwu where
  slots : Vector FwSlot 2
  running : Fin 2
  svnMin : W32
  transfer : Option (Fin 2)
  next : Nat
  lastOpAt : Nat
  activating : Option ((RingId × Nat) × Fin 2)
  pauseSlot : Option (Fin 2)
  pauseAt : Nat
  fallback : Bool
  pauseMs : W16
  trialAt : Option Nat
  goodSince : Option Nat
  hostConfirm : Bool
  joinAfter : Bool
  deriving DecidableEq, Repr

/-- A service pause is under way (R619). -/
def Fwu.pausing (f : Fwu) : Bool := f.pauseSlot.isSome

/-- A sag, swell or interruption under way (R488 to R490): the stamp of its begin and its extreme U in mV. -/
structure PqEvent where
  start : Nat
  extreme : Int
  deriving DecidableEq, Repr

/-- A harmonic window under way (R486): the sample at which it began, the crossings since, and whether a stream was lost or
clipped during it. -/
structure HarmWin where
  start : Nat
  count : Nat
  bad : Bool
  deriving DecidableEq, Repr

/-- A preset that waits for the next interval boundary (R504). -/
structure MtrPreset where
  ring : RingId
  num : Nat
  imp : Nat
  exp : Nat
  sel : Int
  deriving DecidableEq, Repr

/-- A metering point (R477 to R496) with its MTR_Pp registers. `cfg`, `scale` and `limit` are the settings in use, which
follow the RWS registers at an interval boundary (R481). Voltages and currents are numerators over 2^45 of a volt or an
ampere, energies over 2^94 of a millijoule, so that no part below 1 mJ is lost (R491). `n` to `crossSum` gather the present interval
(`crossings` of them with the sum of their spacings in samples); `prevI` is the last current sample before its delay, `hist` the voltage samples,
newest first; `armed` the hysteresis of R484 and `crossAt` the last crossing; `period` the length of the last cycle in samples, 0 for the
nominal one; `refreshAt` the sample at which U was last formed;
`awaitAt` the sample since when crossings are awaited. -/
structure MeterPoint where
  cfg : W32
  scale : W32
  limit : W32
  vLost : Bool
  iLost : Bool
  n : Nat
  sumV2 : Nat
  sumI2 : Nat
  sumP : Int
  vClip : Bool
  iClip : Bool
  lostSeen : Bool
  crossings : Nat
  crossSum : Nat
  prevI : Int
  hist : List Int
  armed : Bool
  crossAt : Option Nat
  awaitAt : Nat
  zcLost : Bool
  period : Nat
  refreshAt : Nat
  win : Option HarmWin
  harmCt : Nat
  harm : List (Nat × Nat)
  harmInvalid : Bool
  thdV : W16
  thdI : W16
  sag : Option PqEvent
  swell : Option PqEvent
  interruption : Option PqEvent
  ct : Nat
  vRms : W32
  iRms : W32
  power : W32
  freq : W32
  noload : Bool
  vClipLast : Bool
  iClipLast : Bool
  saturated : Bool
  lostInt : W16
  imp : Nat
  exp : Nat
  sel : Int
  presets : List MtrPreset
  deriving DecidableEq, Repr

/-- The metering unit (R477 to R506). `sample` is the index of the last sample in units of 62,500 ns of chip time, `begun` that an interval
is under way and `boundary` the index of the last interval boundary in units of 100 ms, `savedSec` the second of the last capture, `saves`
and `page` the latest completed save; `events` the events not yet delivered to the recorder (R55). -/
structure Mtr where
  points : Vector MeterPoint 8
  sample : Nat
  begun : Bool
  boundary : Nat
  savedSec : Nat
  saves : W32
  page : Bool
  skipped : W16
  events : List EvItem
  deriving DecidableEq, Repr

/-- A date and time of the calendar (R554). -/
structure Calendar where
  year : Nat
  month : Nat
  day : Nat
  hour : Nat
  min : Nat
  sec : Nat
  deriving DecidableEq, Repr

/-- A frozen set of a requester (R556): RTC_SUB, RTC_DATE and RTC_TIME, and when the freeze began. -/
structure RtcFreeze where
  sub : W32
  date : W32
  time : W32
  since : Nat
  deriving DecidableEq, Repr

/-- The real-time clock in the always-on island (R554 to R571) with the RTC registers that are not RWP. `secAt` is the crystal tick at which
the present second began, `setAt` the tick of the last write of the time; `frozen` the freeze of host software and of service firmware;
`haltFrom` the calendar before a halt (R563); `acc` the phase accumulator in units of 10^-7 tick as it stood at tick `accTick` (R566);
`dateOk` that RTC_DATE has been accepted since VALID was last cleared (R560); `syncAt` the last comparison and `syncTo` the UTC second at
which the calendar is to be set (R561); `vecDue` an alarm that fired while VIN was absent (R564); `lossDue` a latch whose invalid time the
next power-up records (R569). -/
structure Rtc where
  cal : Calendar
  secAt : Int
  setAt : Int
  halt : Bool
  haltFrom : Calendar
  frozen : Vector (Option RtcFreeze) 2
  valid : Bool
  dateOk : Bool
  badWrite : Bool
  compFault : Bool
  compLimit : Bool
  oscStop : Bool
  vbatLost : Bool
  vbatLow : Bool
  almDate : W32
  almTime : W32
  arm : Bool
  fired : Bool
  skipped : Bool
  vecDue : Bool
  lossDue : Bool
  temp : Int
  corr : Int
  acc : Int
  accTick : Int
  compAt : Nat
  vbatAt : Nat
  syncAt : Nat
  syncTo : Option Nat
  deriving DecidableEq, Repr

/-- BAR0 values that span two registers (R12): the shadows that a read of the lower-offset register latched, by the offset
of the higher one, and the writes held for lower-offset registers. -/
structure Bar where
  shadow : List (Nat × W32)
  held : List (Nat × W32)
  deriving DecidableEq, Repr

/-- An entry of the field set-up (R448). -/
structure ChanCfg where
  mode : Nat
  pulsed : Bool
  wireBreak : Bool
  wiredOr : Bool
  debounce : Nat
  safe : Nat
  deriving DecidableEq, Repr

/-- A channel of the field die (R446 to R471). `land` is the level its input stage sees; `raw`, `rawSince` and `rawCt` its raw level and
when it began; `state` the debounced state, `told` that of the last edge reported or to be reported; `cmd` the commanded state, `cmdAt` when
it last changed and `cmpFrom` from when the readback is compared with it; `on` the output stage; `readback` and `readbackAt` the readback;
`shutAt` the shutdowns of the last 10 s. -/
structure Chan where
  cfg : ChanCfg
  land : Bool
  raw : Bool
  rawSince : Nat
  rawCt : Nat
  state : Bool
  told : Bool
  cmd : Bool
  cmdAt : Nat
  cmpFrom : Nat
  on : Bool
  readback : Bool
  readbackAt : Nat
  diag : Byte
  latched : Byte
  shutdowns : W16
  shutAt : List Nat
  deriving DecidableEq, Repr

/-- A group of the field die (R468, R469): its L+ and current as last measured, the sag levels declared, and overload. -/
structure FieldGroup where
  mv : W16
  ma : W16
  sag1 : Bool
  sag2 : Bool
  overload : Bool
  deriving DecidableEq, Repr

/-- An output command (R454): its instant and the commanded state of each channel it writes. -/
structure FieldCommand where
  instant : Nat
  states : List (Nat × Bool)
  deriving DecidableEq, Repr

/-- A debounced edge on its way across the barrier (R453, R462): channel, new state, stamp, and the chip time at which
the state took effect. -/
structure FieldEdge where
  chan : ChanId
  rise : Bool
  stamp : Nat
  took : Nat
  deriving DecidableEq, Repr

/-- The field die and the field interface (R446 to R476). `refSeq` is the sequence number of the last refresh sent, `dieSeq` that of the
last one the die took as valid, and `lastValid` when; `faulted` from a barrier fault to the resume; `echoAt` the last valid echo;
`realigned` that the delay has been measured since the interruption; `applied` the output instant of the last command applied, `cmdsDropped`
the commands discarded; `sent` the output instants already commanded; `winStart` and `winCount` the window of R463, `winLost` the edges lost
in it; `changes` the changes of the own points, newest first (R382). -/
structure Fio where
  setup : Bool
  timeout : Nat
  chans : Vector Chan 32
  groups : Vector FieldGroup 4
  safe : Bool
  safeCt : Nat
  barrierOk : Bool
  faulted : Bool
  refSeq : W16
  dieSeq : W16
  refreshAt : Nat
  lastValid : Nat
  echoAt : Nat
  realigned : Bool
  delay : W16
  errors : W16
  edgesLost : W32
  winStart : Nat
  winLost : Nat
  reported : List Nat
  commands : List FieldCommand
  applied : Nat
  cmdsDropped : Nat
  sent : List (Nat × Nat)
  edges : List FieldEdge
  changes : List PointChange
  deriving DecidableEq, Repr


/-- The state of the module, with the queue of the commands that wait. -/
structure State where
  /-- the commands that wait, first in, first out -/
  pending : List Instr
  /-- the clocks -/
  clk : Clock
  /-- the fuses -/
  fuse : Fuse
  /-- reset, power and start-up -/
  sys : Sys
  /-- the time island -/
  tim : Tim
  /-- the Comet trace -/
  cmt : Cmt
  /-- the host interface -/
  hif : Hif
  /-- the configuration transaction -/
  txn : Txn
  /-- the event recorder -/
  evr : Evr
  /-- the RWS values in force -/
  rws : Rws
  /-- the RWP values -/
  rwp : Rwp
  /-- what has left the module, newest first -/
  out : List Out
  /-- the model's own counter behind free values; no register of the module -/
  free : Nat
  /-- the memories held as bytes -/
  mem : Mems
  /-- the pair -/
  pair : Pair
  /-- the DRAM partition sizes -/
  part : Partitions
  /-- the program banks and online change -/
  prg : Prg
  /-- tasks, cycles, forces and host access to the program -/
  tsk : Tsk
  /-- the lanes A, B and C -/
  lanes : Vector Lane 3
  /-- the voter -/
  vot : Vot
  /-- the destination tables -/
  tbl : Vector Table 16
  /-- the local field input and output -/
  fio : Fio
  /-- the network island -/
  net : Net
  /-- the persistent store -/
  pst : Pst
  /-- the metering unit -/
  mtr : Mtr
  /-- the real-time clock -/
  rtc : Rtc
  /-- the two-register values of BAR0 -/
  bar : Bar
  /-- the watchdog -/
  wdg : Wdg
  /-- firmware update -/
  fwu : Fwu
  deriving DecidableEq, Repr

/-- The `clk` part of the state after reset. -/
def State.resetClk : Clock :=
  { now := 0, ct := 0, frac := 0, opNs := 0 }

/-- The `fuse` part of the state after reset. -/
def State.resetFuse : Fuse :=
  { safety := false, stepping := 0x21, serial := 0, mac := 0, wdg := none, ident := none,
    pendingWdg := none, pendingIdent := none, readOk := false, fault := false }

/-- The `sys` part of the state after reset. -/
def State.resetSys : Sys :=
  { resetKind := 1, failedStep := 0, failedPart := 0, step := 1, run := .stopped, stopReason := 0, safeCause := 0,
    safeCt := 0, pcycles := 1, bistMs := 0, totalMs := 0, releaseAt := 0, inReset := false,
    phyReset := true, pairId := true, selfTestEnded := false, restart := none, vinPresent := true,
    powerLostAt := none, hotStop := false, warned := false,
    nextKind := 1, vinMv := 0, lostEvent := none, forcesLost := 0 }

/-- The `tim` part of the state after reset. -/
def State.resetTim : Tim :=
  { offset := 0, rate := 0, slew := false, source := 0, slavePort := none, refFault := false, refBadSince := none,
    quality := .free, codes := [], grandmaster := false, goodSyncs := 0, lastSyncAt := 0, holdoverAt := 0, seeded := false, base := 0, savedAt := 0,
    ports := Vector.replicate 10
      { announce := none, announceAt := 0, asCapable := false, delay := 0, syncSeq := 0, announceSeq := 0,
        pdelaySeq := 0, syncSentAt := 0, announceSentAt := 0, pdelaySentAt := 0, respDue := [] } }

/-- The `cmt` part of the state after reset. -/
def State.resetCmt : Cmt :=
  { enable := true, stopFull := false, trigArm := false, trigClass := 0xFFFF, trigPost := 4096, head := 0, tail := 0,
    lost := 0, wrapped := false, full := false, frozen := false, post := none, stage := [], recs := [], dropCount := 0,
    dropFirst := 0, stopCount := 0, stopFirst := 0, peakKib := 0, rateWindow := 0, rateNow := 0, rateLast := 0 }

/-- The `hif` part of the state after reset. -/
def State.resetHif : Hif :=
  { dmaTimeout := 10, width := 0, rate := 0, linkUp := false, d3 := false, bme := false, cause := 0, errDma := 0, errBad := 0,
    msix := Vector.replicate 64 { addr := 0, data := 0, masked := true, pending := false },
    rings := Vector.ofFn fun q : Fin 32 =>
      { sqBase := 0, cqBase := 0, enable := false, sqLog2 := 0, cqLog2 := 0, prio := 0, vector := BitVec.ofNat 5 q.val,
        coalUs := 0, coalCount := 1, cause := 0, stopped := false, overflow := false, discarded := 0, refused := 0,
        sqTail := 0, sqHead := 0, cqHead := 0, cqTail := 0, phase := true, outst := [], dead := [], used := 0, nextNum := 0, unsent := 0,
        firstUnsentAt := 0 },
    svc := [], svcStart := 0, lastRing := Vector.replicate 4 31, bulk := [] }

/-- The `txn` part of the state after reset. -/
def State.resetTxn : Txn :=
  { phase := .none, num := 0, owner := 0, objs := [], rws := [], switch := none, x := 0, w := 0, dT := 0, required := [], acked := [],
    apply := none, lastOpAt := 0, lastTxn := 0, lastStatus := 0, lastReason := 0, xReg := 0,
    saveDue := none, saved := false, applied := [] }

/-- The `evr` part of the state after reset. -/
def State.resetEvr : Evr :=
  { ready := false, next := 0, full := false, fault := false, body := false, tries := 0, retryAt := none, overflow := 0,
    dropped := 0, dropCount := 0, dropFirst := 0, queue := [], last := [] }

/-- The `rws` part of the state after reset. -/
def State.resetRws : Rws :=
  { timCtrl := 0x3E, timPtpCfg := 0x000DF8F8, timPortEn := 0x3FF, timHoldover := 60, cmtFilter := 0x3E, votCfg := 0x00014800,
    netCtrl := 0, netSeed := 0, mtrPqCfg := 0x02056E5A, mtrCfg := Vector.replicate 8 0, mtrScale := Vector.replicate 8 0,
    mtrLimit := Vector.replicate 8 100, wdgTaskEn := Vector.replicate 8 0 }

/-- The `rwp` part of the state after reset. -/
def State.resetRwp : Rwp :=
  { changed := false, taiUtc := 37, runCfg := 0, pairCfg := 0x003C0004, rtcSync := 2, rtcTrim := 0, wdgCfg := 100, mtrCalV := Vector.replicate 8 0x80000000,
    mtrCalI := Vector.replicate 8 0x80000000, mtrPhase := Vector.replicate 8 0, fwuCfg := 0 }

/-- The `out` part of the state after reset. -/
def State.resetOut : List Out :=
  []

/-- The `free` part of the state after reset. -/
def State.resetFree : Nat :=
  0

/-- The `mem` part of the state after reset. -/
def State.resetMem : Mems :=
  { dram := [], fixed := [], dramFixed := 0, scrubAt := 0, patrolAt := 0 }

/-- The `pair` part of the state after reset. -/
def State.resetPair : Pair :=
  { state := .waiting, before := .waiting, changedCt := 0, toggling := false, toggleSince := 0, backoff := none, ilkIn := false,
    ilkRunAt := 0, ilkOffAt := 0, ilkOffCt := 0, pulseSentAt := 0, pulseSeenAt := 0, up := false, failed := false, failedAt := 0,
    goodSince := 0, cellAt := 0, delay := 0, repeats := 0, txSeq := 0, rxSeen := [], sentAt := 0, unacked := [],
    partner := none, partnerSafeAt := none, clockId := none, gmOffset := 0, prefKnown := false, delayAt := 0, mark := 0, points := [], partnerLost := false, accepted := [],
    joinBar := 0, refused := false, rejoin := false, joinStep := 0, joinAt := 0, dirty := 0, lines := { all := false, lines := [] }, joinFinal := false, joinT := 0, fixed := false, departures := [], reverts := [],
    revertOff := false, healthySince := none, handover := none, partnerDown := [], splitMiss := 0, resyncs := 0, takeovers := 0,
    lastMirrored := none, crcAt := 0, startAt := 0, decided := none, diverged := [],
    frameCheckAt := 0 }

/-- The `part` part of the state after reset. -/
def State.resetPart : Partitions :=
  { tables := 0, trace := 8192 }

/-- The `prg` part of the state after reset. -/
def State.resetPrg : Prg :=
  { banks := Vector.replicate 2 { state := .empty, image := none, map := none }, fetch := 0, key := none, sw := none,
    lastX := 0, switches := 0, failed := 0, dropped := [], edges := [], entries := [] }

/-- The `tsk` part of the state after reset. -/
def State.resetTsk : Tsk :=
  { sched := none, iomap := [], anchor := 0, resp := [], leads := [],
    run := Vector.replicate 256
      { next := 0, first := 0, k0 := 0, cycle := none, lastCt := 0, lastInstant := 0, due := none, triggers := [], used := 0,
        maxUsed := 0, overruns := 0, faults := 0, lates := 0, coalesced := 0, causes := 0, causeCt := 0, stations := [],
        ends := Vector.replicate 3 none, ran := none },
    rels := [], raw := [], versions := [], image := [], forces := [], planned := [], changes := [],
    lastForceAt := Vector.replicate 32 0, writes := [], lastWriteP := Vector.replicate 32 0, floor := Vector.replicate 32 0,
    reads := [], stopAt := none, stopper := none, tails := [], resumeAt := 0 }

/-- The `lanes` part of the state after reset. -/
def State.resetLanes : Vector Lane 3 :=
  Vector.replicate 3
    { state := .selfTest, rejoins := 0, cause := 0, khz := 0, freqAt := 0, supplyFaults := 0, mv := 0, uncorr := 0, corr := 0, testMicros := 0,
      testPart := 0, testPass := false, testDone := false, abandoned := 0, step := 0, dirty := { all := false, lines := [] }, copied := 0, finalDirty := 0, exclCt := 0, outFaults := 0,
      mem := [], ctx := Vector.replicate 256 Ctx.reset, run := Vector.replicate 4 none, buffer := [], queue := [], owed := [],
      snaps := [], verdict := none, retest := none, finalDone := false, finalT := 0, resyncNs := 0, resyncAt := 0 }

/-- The `vot` part of the state after reset. -/
def State.resetVot : Vot :=
  { mode := 3, nest := Vector.replicate 4 { cls := 0, opened := false, lane := none }, recs := [], exclusions := Vector.replicate 3 0,
    mismatches := Vector.replicate 3 0, lastCt := 0, lastClass := 0, lastTask := 0, lastLane := none, ratePeak := 0,
    rateLast := 0, rateWindow := 0, rateNow := 0, injFirst := 0xFFFF, injPass := false, injRan := false, singleLeft := 259200,
    singleSince := 0, hourAt := 0, savedAt := 0, order := [], stoppedBy := none, stopPair := [], prev := [] }

/-- The `tbl` part of the state after reset. -/
def State.resetTbl : Vector Table 16 :=
  Vector.replicate 16
    { loaded := false, loads := 0, from_ := 0, k := 0, salt := 0, offset := 0, gen := 0, entries := [], poisoned := [], old := [] }

/-- The `fio` part of the state after reset. -/
def State.resetFio : Fio :=
  { setup := false, timeout := 1000,
    chans := Vector.replicate 32
      { cfg := { mode := 0, pulsed := false, wireBreak := false, wiredOr := false, debounce := 0, safe := 0 },
        land := false, raw := false, rawSince := 0, rawCt := 0, state := false, told := false, cmd := false, cmdAt := 0, cmpFrom := 0,
        on := false, readback := false, readbackAt := 0, diag := 0, latched := 0, shutdowns := 0, shutAt := [] },
    groups := Vector.replicate 4 { mv := 0, ma := 0, sag1 := false, sag2 := false, overload := false },
    safe := true, safeCt := 0, barrierOk := false, faulted := false, refSeq := 0, dieSeq := 0, refreshAt := 0, lastValid := 0, echoAt := 0,
    realigned := false, delay := 0, errors := 0, edgesLost := 0, winStart := 0, winLost := 0, reported := [],
    commands := [], applied := 0, cmdsDropped := 0, sent := [], edges := [], changes := [] }

/-- The `net` part of the state after reset. -/
def State.resetNet : Net :=
  { ports := Vector.replicate 10 { fcsErr := 0, speed := 0, full := false, up := false },
    rings := Vector.replicate 4 Ring.reset, aSecond := 0, aSent := 0 }

/-- The `pst` part of the state after reset. -/
def State.resetPst : Pst :=
  { ready := false, recovering := true, retSaving := false, pages := [], queue := [],
    journal := Vector.replicate 4 { seq := 0, group := 0, state := 0, tag := 0, first := 0, count := 0, ct := 0, bytes := 0 },
    ring := Vector.replicate 64 none, ringNext := 0, ringSeq := 0, rwpCount := Vector.replicate 64 0, rwpBad := false,
    records := 0, eccBad := 0, eccFixed := 0, shadow := [], shadowBad := false, retDone := none,
    pwd := Vector.replicate 3
      { read := List.replicate 16 0, write := List.replicate 16 0, fails := 0, until_ := none, next := 1 },
    warned := [], wornPages := [], scanAt := 0, refresh := [], refreshAt := 0 }

/-- The `mtr` part of the state after reset. -/
def State.resetMtr : Mtr :=
  { points := Vector.replicate 8
      { cfg := 0, scale := 0, limit := 100, vLost := false, iLost := false, n := 0, sumV2 := 0, sumI2 := 0, sumP := 0, vClip := false,
        iClip := false, lostSeen := false, crossings := 0, crossSum := 0, prevI := 0, hist := [], armed := false, crossAt := none,
        awaitAt := 0, zcLost := false, period := 0, refreshAt := 0, win := none, harmCt := 0, harm := [], harmInvalid := false, thdV := 0, thdI := 0,
        sag := none, swell := none, interruption := none, ct := 0, vRms := 0, iRms := 0, power := 0, freq := 0, noload := false,
        vClipLast := false, iClipLast := false, saturated := false, lostInt := 0, imp := 0, exp := 0, sel := 0, presets := [] },
    sample := 0, begun := false, boundary := 0, savedSec := 0, saves := 0, page := false, skipped := 0, events := [] }

/-- The `rtc` part of the state after reset. -/
def State.resetRtc : Rtc :=
  { cal := { year := 2000, month := 1, day := 1, hour := 0, min := 0, sec := 0 }, secAt := 0, setAt := -1, halt := false,
    haltFrom := { year := 2000, month := 1, day := 1, hour := 0, min := 0, sec := 0 }, frozen := Vector.replicate 2 none,
    valid := false, dateOk := false, badWrite := false, compFault := false, compLimit := false, oscStop := false,
    vbatLost := false, vbatLow := false, almDate := 0, almTime := 0, arm := false, fired := false, skipped := false, vecDue := false, lossDue := false,
    temp := 0, corr := 0, acc := 0, accTick := 0, compAt := 0, vbatAt := 0, syncAt := 0, syncTo := none }

/-- The `bar` part of the state after reset. -/
def State.resetBar : Bar :=
  { shadow := [], held := [] }

/-- The `wdg` part of the state after reset. -/
def State.resetWdg : Wdg :=
  { running := false, start := false, since := 0, len := 2000000, question := 0x1D2B, answer := 0, lastStep := 0, step1Count := 0,
    step1 := [], stamps := [], faults := Vector.replicate 8 0, chans := [], resets := [] }

/-- The `fwu` part of the state after reset. -/
def State.resetFwu : Fwu :=
  { slots := Vector.ofFn fun i : Fin 2 =>
      { state := if i = 0 then .confirmed else .empty, version := if i = 0 then 0x01000000 else 0, svn := 0, tries := 0,
        total := 0, good := decide (i = 0) },
    running := 0, svnMin := 0, transfer := none, next := 0, lastOpAt := 0, activating := none, pauseSlot := none,
    pauseAt := 0, fallback := false, pauseMs := 0, trialAt := none, goodSince := none, hostConfirm := false, joinAfter := false }

/-- The module at the release of PORST_N of its first power-on: step 1 of R592 is under way, the store is as first
shipped, and every register holds the reset value of its register map (R16). -/
def State.reset : State :=
  { pending := []
    clk := State.resetClk
    fuse := State.resetFuse
    sys := State.resetSys
    tim := State.resetTim
    cmt := State.resetCmt
    hif := State.resetHif
    txn := State.resetTxn
    evr := State.resetEvr
    rws := State.resetRws
    rwp := State.resetRwp
    out := State.resetOut
    free := State.resetFree
    mem := State.resetMem
    pair := State.resetPair
    part := State.resetPart
    prg := State.resetPrg
    tsk := State.resetTsk
    lanes := State.resetLanes
    vot := State.resetVot
    tbl := State.resetTbl
    fio := State.resetFio
    net := State.resetNet
    pst := State.resetPst
    mtr := State.resetMtr
    rtc := State.resetRtc
    bar := State.resetBar
    wdg := State.resetWdg
    fwu := State.resetFwu }

end Sys2Proof.Machine
end

