-- ==== Sys2Proof/Machine/Mods.lean ====
section
/-! DEFINITION. One update function per part of the state, so that an effect names the part it changes. -/

namespace Sys2Proof.Machine

/-- Change the `clk` part of the state. -/
def State.modClk (s : State) (f : Clock → Clock) : State := { s with clk := f s.clk }

/-- Change the `fuse` part of the state. -/
def State.modFuse (s : State) (f : Fuse → Fuse) : State := { s with fuse := f s.fuse }

/-- Change the `sys` part of the state. -/
def State.modSys (s : State) (f : Sys → Sys) : State := { s with sys := f s.sys }

/-- Change the `tim` part of the state. -/
def State.modTim (s : State) (f : Tim → Tim) : State := { s with tim := f s.tim }

/-- Change the `cmt` part of the state. -/
def State.modCmt (s : State) (f : Cmt → Cmt) : State := { s with cmt := f s.cmt }

/-- Change the `hif` part of the state. -/
def State.modHif (s : State) (f : Hif → Hif) : State := { s with hif := f s.hif }

/-- Change the `txn` part of the state. -/
def State.modTxn (s : State) (f : Txn → Txn) : State := { s with txn := f s.txn }

/-- Change the `evr` part of the state. -/
def State.modEvr (s : State) (f : Evr → Evr) : State := { s with evr := f s.evr }

/-- Change the `rws` part of the state. -/
def State.modRws (s : State) (f : Rws → Rws) : State := { s with rws := f s.rws }

/-- Change the `rwp` part of the state. -/
def State.modRwp (s : State) (f : Rwp → Rwp) : State := { s with rwp := f s.rwp }

/-- Change the `out` part of the state. -/
def State.modOut (s : State) (f : List Out → List Out) : State := { s with out := f s.out }

/-- Change the `free` part of the state. -/
def State.modFree (s : State) (f : Nat → Nat) : State := { s with free := f s.free }

/-- Change the `mem` part of the state. -/
def State.modMem (s : State) (f : Mems → Mems) : State := { s with mem := f s.mem }

/-- Change the `pair` part of the state. -/
def State.modPair (s : State) (f : Pair → Pair) : State := { s with pair := f s.pair }

/-- Change the `part` part of the state. -/
def State.modPart (s : State) (f : Partitions → Partitions) : State := { s with part := f s.part }

/-- Change the `prg` part of the state. -/
def State.modPrg (s : State) (f : Prg → Prg) : State := { s with prg := f s.prg }

/-- Change the `tsk` part of the state. -/
def State.modTsk (s : State) (f : Tsk → Tsk) : State := { s with tsk := f s.tsk }

/-- Change the `lanes` part of the state. -/
def State.modLanes (s : State) (f : Vector Lane 3 → Vector Lane 3) : State := { s with lanes := f s.lanes }

/-- Change the `vot` part of the state. -/
def State.modVot (s : State) (f : Vot → Vot) : State := { s with vot := f s.vot }

/-- Change the `tbl` part of the state. -/
def State.modTbl (s : State) (f : Vector Table 16 → Vector Table 16) : State := { s with tbl := f s.tbl }

/-- Change the `fio` part of the state. -/
def State.modFio (s : State) (f : Fio → Fio) : State := { s with fio := f s.fio }

/-- Change the `net` part of the state. -/
def State.modNet (s : State) (f : Net → Net) : State := { s with net := f s.net }

/-- Change the `pst` part of the state. -/
def State.modPst (s : State) (f : Pst → Pst) : State := { s with pst := f s.pst }

/-- Change the `mtr` part of the state. -/
def State.modMtr (s : State) (f : Mtr → Mtr) : State := { s with mtr := f s.mtr }

/-- Change the `rtc` part of the state. -/
def State.modRtc (s : State) (f : Rtc → Rtc) : State := { s with rtc := f s.rtc }

/-- Change the `bar` part of the state. -/
def State.modBar (s : State) (f : Bar → Bar) : State := { s with bar := f s.bar }

/-- Change the `wdg` part of the state. -/
def State.modWdg (s : State) (f : Wdg → Wdg) : State := { s with wdg := f s.wdg }

/-- Change the `fwu` part of the state. -/
def State.modFwu (s : State) (f : Fwu → Fwu) : State := { s with fwu := f s.fwu }

end Sys2Proof.Machine
end

