-- ==== Sys2Proof/Machine/Ops.lean ====
section
/-! DEFINITION. The operations every block shares: free values, MSI-X vectors, records of the Comet trace, events, and the life of a
descriptor from its service to its completion. -/

namespace Sys2Proof.Machine

/-- The next state of a command that always completes. -/
abbrev ok (s : State) : Host.Outcome State Fault Refusal := .next s

/-! ## Free values -/

/-- A free value (log entry 3) and the state with the counter of free values advanced. -/
def freeValue (s : State) : W64 × State := (Config.freeBits s.free, s.modFree (· + 1))

/-! ## Leaving the module -/

/-- Let something leave the module. -/
def emit (o : Out) (s : State) : State := s.modOut (o :: ·)

/-! ## MSI-X (R408 to R410) -/

/-- Send the message of a vector, or set its pending bit while it is masked (R410). -/
def sendMsix (v : Fin 64) (s : State) : State :=
  let e := s.hif.msix.get v
  if e.masked then s.modHif fun h => { h with msix := vmod h.msix v fun e => { e with pending := true } }
  else emit (.msix v.val e.addr e.data) s

/-- Raise event vector `32 + i`: set its cause bit, and send the message where the bit was 0 (R410). -/
def raiseBit (i : Fin 10) (s : State) : State :=
  if s.hif.cause.getLsbD i.val then s
  else sendMsix ⟨32 + i.val, by omega⟩
    (s.modHif fun h => { h with cause := h.cause ||| (1#10 <<< i.val) })

/-- Raise an event vector by its number, 32 to 41; other numbers are never raised (R408). -/
def raise (v : Nat) (s : State) : State :=
  if h : 32 ≤ v ∧ v < 42 then raiseBit ⟨v - 32, by omega⟩ s else s

/-! ## Records of the Comet trace (R73 to R84) -/

/-- The staging buffer holds 256 KiB of 32-byte records (R73, R75). -/
def stageCapacity : Nat := 8192

/-- The record types R80 records: those enabled in CMT_FILTER, and the five kinds that are always on. -/
def traceTypeOn (s : State) (typ : Nat) : Bool :=
  s.cmt.enable &&
    match typ with
    | 1 => s.rws.cmtFilter.getLsbD 1
    | 2 => s.rws.cmtFilter.getLsbD 2
    | 3 => s.rws.cmtFilter.getLsbD 3
    | 4 => s.rws.cmtFilter.getLsbD 4
    | 6 => s.rws.cmtFilter.getLsbD 5
    | _ => true

/-- The trace writer writes nothing: frozen, stopped at full, or past the last record after a trigger (R82, R84). -/
def Cmt.silent (c : Cmt) : Bool := c.frozen || c.full || (c.post == some 0)

/-- Count a generated record that is not written, in CMT_LOST and in the interval of the stop (R82). -/
def Cmt.loseStopped (ct : Nat) (c : Cmt) : Cmt :=
  { c with
    head := c.head + 1, lost := satInc c.lost 1, stopCount := c.stopCount + 1,
    stopFirst := if c.stopCount = 0 then ct else c.stopFirst }

/-- Count a record dropped because the staging buffer is full (R73). -/
def Cmt.loseFull (ct : Nat) (c : Cmt) : Cmt :=
  { c with
    head := c.head + 1, lost := satInc c.lost 1, dropCount := c.dropCount + 1,
    dropFirst := if c.dropCount = 0 then ct else c.dropFirst }

/-- Place a record in the staging buffer, with its sequence number (R76), and follow the trigger of R82. `trig` says
that the record is one the trigger may act on. -/
def Cmt.stageRec (r : TraceRec) (trig : Bool) (c : Cmt) : Cmt :=
  let st := c.stage ++ [{ r with seq := c.head }]
  { c with
    head := c.head + 1, stage := st,
    peakKib := if c.peakKib.toNat < st.length * 32 / 1024 then BitVec.ofNat 16 (st.length * 32 / 1024) else c.peakKib,
    post := match c.post with
      | some n => some (n - 1)
      | none => if c.trigArm && trig then some c.trigPost.toNat else none }

/-- The record acts on the trigger: an error record of the class in CMT_TRIGGER.CLASS, or a host mark (R82). -/
def Cmt.triggers (c : Cmt) (typ : Nat) (body : List Byte) : Bool :=
  typ == 9 || (typ == 5 && rd body 0 2 == c.trigClass.toNat)

/-- The time quality in force at chip time `ct`; the present one for an instant to come (R65). -/
def qualityAt (s : State) (ct : Nat) : Quality :=
  match (s.tim.codes.filter fun x => decide (ct < x.1)).getLast? with
  | some x => x.2
  | none => s.tim.quality

/-- Generate one record: drop it, count it or stage it. -/
def traceGen (typ flags source : Nat) (body : List Byte) (ct : Nat) (s : State) : State :=
  if traceTypeOn s typ then
    s.modCmt fun c =>
      if c.silent then c.loseStopped ct
      else if stageCapacity ≤ c.stage.length then c.loseFull ct
      else c.stageRec
        { ct := ct, typ := BitVec.ofNat 8 typ, flags := BitVec.ofNat 8 ((qualityAt s ct).code * 64 + flags),
          source := BitVec.ofNat 16 source, seq := 0, body := fitTo 16 body }
        (c.triggers typ body)
  else s

/-- The sequence number that a record generated now would be written under, all ones where none would be written
(TRACE_SEQ of R539). -/
def traceSeqNow (s : State) (typ : Nat) : W32 :=
  if traceTypeOn s typ && !s.cmt.silent && s.cmt.stage.length < stageCapacity then s.cmt.head else 0xFFFFFFFF#32

/-! ## Events (R18, R77, R537 to R543) -/

/-- The classes marked "yes" for the event recorder in the tables of R91, R301, R362, R403, R445, R476, R506, R536, R553,
R571, R587, R610 and R630. -/
def recorderClasses : List Nat :=
  [0x0C01, 0x0C02, 0x0C04, 0x0C05] ++
  [0x0101, 0x0102, 0x0103, 0x0104, 0x0105, 0x0106, 0x0107, 0x0108, 0x0109, 0x010A, 0x010B, 0x010C, 0x010D, 0x010E,
   0x010F, 0x0110, 0x0111, 0x0112, 0x0113] ++
  [0x0201, 0x0202, 0x0203, 0x0204, 0x0205, 0x0207, 0x0208, 0x0209] ++
  [0x0301, 0x0302, 0x0304, 0x0305, 0x0306, 0x0307, 0x0308, 0x030A, 0x030B, 0x030C, 0x030E, 0x030F] ++
  [0x0401, 0x0403, 0x0404, 0x0406, 0x0407, 0x0408, 0x0409, 0x040A] ++
  [0x0501, 0x0502, 0x0503, 0x0504, 0x0505, 0x0507, 0x0508] ++
  [0x0601, 0x0603, 0x0607, 0x060B, 0x060C, 0x060D, 0x060E, 0x060F] ++
  [0x0701, 0x0702, 0x0703, 0x0704, 0x0705, 0x0706, 0x0707, 0x0708, 0x0709, 0x070B, 0x070C, 0x070D] ++
  [0x0710, 0x0711, 0x0713] ++
  [0x0801, 0x0803, 0x0804, 0x0806, 0x0807, 0x0808] ++
  [0x0901, 0x0902, 0x0903, 0x0904, 0x0905, 0x0906, 0x0907, 0x0908] ++
  [0x0A01, 0x0A02, 0x0A03, 0x0A04, 0x0A05, 0x0A06, 0x0A07, 0x0A08] ++
  [0x0B02, 0x0B05, 0x0B06, 0x0B07, 0x0B08]

/-- The class is marked for the event recorder (R538). -/
def classRecorded (cls : Nat) : Bool := recorderClasses.contains cls

/-- The vector that the table of a block raises with each event of the class; 0 where the table names none (R91, R472,
R506, R536, R630). -/
def classVector (cls : Nat) : Nat :=
  if cls = 0x0C03 ∨ cls = 0x0C04 ∨ cls = 0x0C05 then 35
  else if cls / 256 = 5 ∧ classRecorded cls then 36
  else if cls / 256 = 6 ∧ classRecorded cls then 37
  else if cls / 256 = 7 ∧ cls < 0x0710 ∧ classRecorded cls then 38
  else if cls / 256 = 0x0B then 41
  else 0

/-- The item that the recorder gets for an event at chip time `ct`; it gives 0 before chip time is seeded (R539). -/
def evItem (cls source depth : Nat) (detail : W64) (ct : Nat) (seq : W32) (s : State) : EvItem :=
  { cls := BitVec.ofNat 16 cls, source := BitVec.ofNat 16 source, ct := if s.tim.seeded then ct else 0, base := s.tim.base,
    flags := BitVec.ofNat 8 ((qualityAt s ct).code + depth * 4), opSeconds := BitVec.ofNat 32 (s.clk.opNs / 1000000000),
    pcycles := s.sys.pcycles, detail := detail, traceSeq := seq, arrived := s.clk.now }

/-- The source of a record (R540). -/
def EvItem.key (e : EvItem) : Byte × W16 := (BitVec.ofNat 8 (e.cls.toNat / 256), e.source)

/-- A record goes before another that arrived at the same instant: of different sources, by ascending CLASS, then SOURCE (R541). -/
def EvItem.goesBefore (a b : EvItem) : Bool :=
  a.arrived == b.arrived && a.key != b.key && (decide (a.cls.toNat < b.cls.toNat) || (a.cls == b.cls && decide (a.source.toNat < b.source.toNat)))

/-- Put a record into the queue, given newest first, in the order of R541. -/
def EvItem.enter (i : EvItem) : List EvItem → List EvItem
  | [] => [i]
  | e :: r => if i.goesBefore e then e :: EvItem.enter i r else i :: e :: r

/-- The queue with one more record: one that is being written keeps its place. -/
def Evr.enqueue (i : EvItem) (e : Evr) : List EvItem :=
  let k := bit e.body
  e.queue.take k ++ (i.enter (e.queue.drop k).reverse).reverse

/-- Deliver an event to the recorder: counted where the recorder is full or stopped (R544, R546), discarded where its
queue holds 256 events (R543), queued otherwise (R541). -/
def Evr.deliver (i : EvItem) (e : Evr) : Evr :=
  if e.full || e.fault then { e with overflow := satInc e.overflow 1 }
  else if 256 ≤ e.queue.length then
    { e with
      dropped := satInc e.dropped 1, dropCount := e.dropCount + 1,
      dropFirst := if e.dropCount = 0 then i.ct else e.dropFirst }
  else { e with queue := e.enqueue i }

/-- Insert an event by its stamp. -/
def insertEvent (i : EvItem) : List EvItem → List EvItem
  | [] => [i]
  | e :: r => if i.ct < e.ct then i :: e :: r else e :: insertEvent i r

/-- Hand an event to the recorder. The metering unit holds its events until none with an earlier stamp can follow: those of its
samples are stamped before they are found (R55, R478). -/
def handOver (i : EvItem) (s : State) : State :=
  if i.cls.toNat / 256 = 6 then s.modMtr fun m => { m with events := insertEvent i m.events } else s.modEvr (Evr.deliver i)

/-- An event that happened at chip time `ct`: the error record of the trace, the recorder where the class is marked for
it, and the vector of the class. -/
def eventAt (cls source depth : Nat) (detail : W64) (ct : Nat) (s : State) : State :=
  let seq := traceSeqNow s 5
  let s1 := traceGen 5 0 source (fields [(2, cls), (1, depth), (1, 0), (8, detail.toNat)]) ct s
  let s2 :=
    if classRecorded cls then
      handOver (evItem cls source depth detail ct seq s) s1
    else s1
  raise (classVector cls) s2

/-- An event of a class that names no source, now (R77, R539). -/
def event (cls : Nat) (detail : W64) (s : State) : State := eventAt cls 0xFFFF 0 detail s.clk.ct s

/-- An event that the spec records without giving its class: the class is a free value, and no vector is raised (R212, R220,
R250, R261). -/
def eventFree (detail : W64) (s : State) : State :=
  let f := freeValue s
  let cls := f.1.toNat % 65536
  let seq := traceSeqNow f.2 5
  let s1 := traceGen 5 0 0xFFFF (fields [(2, cls), (1, 0), (1, 0), (8, detail.toNat)]) s.clk.ct f.2
  s1.modEvr (Evr.deliver (evItem cls 0xFFFF 0 detail s.clk.ct seq s))

/-- The SOURCE of an event of a lane, with no engine (R77). -/
def laneSource (l : LaneId) : Nat := l.val * 256 + 0xFF

/-! ## Roles -/

/-- The module is a pair member (R363). -/
def pairMember (s : State) : Bool := s.rwp.pairCfg.getLsbD 0

/-- The module exercises authority: stand-alone, or active in its pair (R363, R364). -/
def hasAuthority (s : State) : Bool :=
  !pairMember s || s.pair.state == .activeSynced || s.pair.state == .activeAlone

/-- The module runs a program (R62, R63, R217). -/
def runsProgram (s : State) : Bool := s.sys.run == .running

/-! ## Descriptors at work (R421, R425, R428) -/

/-- The status codes of R423. -/
abbrev stOk : Byte := 0x00
/-- OVERRIDDEN (R423). -/
abbrev stOverridden : Byte := 0x01
/-- ADMIT_REFUSED (R423). -/
abbrev stAdmitRefused : Byte := 0x02
/-- NOT_ACTIVE (R423). -/
abbrev stNotActive : Byte := 0x03
/-- BUSY (R423). -/
abbrev stBusy : Byte := 0x04
/-- REFUSED (R423). -/
abbrev stRefused : Byte := 0x05
/-- BAD_DESCRIPTOR (R423). -/
abbrev stBadDescriptor : Byte := 0x06
/-- BAD_STATE (R423). -/
abbrev stBadState : Byte := 0x07
/-- NOT_FOUND (R423). -/
abbrev stNotFound : Byte := 0x08
/-- DMA_ERROR (R423). -/
abbrev stDmaError : Byte := 0x09
/-- MEDIA_ERROR (R423). -/
abbrev stMediaError : Byte := 0x0A
/-- TIMEOUT (R423). -/
abbrev stTimeout : Byte := 0x0B
/-- ABORTED (R423). -/
abbrev stAborted : Byte := 0x0C
/-- DEADLINE_LOST (R423). -/
abbrev stDeadlineLost : Byte := 0x0D
/-- ACCESS_DENIED (R423). -/
abbrev stAccessDenied : Byte := 0x0E
/-- SAFE_TALK (R423). -/
abbrev stSafeTalk : Byte := 0x0F
/-- TXN_CONFLICT (R423). -/
abbrev stTxnConflict : Byte := 0x10
/-- NO_SPACE (R423). -/
abbrev stNoSpace : Byte := 0x11

/-- Ended with OK and a result, empty for none. -/
def doneOk (result : List Byte) : Done := { status := stOk, detail := 0, result := result }

/-- Ended with a status and a DETAIL, without a result. -/
def doneWith (status : Byte) (detail : Nat) : Done :=
  { status := status, detail := BitVec.ofNat 32 detail, result := [] }

/-- REFUSED with the reason code, task, ring or lane, sub-reason and staged kind of R423. -/
def doneRefused (reason who sub kind : Nat) : Done :=
  doneWith stRefused (reason + who * 256 + sub * 65536 + kind * 16777216)

/-- Change the registers of one ring pair. -/
def modRing (q : RingId) (f : RingPair → RingPair) (s : State) : State :=
  s.modHif fun h => { h with rings := vmod h.rings q f }

/-- The descriptor completes late (R428): admitted with a deadline that has passed. -/
def Outst.late (e : Outst) (ct : Nat) : Bool := e.admitted && e.desc.deadline != 0 && decide (e.desc.deadline < ct)

/-- The status of a descriptor that completes at `ct` (R428). -/
def Outst.finalStatus (e : Outst) (ct : Nat) (d : Done) : Done :=
  if e.late ct && (d.status == stOk || d.status == stOverridden) then { d with status := stDeadlineLost } else d

/-- Mark complete, from the oldest on, every descriptor whose work has ended and whose earlier ones are complete (R421);
also the descriptors that complete now. -/
def settleGo (ct : Nat) : List Outst → List Outst × List Outst
  | [] => ([], [])
  | e :: es =>
    match e.doneCt, e.ended with
    | some _, _ => let r := settleGo ct es; (e :: r.1, r.2)
    | none, none => (e :: es, [])
    | none, some d =>
      let e' := { e with doneCt := some ct, ended := some (e.finalStatus ct d) }
      let r := settleGo ct es
      (e' :: r.1, e' :: r.2)

/-- Record class 0x0409 for each descriptor that completes after its deadline (R428). -/
def recordLate (q : RingId) (ct : Nat) : List Outst → State → State
  | [], s => s
  | e :: es, s =>
    recordLate q ct es
      (if e.late ct then
        event 0x0409 (det [(1, q.val), (1, e.desc.opcode.toNat), (4, (ct - e.desc.deadline) / 1000)]) s
      else s)

/-- The completions of a ring pair that are complete and not posted (R422). -/
def RingPair.held (r : RingPair) : Nat := (r.outst.filter fun e => e.doneCt.isSome).length

/-- How many of the descriptors that complete now end with a status. -/
def countStatus (st : Byte) (es : List Outst) : Nat := (es.filter fun e => (e.ended.map fun d => d.status == st) == some true).length

/-- The counts of the descriptors that complete now (HIF_ERR.BAD_DESC, HIF_RPq_COUNT.REFUSED). -/
def countEnds (q : RingId) (es : List Outst) (s : State) : State :=
  modRing q (fun r => { r with refused := satInc r.refused (countStatus stAdmitRefused es) })
    (s.modHif fun h => { h with errBad := satInc h.errBad (countStatus stBadDescriptor es) })

/-- Complete what can be completed of a ring pair; the 256th completion held sets OVERFLOW (R421, R422). -/
def settle (q : RingId) (s : State) : State :=
  let r := s.hif.rings.get q
  let g := settleGo s.clk.ct r.outst
  let s1 := recordLate q s.clk.ct g.2 (countEnds q g.2 (modRing q (fun r => { r with outst := g.1 }) s))
  if 256 ≤ (g.1.filter fun e => e.doneCt.isSome).length && !r.overflow then
    raise 32 (event 0x0402 (det [(1, q.val)]) (modRing q (fun r => { r with overflow := true }) s1))
  else s1

/-- Take a descriptor out of the order of the service cores; the next one begins now (R425). -/
def leaveService (q : RingId) (num : Nat) (s : State) : State :=
  match s.hif.svc with
  | (q', n') :: rest =>
    if q' = q ∧ n' = num then s.modHif fun h => { h with svc := rest, svcStart := s.clk.ct }
    else s.modHif fun h => { h with svc := h.svc.filter fun x => decide (x ≠ (q, num)) }
  | [] => s

/-- The descriptors of a ring pair whose completions are not posted, and those whose work goes on after a reset. -/
def RingPair.work (r : RingPair) : List Outst := r.outst ++ r.dead

/-- Change descriptor `num`. -/
def RingPair.modWork (num : Nat) (f : Outst → Outst) (r : RingPair) : RingPair :=
  { r with outst := updFirst (fun e : Outst => e.num == num) f r.outst, dead := updFirst (fun e : Outst => e.num == num) f r.dead }

/-- Enter how the work of descriptor `num` ended, where it has not ended yet. -/
def RingPair.setEnded (num : Nat) (d : Done) (r : RingPair) : RingPair :=
  let l := updFirst (fun e : Outst => e.num == num && e.ended.isNone)
    (fun e => { e with ended := some d, waiting := false }) r.outst
  { r with outst := l, dead := r.dead.filter fun e => e.num != num }

/-- Enter that descriptor `num` waits, with its bound. -/
def RingPair.setWaiting (num : Nat) (bound : Option Nat) (r : RingPair) : RingPair :=
  r.modWork num fun e => { e with waiting := true, bound := bound }

/-- The work of a descriptor has ended. -/
def endDesc (q : RingId) (num : Nat) (d : Done) (s : State) : State :=
  settle q (leaveService q num
    (modRing q (RingPair.setEnded num d) s))

/-- The descriptor from now on waits for an instant or an outside party, with the bound its chapter fixes (R425). -/
def waitDesc (q : RingId) (num : Nat) (bound : Option Nat) (s : State) : State :=
  modRing q (RingPair.setWaiting num bound) s

/-- The descriptor numbered `num` of a ring pair. -/
def findDesc (q : RingId) (num : Nat) (s : State) : Option Outst :=
  (s.hif.rings.get q).work.find? fun e => e.num == num

/-- The opcodes handled on the fetch path (R425): RUN, STOP, TASK_TRIGGER, VAR_WRITE, FORCE_SET, FORCE_CLEAR,
FORCE_CLEAR_ALL, NET_A_SEND, NET_A_RECV, NET_RAW_RECV and TXN_APPLY. -/
def fetchPathOps : List Nat := [0x28, 0x29, 0x2A, 0x31, 0x34, 0x35, 0x37, 0x41, 0x42, 0x47, 0x13]

/-- The opcodes of authority (R364); the writes of shared regions are among them. -/
def authorityOps : List Nat :=
  [0x10, 0x11, 0x12, 0x13, 0x14, 0x20, 0x21, 0x22, 0x23, 0x25, 0x26, 0x28, 0x29, 0x2A, 0x2C, 0x2D, 0x2E, 0x31, 0x34, 0x35, 0x37,
   0x41, 0x43, 0x46]

/-- The descriptor exercises authority over the pair (R364). -/
def Desc.authority (d : Desc) : Bool := authorityOps.contains d.opcode.toNat

/-- A hand-over holds every new authority descriptor (R396). -/
def authorityHeld (s : State) (e : Outst) : Bool :=
  match s.pair.handover with
  | some h => e.desc.authority && decide (h.since ≤ e.fetchCt)
  | none => false

/-- The opcode is handled on the fetch path. -/
def onFetchPath (op : Nat) : Bool := fetchPathOps.contains op

/-- SAFE_TALK without its firmware part (R596). -/
def noFirmware (s : State) : Bool := s.sys.run == .safeTalk && decide (2 ≤ s.sys.failedStep) && decide (s.sys.failedStep ≤ 4)

/-- Service firmware serves descriptors: it runs, and no service pause is under way (R596, R620). -/
def servesDescs (s : State) : Bool := !noFirmware s && !s.fwu.pausing

/-- The descriptor of opcode `op` that ring pair `q` has ready for work: not ended, not waiting, its fence clear, and,
for the service cores, first in their order. -/
def readyDesc (q : RingId) (op : Nat) (s : State) : Option Outst :=
  (s.hif.rings.get q).work.find? fun e =>
    e.desc.opcode.toNat == op && e.ended.isNone && !e.waiting && !e.fenced && !authorityHeld s e &&
      (onFetchPath op || (servesDescs s && s.hif.svc.head? == some (q, e.num)))

/-- How the work on a descriptor goes on: it ends, or it waits with a bound. -/
inductive Work
  | finish (d : Done)
  | wait (bound : Option Nat)
  deriving DecidableEq, Repr

/-- A descriptor of authority on a module that has none, or has it no more (R364). -/
def withoutAuthority (s : State) (e : Outst) : Bool := e.desc.authority && !hasAuthority s

/-- Serve the ready descriptor of an opcode by `f`, or with NOT_ACTIVE (R364); with none ready nothing happens. -/
def serve (q : RingId) (op : Nat) (s : State) (f : Outst → State → State × Work) : State :=
  match readyDesc q op s with
  | none => s
  | some e =>
    if withoutAuthority s e then endDesc q e.num (doneWith stNotActive 0) s
    else
      match f e s with
      | (s1, .finish d) => endDesc q e.num d s1
      | (s1, .wait b) => waitDesc q e.num b s1

/-! ## The buffer of a descriptor -/

/-- BUF is an offset in the bulk partition (R417). -/
def Desc.bulk (d : Desc) : Bool := d.flags.getLsbD 2

/-- The offset in DRAM at which the bulk partition starts (R40). -/
def bulkBase (s : State) : Nat := (512 + s.part.tables + s.part.trace) * 1048576

/-- The bytes of a descriptor's buffer: from the bulk partition with BULK, else what the DMA read returned (R406). -/
def bufRead (d : Desc) (dma : List Byte) (s : State) : List Byte :=
  if d.bulk then memRead s.mem.dram (bulkBase s + d.buf) d.len else fitTo d.len dma

/-- Write bytes into a descriptor's buffer, from byte `off` of it. -/
def bufWrite (d : Desc) (off : Nat) (bytes : List Byte) (s : State) : State :=
  if bytes.isEmpty then s
  else if d.bulk then s.modMem fun m => { m with dram := memWrite m.dram (bulkBase s + d.buf + off) bytes }
  else emit (.dmaWrite (d.buf + off) bytes) s

/-- The little-endian PARAM field at descriptor byte `off` (24 to 63). -/
def Desc.par (d : Desc) (off n : Nat) : Nat := rd d.param (off - 24) n

/-- The safety option in use: after a fuse fault that of the -ES (R5, R595). -/
def safetyOption (s : State) : Bool := s.fuse.safety || s.fuse.fault

/-- The registers with RWP fields have changed and await their ring record (R519). -/
def rwpSet (f : Rwp → Rwp) (s : State) : State := s.modRwp fun r => { f r with changed := true }

end Sys2Proof.Machine
end

