-- ==== Sys2Proof/Machine/Meter.lean ====
section
/-! DEFINITION. The metering unit: samples, crossings, harmonic windows, measurement intervals and energy (R477 to R496). -/

namespace Sys2Proof.Machine

/-! ## Settings -/

/-- The mode of a point in use (R481). -/
def MeterPoint.mode (p : MeterPoint) : Nat := (p.cfg &&& 7#32).toNat

/-- The point measures. -/
def MeterPoint.on (p : MeterPoint) : Bool := p.mode != 0

/-- The point runs in an AC mode. -/
def MeterPoint.ac (p : MeterPoint) : Bool := decide (2 ≤ p.mode) && decide (p.mode ≤ 4)

/-- The nominal frequency of an AC mode in mHz. -/
def nominalMHz (mode : Nat) : Nat := if mode = 2 then 16700 else if mode = 3 then 50000 else 60000

/-- The fundamental cycles of a harmonic window (R486). -/
def windowCycles (mode : Nat) : Nat := if mode = 2 then 4 else if mode = 3 then 10 else 12

/-- V_FS of a point in use. -/
def MeterPoint.vFs (p : MeterPoint) : Nat := (p.scale >>> 16).toNat
/-- I_FS of a point in use. -/
def MeterPoint.iFs (p : MeterPoint) : Nat := (p.scale &&& 0xFFFF#32).toNat
/-- SEL_ABS of a point in use. -/
def MeterPoint.selAbs (p : MeterPoint) : Bool := p.cfg.getLsbD 3
/-- NOLOAD_W of a point in use. -/
def MeterPoint.noloadW (p : MeterPoint) : Nat := (p.cfg >>> 16).toNat
/-- UNOM of a point in use, in mV. -/
def MeterPoint.unom (p : MeterPoint) : Nat := (p.limit >>> 16).toNat * 1000

/-- Change one metering point. -/
def modPoint (i : Fin 8) (f : MeterPoint → MeterPoint) (s : State) : State :=
  s.modMtr fun m => { m with points := vmod m.points i f }

/-- A metering point. -/
def pointOf (s : State) (i : Fin 8) : MeterPoint := s.mtr.points.get i

/-! ## Samples (R478, R479) -/

/-- A sample scaled by its calibration register and its full scale, over 2^45. -/
def scaled (x : Int) (cal : W32) (fs : Nat) : Int :=
  (x * ((cal >>> 16).toNat : Int) + (cal.extractLsb' 0 16).toInt * 1073741824) * fs

/-- The decimated sample reaches 0.995 of full scale (R480). -/
def clips (x : Int) : Bool := decide (995 * 1073741824 ≤ x.natAbs * 1000)

/-- The chip time of a sample, less the group delay of R478. -/
def sampleCt (k : Nat) : Nat := k * 62500 - 500000

/-- The spacing of two crossings lies within ±15 % of the nominal period (R485). -/
def spacingOk (mode spacing : Nat) : Bool :=
  decide (((spacing * nominalMHz mode : Nat) - 16000000 : Int).natAbs * 100 ≤ 15 * 16000000)

/-- The fundamental frequency of a window of `n` cycles over `len` samples lies within ±15 % of nominal (R487). -/
def fundamentalOk (mode n len : Nat) : Bool :=
  decide (((n * 16000000 : Nat) - (nominalMHz mode * len : Nat) : Int).natAbs * 100 ≤ 15 * nominalMHz mode * len)

/-- The integer square root of a number below 4^`n`. -/
def isqrt : Nat → Nat → Nat
  | 0, _ => 0
  | n + 1, x =>
    let r := 2 * isqrt n (x / 4)
    if (r + 1) * (r + 1) ≤ x then r + 1 else r

/-- `n` pairs of free values, for the harmonics of a window. -/
def freePairs : Nat → State → List (Nat × Nat) × State
  | 0, s => ([], s)
  | n + 1, s =>
    let a := freeValue s
    let b := freeValue a.2
    let r := freePairs n b.2
    ((a.1.toNat % 4294967296, b.1.toNat % 4294967296) :: r.1, r.2)

/-- THD in 0.01 % from the subgroups of orders 1 to 63 (R486); a free value where the first is 0. -/
def thdOf (free : W64) : List Nat → W16
  | [] => 0
  | h :: r =>
    if h = 0 then free.setWidth 16
    else BitVec.ofNat 16 (min 65535 (isqrt 96 ((r.map fun x => x * x).sum * 100000000) / h))

/-- A harmonic window ends at sample `k` (R486, R487): the harmonics of a valid one are free values, because the spec does
not give its interpolation. -/
def endWindow (i : Fin 8) (k : Nat) (w : HarmWin) (s : State) : State :=
  let p := pointOf s i
  if fundamentalOk p.mode w.count (k - w.start) && !w.bad && !p.zcLost then
    let h := freePairs 63 s
    let f := freeValue h.2
    modPoint i (fun p =>
      { p with
        harm := h.1, harmCt := sampleCt k, harmInvalid := false, thdV := thdOf f.1 (h.1.map (·.1)),
        thdI := thdOf f.1 (h.1.map (·.2)) }) f.2
  else modPoint i (fun p => { p with harmInvalid := true }) s

/-- A positive-going crossing at sample `k` (R484 to R486). -/
def takeCrossing (i : Fin 8) (k : Nat) (s : State) : State :=
  let p := pointOf s i
  let gap := p.crossAt.map fun c => k - c
  let good := (gap.map fun g => spacingOk p.mode g) == some true
  let s1 := modPoint i (fun p =>
    { p with
      armed := false, crossAt := some k, awaitAt := k, crossings := p.crossings + bit gap.isSome,
      crossSum := p.crossSum + gap.getD 0, period := if good then gap.getD 0 else p.period }) s
  let s2 :=
    if p.zcLost && good then
      eventAt 0x0604 0xFFFF 0 (det [(1, i.val)]) (sampleCt k) (modPoint i (fun p => { p with zcLost := false }) s1)
    else s1
  let fresh : HarmWin := { start := k, count := 0, bad := p.vLost || p.iLost }
  match p.win with
  | none => if (pointOf s2 i).zcLost then s2 else modPoint i (fun p => { p with win := some fresh }) s2
  | some w =>
    let w1 := { w with count := w.count + 1 }
    if windowCycles p.mode ≤ w1.count then
      modPoint i (fun p => { p with win := some fresh }) (endWindow i k w1 s2)
    else modPoint i (fun p => { p with win := some w1 }) s2

/-- The samples of one point at index `k`. -/
def samplePoint (i : Fin 8) (k : Nat) (xv xi : Int) (s : State) : State :=
  let p := pointOf s i
  if p.on then
    let v := scaled xv (s.rwp.mtrCalV.get i) p.vFs
    let c0 := scaled xi (s.rwp.mtrCalI.get i) p.iFs
    let c := if p.cfg.getLsbD 4 then -c0 else c0
    let phase := ((s.rwp.mtrPhase.get i).extractLsb' 0 9).toInt
    let d := if phase = 0 then c else Config.interpolated s.free phase p.prevI c
    let s0 := if phase = 0 then s else s.modFree (· + 1)
    let inIv := s.mtr.begun
    let bad := clips xv || clips xi
    let s1 := modPoint i (fun p =>
      { p with
        n := p.n + bit inIv, sumV2 := if inIv then p.sumV2 + v.natAbs * v.natAbs else p.sumV2,
        sumI2 := if inIv then p.sumI2 + d.natAbs * d.natAbs else p.sumI2, sumP := if inIv then p.sumP + v * d else p.sumP,
        vClip := p.vClip || clips xv, iClip := p.iClip || clips xi, lostSeen := p.lostSeen || p.vLost || p.iLost, prevI := c,
        hist := (v :: p.hist).take 1200,
        win := p.win.map fun w => { w with bad := w.bad || bad || p.vLost || p.iLost },
        armed := p.armed || decide (v * 100 ≤ -((p.vFs * 35184372088832 * 2 : Nat) : Int)) }) s0
    if p.ac && (pointOf s1 i).armed && decide (0 ≤ v) then takeCrossing i k s1 else s1
  else s

/-- METER_SAMPLE (R478), at chip times that are multiples of 62,500 ns, once MCLK_M runs. -/
def execMeterSample (x : Vector Int 16) (s : State) : Host.Outcome State Fault Refusal :=
  let k := s.clk.ct / 62500
  if k ≠ s.mtr.sample ∧ 6 ≤ s.sys.step ∧ !s.sys.inReset then
    ok ((allFin 8).foldl (fun s i => samplePoint i k (x.get (finOr (2 * i.val))) (x.get (finOr (2 * i.val + 1))) s)
      (s.modMtr fun m => { m with sample := k }))
  else ok s

/-! ## Energy (R491 to R496) -/

/-- One millijoule in the unit of the accumulators. -/
def mjUnit : Nat := 2 ^ 94

/-- The limit of IMPORT and EXPORT. -/
def accTop : Nat := 18446744073709551615 * mjUnit

/-- The limit of SEL. -/
def selTop : Int := 9223372036854775807 * mjUnit

/-- IMPORT and EXPORT in mJ. -/
def MeterPoint.impMj (p : MeterPoint) : Nat := p.imp / mjUnit
/-- See `MeterPoint.impMj`. -/
def MeterPoint.expMj (p : MeterPoint) : Nat := p.exp / mjUnit
/-- SEL in mJ. -/
def MeterPoint.selMj (p : MeterPoint) : Int := p.sel / mjUnit
/-- ROLL (R495). -/
def MeterPoint.roll (p : MeterPoint) : W32 := BitVec.ofInt 32 (p.selMj / 1000)

/-- An accumulator reached its limit: class 0x060E and the status bit (R493). -/
def saturate (i : Fin 8) (which : Nat) (hit : Bool) (s : State) : State :=
  if hit then event 0x060E (det [(1, i.val), (1, which)]) (modPoint i (fun p => { p with saturated := true }) s) else s

/-- Add the energy of an interval (R493); a SEL that has reached its limit stays there. -/
def addEnergy (i : Fin 8) (e : Int) (s : State) : State :=
  let p := pointOf s i
  let a := if 0 < e then min accTop (p.imp + e.natAbs) else p.imp
  let b := if e < 0 then min accTop (p.exp + e.natAbs) else p.exp
  let c := if p.sel.natAbs = selTop.natAbs then p.sel else clampInt (-selTop) selTop (p.sel + if p.selAbs then (e.natAbs : Int) else e)
  let s1 := modPoint i (fun p => { p with imp := a, exp := b, sel := c }) s
  saturate i 2 (decide (c.natAbs = selTop.natAbs) && decide (p.sel.natAbs ≠ selTop.natAbs))
    (saturate i 1 (decide (b = accTop) && decide (p.exp ≠ accTop))
      (saturate i 0 (decide (a = accTop) && decide (p.imp ≠ accTop)) s1))

/-- The energy of the interval of a point is discarded, or added (R492 to R494). -/
def closeEnergy (i : Fin 8) (s : State) : State :=
  let p := pointOf s i
  if p.lostSeen || p.vLost || p.iLost then
    modPoint i (fun p => { p with noload := false, lostInt := satInc p.lostInt 1 }) s
  else if p.sumP.natAbs * 16 < p.noloadW * p.n * mjUnit then modPoint i (fun p => { p with noload := true }) s
  else addEnergy i p.sumP (modPoint i (fun p => { p with noload := false }) s)

/-- The values published at the end of an interval (R482); FREQ is a free value where the interval holds no crossing with a
spacing. -/
def publish (i : Fin 8) (ct : Nat) (s : State) : State :=
  let p := pointOf s i
  let f := freeValue s
  let s1 := if p.ac && !p.zcLost && p.crossSum == 0 then f.2 else s
  modPoint i (fun p =>
    { p with
      ct := ct, vClipLast := p.vClip, iClipLast := p.iClip,
      vRms := BitVec.ofNat 32 (isqrt 128 (p.sumV2 * 1000000 / p.n) / 35184372088832),
      iRms := BitVec.ofNat 32 (isqrt 128 (p.sumI2 * 1000000 / p.n) / 35184372088832),
      power := BitVec.ofInt 32 (Int.tdiv p.sumP (p.n * 1237940039285380274899124224)),
      freq := if !p.ac || p.zcLost then 0 else if p.crossSum = 0 then f.1.setWidth 32
        else BitVec.ofNat 32 (p.crossings * 16000000 / p.crossSum) }) s1

/-- A preset takes effect (R504), with class 0x060B. -/
def applyPreset (i : Fin 8) (x : MtrPreset) (s : State) : State :=
  let s1 := modPoint i (fun p => { p with imp := x.imp * mjUnit, exp := x.exp * mjUnit, sel := x.sel * mjUnit }) s
  endDesc x.ring x.num (doneOk []) (event 0x060B (det [(1, i.val)]) s1)

/-- The presets that wait take effect, in the order of their descriptors. -/
def takePresets (i : Fin 8) (s : State) : State :=
  (pointOf s i).presets.foldl (fun s x => applyPreset i x s) (modPoint i (fun p => { p with presets := [] }) s)

/-- The point with nothing of its mode measured yet. -/
def MeterPoint.fresh (k : Nat) (p : MeterPoint) : MeterPoint :=
  { p with
    hist := [], armed := false, crossAt := none, awaitAt := k, zcLost := false, period := 0, refreshAt := k, win := none, harm := [],
    harmCt := 0, harmInvalid := false, thdV := 0, thdI := 0, sag := none, swell := none, interruption := none, vRms := 0, iRms := 0, power := 0,
    freq := 0, noload := false, vClipLast := false, iClipLast := false }

/-- The settings in force are taken into use at an interval boundary (R481); a change of SEL_ABS clears SEL (R496). -/
def takeSettings (i : Fin 8) (s : State) : State :=
  let old := pointOf s i
  let s1 := modPoint i (fun p => { p with cfg := s.rws.mtrCfg.get i, scale := s.rws.mtrScale.get i, limit := s.rws.mtrLimit.get i }) s
  let s2 := if old.mode = (pointOf s1 i).mode then s1 else modPoint i (MeterPoint.fresh s.mtr.sample) s1
  if old.selAbs = (pointOf s2 i).selAbs then s2
  else event 0x060F (det [(1, i.val), (1, bit (pointOf s2 i).selAbs)]) (modPoint i (fun p => { p with sel := 0 }) s2)

/-- An interval of a point ends at chip time `ct`. -/
def closePoint (ct : Nat) (i : Fin 8) (s : State) : State :=
  let p := pointOf s i
  let s1 := if p.on && decide (0 < p.n) then closeEnergy i (publish i ct s) else s
  modPoint i (fun p =>
    { p with n := 0, sumV2 := 0, sumI2 := 0, sumP := 0, vClip := false, iClip := false, lostSeen := false, crossings := 0, crossSum := 0 })
    (takePresets i s1)

/-- MEASUREMENT_INTERVAL_END (R482): at each chip time that is a multiple of 100 ms. -/
def execMeasurementIntervalEnd (s : State) : Host.Outcome State Fault Refusal :=
  let b := s.clk.ct / 100000000
  if b = s.mtr.boundary ∨ s.sys.inReset then ok s
  else
    let began := s.mtr.begun
    let s1 := (allFin 8).foldl (fun s i => takeSettings i (if began then closePoint (b * 100000000) i s else takePresets i s)) s
    ok (s1.modMtr fun m => { m with begun := true, boundary := b })

/-- The events of the metering unit stamped at or before `ct` go to the recorder, in the order of their stamps (R55). -/
def deliverMeter (ct : Nat) (s : State) : State :=
  (s.modMtr fun m => { m with events := m.events.filter fun e => decide (ct < e.ct) }).modEvr fun e =>
    (s.mtr.events.filter fun x => decide (x.ct ≤ ct)).foldl (fun e x => e.deliver x) e

/-- The events of the metering unit that no later one can precede: the samples of the last 62.5 µs are stamped 500 µs earlier. -/
def meterTick (s : State) : State :=
  if s.mtr.events.any fun e => decide (e.ct + 562500 ≤ s.clk.ct) then deliverMeter (s.clk.ct - 562500) s else s

/-- Chip time is stepped to `target` (R483): the present interval ends at the step, and the next one begins at the next
boundary of the new chip time. -/
def stepMeter (target : Nat) (s : State) : State :=
  let s0 := if s.mtr.begun then (allFin 8).foldl (fun s i => closePoint s.clk.ct i s) s else s
  let s1 := deliverMeter s0.clk.ct s0
  let k := target / 62500
  s1.modMtr fun m =>
    { m with
      begun := false, boundary := target / 100000000, sample := k, savedSec := target / 1000000000,
      points := m.points.map fun p => { p with crossAt := none, awaitAt := k, refreshAt := k, win := none } }

/-! ## Streams and crossings lost (R480, R485, R490) -/

/-- The class of the end of a sag, swell or interruption (1, 2, 3). -/
def pqEndClass (kind : Nat) : Nat := 0x0604 + kind

/-- A voltage as a percentage of UNOM; a free value where UNOM is 0. -/
def pctOf (u : Int) (unom : Nat) (free : W64) : Nat :=
  if unom = 0 then free.toNat % 256 else min 255 (u * 100 / unom).toNat

/-- Record the end of an event of a point at chip time `ct` (R489, R490). -/
def endPq (i : Fin 8) (kind ct : Nat) (cut : Bool) (e : PqEvent) (s : State) : State :=
  let f := freeValue s
  eventAt (pqEndClass kind) 0xFFFF 0
    (det [(1, i.val), (1, pctOf e.extreme (pointOf s i).unom f.1), (1, bit cut), (1, 0), (4, (ct - e.start) / 1000)]) ct
    (if (pointOf s i).unom = 0 then f.2 else s)

/-- The open event of a kind. -/
def MeterPoint.pq (p : MeterPoint) (kind : Nat) : Option PqEvent :=
  if kind = 1 then p.sag else if kind = 2 then p.swell else p.interruption

/-- Set the open event of a kind. -/
def MeterPoint.setPq (kind : Nat) (e : Option PqEvent) (p : MeterPoint) : MeterPoint :=
  if kind = 1 then { p with sag := e } else if kind = 2 then { p with swell := e } else { p with interruption := e }

/-- Every open event of a point is cut short (R490). -/
def cutShort (i : Fin 8) (s : State) : State :=
  [1, 2, 3].foldl (fun s k =>
    match (pointOf s i).pq k with
    | some e => endPq i k (s.clk.ct - 500000) true e (modPoint i (MeterPoint.setPq k none) s)
    | none => s) s

/-- The stream of a channel is lost. -/
def MeterPoint.lost (p : MeterPoint) (cur : Bool) : Bool := if cur then p.iLost else p.vLost

/-- STREAM_LOST (R480, R490): no change of level for 250 µs. -/
def execStreamLost (c : Lasting (Fin 16)) (s : State) : Host.Outcome State Fault Refusal :=
  let i : Fin 8 := finOr (c.value.val / 2)
  let cur := decide (c.value.val % 2 = 1)
  if (pointOf s i).lost cur || decide (c.us < 250) then ok s
  else
    let s1 := modPoint i (fun p =>
      { p with vLost := p.vLost || !cur, iLost := p.iLost || cur, lostSeen := true, win := p.win.map fun w => { w with bad := true } }) s
    ok ((if cur then id else cutShort i) (event 0x0601 (det [(1, c.value.val)]) s1))

/-- STREAM_RESTORED (R480): changes of level in every 250 µs for 10 ms. -/
def execStreamRestored (c : Lasting (Fin 16)) (s : State) : Host.Outcome State Fault Refusal :=
  let i : Fin 8 := finOr (c.value.val / 2)
  let cur := decide (c.value.val % 2 = 1)
  if (pointOf s i).lost cur && decide (10000 ≤ c.us) then
    ok (event 0x0602 (det [(1, c.value.val)])
      (modPoint i (fun p => { p with vLost := p.vLost && cur, iLost := p.iLost && !cur }) s))
  else ok s

/-- ZC_LOST (R485): no crossing for ZC_TIMEOUT milliseconds. -/
def execZcLost (i : Fin 8) (s : State) : Host.Outcome State Fault Refusal :=
  let p := pointOf s i
  if p.ac && !p.zcLost && decide (p.awaitAt + (p.limit &&& 0xFFFF#32).toNat * 16 ≤ s.mtr.sample) then
    ok (event 0x0603 (det [(1, i.val)])
      (modPoint i (fun p => { p with zcLost := true, freq := 0, harmInvalid := true, win := none, period := 0 }) s))
  else ok s

/-! ## Sags, swells and interruptions (R488, R489) -/

/-- The samples of one supervision value: 10 ms of DC, or one cycle. -/
def pqSpan (p : MeterPoint) : Nat :=
  if p.ac then (if p.period = 0 then 16000000 / nominalMHz p.mode else p.period) else 160

/-- U in mV (R488). -/
def pqValue (p : MeterPoint) : Int :=
  let n := pqSpan p
  let l := p.hist.take n
  if p.ac then ((isqrt 128 ((l.map fun v => v.natAbs * v.natAbs).sum * 1000000 / n) / 35184372088832 : Nat) : Int)
  else Int.tdiv (l.sum * 1000) (n * 35184372088832)

/-- The percentages of MTR_PQ_CFG for a kind: the begin and the end threshold. -/
def pqLimits (w : W32) (kind : Nat) : Int × Int :=
  let hyst : Int := (w >>> 24).toNat
  let b (n : Nat) : Int := (w.extractLsb' n 8).toNat
  if kind = 1 then (b 0, b 0 + hyst) else if kind = 2 then (b 8, b 8 - hyst) else (b 16, b 16 + hyst)

/-- Compare a value of U with the thresholds of a kind. -/
def pqJudge (i : Fin 8) (u : Int) (ct : Nat) (s : State) (kind : Nat) : State :=
  let p := pointOf s i
  let lim := pqLimits s.rws.mtrPqCfg kind
  let above (t : Int) : Bool := decide (t * p.unom < u * 100)
  let below (t : Int) : Bool := decide (u * 100 < t * p.unom)
  match p.pq kind with
  | none =>
    if !p.vLost && (if kind = 2 then above lim.1 else below lim.1) then
      eventAt 0x0608 0xFFFF 0 (det [(1, i.val), (1, kind)]) ct (modPoint i (MeterPoint.setPq kind (some { start := ct, extreme := u })) s)
    else s
  | some e =>
    let e1 : PqEvent := { e with extreme := if kind = 2 then max e.extreme u else min e.extreme u }
    if if kind = 2 then !above lim.2 else !below lim.2 then endPq i kind ct false e1 (modPoint i (MeterPoint.setPq kind none) s)
    else modPoint i (MeterPoint.setPq kind (some e1)) s

/-- PQ_VALUE_REFRESH (R488): on points 0 and 1, every half of the span of U. -/
def execPqValueRefresh (i : Fin 8) (s : State) : Host.Outcome State Fault Refusal :=
  let p := pointOf s i
  let n := pqSpan p
  if i.val < 2 ∧ p.on ∧ n ≤ p.hist.length ∧ p.refreshAt + n / 2 ≤ s.mtr.sample then
    let u := pqValue p
    ok ([1, 2, 3].foldl (pqJudge i u (sampleCt s.mtr.sample)) (modPoint i (fun p => { p with refreshAt := s.mtr.sample }) s))
  else ok s

end Sys2Proof.Machine
end

