-- ==== Sys2Proof/Machine/Links.lean ====
section
/-! DEFINITION. Sending over the Narrows link, and the roles and addresses that several blocks need (R48, R50, R364, R367). -/

namespace Sys2Proof.Machine

/-- The module sends cells: it is a pair member and step 6 of its power-up has ended (R368). -/
def sendsCells (s : State) : Bool := pairMember s && s.sys.selfTestEnded

/-- Send a cell and keep it until it is acknowledged (R367). -/
def pairSendFor (desc : Option (RingId × Nat)) (data : List Byte) (m : NarrowsMsg) (s : State) : State :=
  if sendsCells s then
    let seq := s.pair.txSeq
    emit (.cell seq m) (s.modPair fun p =>
      { p with
        txSeq := seq + 1, sentAt := s.clk.now,
        unacked := p.unacked ++ [{ seq := seq, msg := m, sentAt := s.clk.now, tries := 0, desc := desc, data := data }] })
  else s

/-- Send a cell that no descriptor waits for. -/
def pairSend (m : NarrowsMsg) (s : State) : State := pairSendFor none [] m s

/-- The partner is a synchronised standby of this active module (R364, R385). -/
def mirrors (s : State) : Bool := pairMember s && s.pair.state == .activeSynced

/-- Mirror an item that no descriptor waits for (R384). -/
def mirror (i : MirrorItem) (s : State) : State := if mirrors s then pairSend (.mirror i none) s else s

/-- Mirror the item of a descriptor, which waits for the acknowledgement of the cell (R385); `data` is what its work then needs. -/
def mirrorDesc (q : RingId) (e : Outst) (data : List Byte) (item : MirrorItem) (s : State) : State :=
  pairSendFor (some (q, e.num)) data (.mirror item (some (q, e.slot)))
    (waitDesc q e.num e.bound (s.modPair fun p => { p with lastMirrored := some (q.val, e.slot) }))

/-- The work on a descriptor was refused, or failed: nothing of it is mirrored. -/
def Work.failed : Work → Bool
  | .finish d => d.status != stOk
  | .wait _ => false

/-- Serve a descriptor that carries a mirrored item: with a synchronised partner it waits for the acknowledgement of the
MIRROR cell (R385), otherwise its work is done at once, as it is where it is refused. -/
def serveMirrored (q : RingId) (op : Nat) (dma : List Byte) (item : Outst → State → MirrorItem) (f : Outst → State → State × Work)
    (s : State) : State :=
  if mirrors s then
    match readyDesc q op s with
    | none => s
    | some e => if (f e s).2.failed then serve q op s f else mirrorDesc q e dma (item e s) s
  else serve q op s f

/-- Serve a descriptor whose work is done here at once, and which completes once the partner has acknowledged the mirrored item
(R384: an image or a state map). -/
def serveThenMirror (q : RingId) (op : Nat) (item : Outst → State → MirrorItem) (f : Outst → State → State × Done) (s : State) : State :=
  match readyDesc q op s with
  | none => s
  | some e =>
    let r := f e s
    if mirrors s && r.2.status == stOk then mirrorDesc q e r.2.result (item e s) r.1
    else serve q op s fun e s => ((f e s).1, .finish (f e s).2)

/-- The station number of the own field die on ring 0xF (R50). -/
def ownStation (s : State) : Nat := if pairMember s then bit s.sys.pairId else 0

/-- The point address of a point of a field die (R48, R50). -/
def localAddr (station point : Nat) : W32 := BitVec.ofNat 32 (0x0F000000 + station * 65536 + point)

/-- The fields of a point address (R48): ring, station, module, point. -/
def addrRing (a : W32) : Nat := a.toNat / 16777216 % 16
/-- See `addrRing`. -/
def addrStation (a : W32) : Nat := a.toNat / 65536 % 256
/-- See `addrRing`. -/
def addrModule (a : W32) : Nat := a.toNat / 256 % 64
/-- See `addrRing`. -/
def addrPoint (a : W32) : Nat := a.toNat % 256

/-- The address is one R49 allows. -/
def addrLegal (a : W32) : Bool :=
  let r := addrRing a
  decide (a.toNat / 268435456 = 0) && (decide (r < 4) || r == 15) && decide (a.toNat / 16384 % 4 = 0) &&
    (r != 15 || decide (addrStation a ≤ 1))

/-- The program's outputs are in force here: the module runs, stand-alone or in a pair state whose local outputs come from
its images (R217, R363). -/
def commandsOutputs (s : State) : Bool :=
  runsProgram s &&
    (!pairMember s ||
      match s.pair.state with
      | .activeSynced => true
      | .activeAlone => true
      | .standbySynced => true
      | .claiming =>
        match s.pair.before with
        | .standbySynced => true
        | _ => false
      | _ => false)

/-! ## Rings and their gates (R304, R334, R335) -/

/-- A ring. -/
def ringOf (s : State) (r : StraitId) : Ring := s.net.rings.get r

/-- Change one ring. -/
def modStrait (r : StraitId) (f : Ring → Ring) (s : State) : State :=
  s.modNet fun n => { n with rings := vmod n.rings r f }

/-- The ring of a port, none for ports 8 and 9 (R304). -/
def portRing (p : PortId) : Option StraitId := fin? 4 (p.val / 2)

/-- The module runs the ring cycle: it runs the program, and the ring is in use and inaugurated (R334, R349). -/
def cycling (s : State) (r : StraitId) : Bool :=
  commandsOutputs s && (ringOf s r).active && (ringOf s r).count != 0 && (ringOf s r).sched.isSome

/-- The gate of a ring is closed; outside the ring cycle there are no windows, and it is open (R334, R335). -/
def gateClosed (s : State) (r : StraitId) : Bool := (ringOf s r).closed && cycling s r

/-- The gate of a port's ring is closed; ports 8 and 9 have none. -/
def portClosed (s : State) (p : PortId) : Bool := ((portRing p).map (gateClosed s)).getD false

/-! ## Lanes -/

/-- The lanes in service (R276). -/
def lanesIn (s : State) : List LaneId := (allFin 3).filter fun l => (s.lanes.get l).state == .inService

/-- The lowest-lettered lane in service (R215, R282). -/
def sourceLane (s : State) : Option LaneId := (lanesIn s).head?

/-- Change one lane. -/
def modLane (l : LaneId) (f : Lane → Lane) (s : State) : State := s.modLanes fun v => vmod v l f

/-- Single-bit errors in the scratchpad of a lane are corrected, written back and counted (R35). -/
def correctedIn (l : LaneId) (n : Nat) (s : State) : State := modLane l (fun x => { x with corr := satInc x.corr n }) s

/-- A single-bit error is corrected and counted in the block that owns the memory (R35). -/
def countCorrected (o : SramOwner) (s : State) : State :=
  match o with
  | .lane l => correctedIn l 1 s
  | _ => s.modMem fun m => { m with fixed := assocSet o ((assoc? o m.fixed).getD 0 + 1) m.fixed }

/-! ## Dirty lines (R283) -/

/-- The lines of a data partition of 4 MiB (R33, R283). -/
def lineCount : Nat := 16384

/-- Every line is dirty. -/
def Dirty.every : Dirty := { all := true, lines := [] }

/-- No line is dirty. -/
def Dirty.clear : Dirty := { all := false, lines := [] }

/-- A line is dirty. -/
def Dirty.has (d : Dirty) (i : Nat) : Bool := d.all != d.lines.contains i

/-- The number of dirty lines. -/
def Dirty.count (d : Dirty) : Nat := if d.all then lineCount - d.lines.length else d.lines.length

/-- Change a line from clean to dirty or back. -/
def Dirty.flip (i : Nat) (d : Dirty) : Dirty :=
  { d with lines := if d.lines.contains i then d.lines.filter fun x => x != i else i :: d.lines }

/-- Mark a line dirty. -/
def Dirty.mark (i : Nat) (d : Dirty) : Dirty := if d.has i then d else d.flip i

/-- Mark a line clean. -/
def Dirty.clean (i : Nat) (d : Dirty) : Dirty := if d.has i then d.flip i else d

/-- The first dirty line. -/
def Dirty.first (d : Dirty) : Option Nat :=
  if d.all then (List.range lineCount).find? fun i => !d.lines.contains i else d.lines.min?

/-- What a write of the lines does to the marks of a lane that is being resynchronised (R283). -/
def Lane.marked (ls : List Nat) (x : Lane) : Lane := if x.state == .resync then { x with dirty := ls.foldl (fun d i => d.mark i) x.dirty } else x

/-- What a write of the lines does to the marks of a join in progress (R377). -/
def Pair.marked (ls : List Nat) (p : Pair) : Pair := if p.joinStep = 0 then p else { p with lines := ls.foldl (fun d i => d.mark i) p.lines }

/-- A write reaches lines of the data partition of a lane: where it is the source lane, they are dirty for every lane that is being
resynchronised (R283), and for a standby that joins (R377). -/
def markLines (l : LaneId) (ls : List Nat) (s : State) : State :=
  if sourceLane s = some l then (s.modLanes fun v => v.map (Lane.marked ls)).modPair (Pair.marked ls) else s

/-- Change the standing figures of one task. -/
def modRun (t : Nat) (f : TaskRun → TaskRun) (s : State) : State :=
  match fin? 256 t with
  | some i => s.modTsk fun k => { k with run := vmod k.run i f }
  | none => s

/-- The standing figures of a task. -/
def taskRun (s : State) (t : Nat) : TaskRun := s.tsk.run.get (finOr t)

/-- The entry of a task in the applied schedule. -/
def taskEntry (s : State) (t : Nat) : Option TaskEntry :=
  match s.tsk.sched with
  | some k => k.tasks.find? fun e => e.task == t
  | none => none

end Sys2Proof.Machine
end

