-- ==== Sys2Proof/Machine/Frames.lean ====
section
/-! DEFINITION. Strait frames as bytes: the tagged Ethernet frame, the header, the safety CRC and the layout of cyclic payloads (R313 to R318). -/

namespace Sys2Proof.Machine

/-! ## Big-endian fields (R313) -/

/-- The `n` low bytes of `v`, most significant first. -/
def beBytes (n v : Nat) : List Byte := (leBytes n v).reverse

/-- The big-endian field of `n` bytes at byte `off`. -/
def rdBe (bs : List Byte) (off n : Nat) : Nat := leNat (slice bs off n).reverse

/-- A record built from big-endian fields given as (width in bytes, value). -/
def beFields : List (Nat × Nat) → List Byte
  | [] => []
  | (n, v) :: fs => beBytes n v ++ beFields fs

/-! ## The Strait header (R314) -/

/-- A Strait frame: the header fields and the payload. `res7` and `res22` are header bytes 7 and 22 to 23, zero in every frame that is sent; the
safety CRC covers them as received (R317). -/
structure Strait where
  typ : Nat
  west : Bool
  sender : Bool
  hops : Nat
  stream : Nat
  gen : Nat
  aEpoch : Nat
  mEpoch : Nat
  seq : Nat
  src : Nat
  dst : Nat
  time : Nat
  payload : List Byte
  res7 : Nat := 0
  res22 : Nat := 0
  deriving DecidableEq, Repr

/-- Header byte 0: version 1 and the frame type. -/
def Strait.vt (f : Strait) : Byte := BitVec.ofNat 8 (16 + f.typ)

/-- Header bytes 4 to 31. -/
def Strait.tail (f : Strait) : List Byte :=
  beFields [(2, f.stream), (1, f.gen), (1, f.res7), (2, f.aEpoch), (2, f.mEpoch), (4, f.seq), (2, f.src), (2, f.dst),
    (2, f.payload.length), (2, f.res22), (8, f.time)]

/-- The header. -/
def Strait.header (f : Strait) : List Byte :=
  f.vt :: BitVec.ofNat 8 (bit f.west * 128 + bit f.sender * 64) :: (beBytes 2 f.hops ++ f.tail)

/-- The frame types whose safety CRC starts from the domain seed (R317). -/
def seeded (typ : Nat) : Bool := (1 ≤ typ && typ ≤ 4) || (11 ≤ typ && typ ≤ 13)

/-- The safety CRC (R317). -/
def Strait.crc (seed : W32) (f : Strait) : W32 :=
  ~~~ (crc32cGo (f.vt :: (f.tail ++ f.payload)) (if seeded f.typ then seed else 0xFFFFFFFF#32))

/-- The PCP of a frame type (R316). -/
def pcpOf (typ : Nat) : Nat :=
  if typ ≤ 2 then 6 else if typ ≤ 4 ∨ typ = 0xB then 4 else if typ ≤ 8 then 5 else if typ ≤ 0xA then 3 else 2

/-- The MAC address of a port (R307). -/
def portMac (s : State) (p : PortId) : Nat := (s.fuse.mac.toNat + p.val) % 281474976710656

/-- The Ethernet frame of a Strait frame as it leaves a port, without its FCS (R313). -/
def Strait.bytes (s : State) (p : PortId) (ring : StraitId) (vid : Nat) (f : Strait) : List Byte :=
  let b := beFields [(6, 0x035354000000 + ring.val), (6, portMac s p), (2, 0x8100), (2, pcpOf f.typ * 8192 + vid), (2, 0x88B5)] ++
    f.header ++ f.payload ++ beBytes 4 (f.crc s.rws.netSeed).toNat
  b ++ List.replicate (60 - b.length) 0

/-- The bytes a frame occupies on the wire (R313). -/
def wireBytes (len : Nat) : Nat := max (len + 78) 84

/-- A received Ethernet frame is a tagged Strait frame. -/
def isStrait (bs : List Byte) : Bool := rdBe bs 12 2 == 0x8100 && rdBe bs 16 2 == 0x88B5

/-- The header and payload of a received Ethernet frame. -/
def straitOf (bs : List Byte) : Strait :=
  let h := bs.drop 18
  { typ := rdBe h 0 1 % 16, west := rdBe h 1 1 / 128 == 1, sender := rdBe h 1 1 / 64 % 2 == 1, hops := rdBe h 2 2,
    stream := rdBe h 4 2, gen := rdBe h 6 1, aEpoch := rdBe h 8 2, mEpoch := rdBe h 10 2, seq := rdBe h 12 4, src := rdBe h 16 2,
    dst := rdBe h 18 2, time := rdBe h 24 8, payload := slice h 32 (rdBe h 20 2), res7 := rdBe h 7 1, res22 := rdBe h 22 2 }

/-- The version field of a received frame. -/
def straitVersion (bs : List Byte) : Nat := rdBe bs 18 1 / 16

/-- The safety CRC that a received frame carries. -/
def carriedCrc (bs : List Byte) : W32 := BitVec.ofNat 32 (rdBe bs (50 + rdBe bs 38 2) 4)

/-! ## Addresses (R315) -/

/-- The address of a station of a ring. -/
def stationAddr (ring station : Nat) : Nat := ring * 256 + station

/-- The address of every station of a ring. -/
def groupAddr (ring : Nat) : Nat := 0x4000 + ring * 256 + 0xFF

/-- The address of the domain on a ring. -/
def domainAddr (ring : Nat) : Nat := 0x8000 + ring * 256

/-- The address of a station not yet numbered. -/
def newAddr (ring : Nat) : Nat := 0xC000 + ring * 256

/-! ## The layout of cyclic payloads (R318) -/

/-- Insert an entry by rising point address, once per point. -/
def insertPoint (e : IoEntry) : List IoEntry → List IoEntry
  | [] => [e]
  | x :: r =>
    if e.point = x.point then x :: r
    else if e.point.toNat < x.point.toNat then e :: x :: r
    else x :: insertPoint e r

/-- The points of a station in one direction, ascending, once each. -/
def stationPoints (m : List IoEntry) (ring station : Nat) (out : Bool) : List IoEntry :=
  (m.filter fun e => e.out == out && addrRing e.point == ring && addrStation e.point == station).foldl
    (fun l e => insertPoint e l) []

/-- `n` rounded up to a multiple of `k`. -/
def roundUp (n k : Nat) : Nat := (n + k - 1) / k * k

/-- The bit position in DATA of each point, from position `p` on. -/
def placePoints : Nat → List IoEntry → List (IoEntry × Nat)
  | _, [] => []
  | p, e :: r =>
    if e.width = 0 then (e, p) :: placePoints (p + 1) r
    else
      let q := roundUp p (8 * e.width)
      (e, q) :: placePoints (q + 8 * e.width) r

/-- The length of DATA in bytes. -/
def dataLen (ps : List (IoEntry × Nat)) : Nat :=
  match ps.getLast? with
  | some (e, p) => roundUp ((p + max 1 (8 * e.width) + 7) / 8) 4
  | none => 0

/-- The length of QUAL in bytes. -/
def qualLen (n : Nat) : Nat := roundUp ((n + 3) / 4) 4

/-- The length of a cyclic payload for the points of a station. -/
def cyclicLen (ps : List IoEntry) : Nat := dataLen (placePoints 0 ps) + qualLen ps.length

/-- Put bytes into a byte list at `off`. -/
def putBytes (bs : List Byte) (off : Nat) (v : List Byte) : List Byte := bs.take off ++ v ++ bs.drop (off + v.length)

/-- Put a point's value at its place; multi-byte values are big-endian as every Strait field (R313). -/
def putPoint (bs : List Byte) (e : IoEntry) (p : Nat) (v : W64) : List Byte :=
  if e.width = 0 then
    if v.getLsbD 0 then putBytes bs (p / 8) [bs.getD (p / 8) 0 ||| (1#8 <<< (p % 8))] else bs
  else putBytes bs (p / 8) (beBytes e.width v.toNat)

/-- A point's value at its place. -/
def getPoint (bs : List Byte) (e : IoEntry) (p : Nat) : W64 :=
  if e.width = 0 then (if (bs.getD (p / 8) 0).getLsbD (p % 8) then 1 else 0)
  else BitVec.ofNat 64 (rdBe bs (p / 8) e.width)

/-- The quality code of the `i`-th point in QUAL. -/
def getQual (bs : List Byte) (i : Nat) : Nat := (bs.getD (i / 4) 0).toNat / 4 ^ (i % 4) % 4

/-- QUAL for a list of codes. -/
def packQual : List Nat → List Byte
  | [] => []
  | [a] => [BitVec.ofNat 8 a]
  | [a, b] => [BitVec.ofNat 8 (a + b * 4)]
  | [a, b, c] => [BitVec.ofNat 8 (a + b * 4 + c * 16)]
  | a :: b :: c :: d :: r => BitVec.ofNat 8 (a + b * 4 + c * 16 + d * 64) :: packQual r

/-- DATA, then QUAL, of the points of a station with the values of an image (R318, R328). -/
def packCyclic (ps : List IoEntry) (val : W32 → IoValue) : List Byte :=
  let pl := placePoints 0 ps
  pl.foldl (fun bs x => putPoint bs x.1 x.2 (val x.1.point).value) (List.replicate (dataLen pl) 0) ++
    fitTo (qualLen ps.length) (packQual (ps.map fun e => (val e.point).quality % 4))

/-- The value and quality of a point in a cyclic payload, `none` where the station has no such point. -/
def unpackPoint (ps : List IoEntry) (bs : List Byte) (pt : W32) : Option IoValue :=
  let pl := placePoints 0 ps
  match (pl.zipIdx).find? fun x => x.1.1.point == pt with
  | some ((e, p), i) => some { value := getPoint bs e p, quality := getQual (bs.drop (dataLen pl)) i }
  | none => none

end Sys2Proof.Machine
end

