-- ==== Sys2Proof/Machine/Forces.lean ====
section
/-! DEFINITION. The active image and its symbols, and the force table as it stands for an instant (R206 to R210, R222, R227). -/

namespace Sys2Proof.Machine

/-- The image of the ACTIVE bank (R222). -/
def activeImage (s : State) : Option Image :=
  ((allFin 2).find? fun b => (s.prg.banks.get b).state == .active).bind fun b => (s.prg.banks.get b).image

/-- A symbol of an image by its identifier. -/
def Image.find (i : Image) (sym : W32) : Option Symbol := i.syms.find? fun y => y.sym == sym

/-- A symbol of the active image. -/
def findSym (s : State) (sym : W32) : Option Symbol := (activeImage s).bind fun i => i.find sym

/-- A change of the force table made. -/
def ForceAct.make (a : ForceAct) (fs : List Force) : List Force :=
  match a with
  | .set f => if fs.any fun x => x.sym == f.sym then updWhere (fun x => x.sym == f.sym) (fun _ => f) fs else fs ++ [f]
  | .clear sym => fs.filter fun x => x.sym != sym
  | .clearAll => []

/-- A change of the force table is made for an instant: its force instant is not later (R208), and one between the commit point of a switch
and X is made from X on (R252). -/
def forceDue (s : State) (ct : Nat) (c : ForceChange) : Bool :=
  decide (c.at_ ≤ ct) && !((s.prg.sw.map fun w => decide (w.x ≤ c.at_ + w.w) && decide (c.at_ < w.x) && decide (ct < w.x)) == some true)

/-- The force table as it stands for an instant (R208). -/
def forcesAt (s : State) (ct : Nat) : List Force :=
  (s.tsk.changes.filter (forceDue s ct)).foldl (fun fs c => c.act.make fs) s.tsk.forces

/-- The force on a point, of a kind of symbol (R206). -/
def forceOn (img : Option Image) (fs : List Force) (kind : Nat) (pt : W32) : Option Force :=
  fs.find? fun f => ((img.bind fun i => i.find f.sym).map fun y => y.kind == kind && y.loc == pt) == some true

/-- A forced value, with quality forced. -/
def Force.forced (f : Force) : IoValue := { value := BitVec.ofNat 64 (leNat f.value), quality := 2 }

/-- An output image with the forces on output points that hold at an output instant (R207, R208). -/
def forcedImage (s : State) (instant : Nat) (img : List (W32 × IoValue)) : List (W32 × IoValue) :=
  let fs := forcesAt s instant
  let i := activeImage s
  img.map fun x => (x.1, ((forceOn i fs 4 x.1).map Force.forced).getD x.2)

end Sys2Proof.Machine
end

