-- ==== Sys2Proof/Machine/Field.lean ====
section
/-! DEFINITION. Local isolated field I/O: the field die, the barrier link and the field interface (R446 to R476). -/

namespace Sys2Proof.Machine

/-- Change one channel of the field die. -/
def modChan (n : ChanId) (f : Chan → Chan) (s : State) : State :=
  s.modFio fun x => { x with chans := vmod x.chans n f }

/-- The channel. -/
def chanOf (s : State) (n : ChanId) : Chan := s.fio.chans.get n

/-- The group of a channel (R446). -/
def groupOf (n : ChanId) : Fin 4 := ⟨n.val / 8, by omega⟩

/-- The channels of a group. -/
def groupChans (g : Fin 4) : List ChanId := (allFin 32).filter fun n => groupOf n == g

/-- The channel is an output (modes 3 and 4). -/
def ChanCfg.output (c : ChanCfg) : Bool := c.mode == 3 || c.mode == 4

/-- The channel is an input (modes 1 and 2). -/
def ChanCfg.input (c : ChanCfg) : Bool := c.mode == 1 || c.mode == 2

/-- A bit of the diagnostic byte is set. -/
def Chan.has (c : Chan) (b : Nat) : Bool := c.diag.getLsbD b

/-! ## Points (R447, R457, R472, R382) -/

/-- The status byte of a group (R471); the restoration timer runs while L+ is at or above 18 V after a sag (log entry 17). -/
def FieldGroup.status (g : FieldGroup) : Nat :=
  bit (decide (18000 ≤ g.mv.toNat)) + 2 * bit g.sag1 + 4 * bit g.sag2 +
    8 * bit ((g.sag1 || g.sag2) && decide (18000 ≤ g.mv.toNat)) + 16 * bit g.overload

/-- The quality of an input or readback of a channel (R472). -/
def Chan.quality (c : Chan) : Nat := if c.has 0 || c.has 7 then 3 else 0

/-- A point of the own field die (R447, R472); every point is invalid under a barrier fault (R457). -/
def ownPoint (s : State) (point : Nat) : IoValue :=
  let good (v : Nat) : IoValue := { value := BitVec.ofNat 64 v, quality := 0 }
  let v : IoValue :=
    if point < 32 then
      let c := chanOf s (finOr point)
      if c.cfg.output then good (bit c.cmd) else { good (bit c.state) with quality := c.quality }
    else if point < 64 then
      let c := chanOf s (finOr (point - 32))
      { good (bit c.readback) with quality := c.quality }
    else if point < 96 then good (chanOf s (finOr (point - 64))).diag.toNat
    else good (s.fio.groups.get (finOr (point - 96))).status
  if s.fio.faulted then { v with quality := 3 } else v

/-- The changes of points that a snapshot may still need at chip time `ct`: those of the last millisecond, and of each point
the newest one before it. -/
def recentChanges (ct : Nat) (l : List PointChange) : List PointChange :=
  l.filter fun c => decide (ct < c.ct + 1000000) || (l.find? fun d => d.point == c.point && decide (d.ct + 1000000 ≤ ct)) == some c

/-- Changes of own points are kept, and go to the partner (R382). -/
def reportPoints (points : List Nat) (s : State) : State :=
  let l : List PointChange := points.map fun n =>
    let v := ownPoint s n
    { point := n, value := v.value, quality := v.quality, ct := s.clk.ct }
  let s1 := s.modFio fun x => { x with changes := recentChanges s.clk.ct (l.reverse ++ x.changes) }
  if pairMember s then pairSend (.edges l) s1 else s1

/-- The points of a field die (R447). -/
def allPoints : List Nat := List.range 100

/-- A point of the own field die as it stood at chip time `ct` (R190, R382). -/
def fieldPoint (s : State) (point ct : Nat) : IoValue :=
  match s.fio.changes.find? fun c => c.point == point && decide (c.ct ≤ ct) with
  | some c => { value := c.value, quality := c.quality }
  | none => ownPoint s point

/-! ## Diagnostics (R471) -/

/-- The points that bits of a channel's diagnostic byte change: the byte itself, and the qualities of R472. -/
def diagPoints (n : ChanId) (bits : Byte) : List Nat :=
  if bits &&& 0x81#8 = 0 then [64 + n.val] else [64 + n.val, n.val, 32 + n.val]

/-- Set bits of a channel's diagnostic byte, with class 0x0505 for those newly set. -/
def setDiag (n : ChanId) (bits : Byte) (s : State) : State :=
  let new := bits &&& ~~~ (chanOf s n).diag
  if new = 0 then s
  else reportPoints (diagPoints n new) (event 0x0505 (det [(1, n.val), (1, new.toNat)])
    (modChan n (fun c => { c with diag := c.diag ||| bits, latched := c.latched ||| bits }) s))

/-- Clear bits of a channel's diagnostic byte, with class 0x0506 for those that were set. The readback comparison of R466
begins again when a bit that suspends it clears. -/
def clearDiag (n : ChanId) (bits : Byte) (s : State) : State :=
  let old := bits &&& (chanOf s n).diag
  if old = 0 then s
  else reportPoints (diagPoints n old) (event 0x0506 (det [(1, n.val), (1, old.toNat)])
    (modChan n (fun c =>
      { c with diag := c.diag &&& ~~~ bits, cmpFrom := if old &&& 0xB8#8 = 0 then c.cmpFrom else s.clk.now }) s))

/-! ## Output stages (R465 to R469) -/

/-- The output stage of a channel as its command, its shutdown, its latch and its group's supply decide. -/
def stageOn (s : State) (n : ChanId) : Bool :=
  let c := chanOf s n
  c.cfg.output && c.cmd && !c.has 4 && !c.has 5 && !(s.fio.groups.get (groupOf n)).sag2

/-- Drive the output stage of a channel as it stands. -/
def drive (n : ChanId) (s : State) : State :=
  if (chanOf s n).on = stageOn s n then s
  else emit (.land n (stageOn s n)) (modChan n (fun c => { c with on := stageOn s n }) s)

/-- Command the state of an output channel; a change restarts the readback comparison after 100 µs (R466). -/
def command (n : ChanId) (v : Bool) (s : State) : State :=
  if (chanOf s n).cfg.output then
    drive n (if (chanOf s n).cmd = v then s
      else reportPoints [n.val] (modChan n (fun c => { c with cmd := v, cmdAt := s.clk.now, cmpFrom := s.clk.now + 100000 }) s))
  else s

/-- Set an output channel to its SAFE value; 2 keeps the state it drives (R455, R473). -/
def commandSafe (n : ChanId) (s : State) : State :=
  let c := chanOf s n
  if c.cfg.safe = 2 then command n c.on s else command n (c.cfg.safe == 1) s

/-- Set every output channel to its SAFE value (R455, R473). -/
def allSafe (s : State) : State := (allFin 32).foldl (fun s n => commandSafe n s) s

/-! ## Inputs (R459 to R464) -/

/-- The debounced state of a channel changes: the edge awaits its report, with its land instant and the event's own stamp (R453, R462). -/
def takeState (n : ChanId) (v : Bool) (stamp took : Nat) (s : State) : State :=
  reportPoints [n.val] ((modChan n (fun c => { c with state := v, told := v }) s).modFio
    fun x => { x with edges := x.edges ++ [{ chan := n, rise := v, stamp := stamp, took := took }] })

/-- A channel whose state turns ON has no wire break (R464). -/
def clearBreakOn (n : ChanId) (s : State) : State := if (chanOf s n).state then clearDiag n 1 s else s

/-- The raw level of an input becomes `v` (R460): the measurement starts anew, or with debounce off the state follows. -/
def takeRaw (n : ChanId) (v : Bool) (s : State) : State :=
  let c := chanOf s n
  if c.raw = v then s
  else
    let s1 := modChan n (fun c => { c with raw := v, rawSince := s.clk.now, rawCt := s.clk.ct }) s
    if c.cfg.debounce = 0 ∧ c.state ≠ v then clearBreakOn n (takeState n v s.clk.ct s.clk.ct s1) else s1

/-- The debounced state takes a raw level that has held for DEBOUNCE µs (R460, R461). -/
def debounce (n : ChanId) (s : State) : State :=
  let c := chanOf s n
  if c.raw ≠ c.state ∧ c.rawSince + c.cfg.debounce * 1000 ≤ s.clk.now then
    clearBreakOn n (takeState n c.raw c.rawCt (c.rawCt + c.cfg.debounce * 1000) s)
  else s

/-- The readback of a mode 4 channel. -/
def takeReadback (n : ChanId) (v : Bool) (s : State) : State :=
  if (chanOf s n).readback = v then s
  else reportPoints [32 + n.val] (modChan n (fun c => { c with readback := v, readbackAt := s.clk.now }) s)

/-- FIELD_INPUT_CHANGE (R446, R459, R460). A channel of mode 0 or 3 is not sampled, and a pulsed one only at its draws. -/
def execFieldInputChange (n : ChanId) (v : Bool) (s : State) : Host.Outcome State Fault Refusal :=
  let s1 := modChan n (fun c => { c with land := v }) s
  let c := chanOf s n
  if c.cfg.mode = 4 then ok (takeReadback n v s1)
  else if c.cfg.input && !c.cfg.pulsed then ok (takeRaw n v s1)
  else ok s1

/-- PULSED_SAMPLE (R461). -/
def execPulsedSample (n : ChanId) (v : Bool) (s : State) : Host.Outcome State Fault Refusal :=
  let s1 := modChan n (fun c => { c with land := v }) s
  if (chanOf s n).cfg.pulsed && (chanOf s n).cfg.input then ok (debounce n (takeRaw n v s1)) else ok s1

/-- DEBOUNCE_EXPIRY (R460). -/
def execDebounceExpiry (n : ChanId) (s : State) : Host.Outcome State Fault Refusal :=
  if (chanOf s n).cfg.input && !(chanOf s n).cfg.pulsed then ok (debounce n s) else ok s

/-- An event task waits for the edge (R178): the applied program's tasks with EVENT_SRC 1 to 3 on the point. -/
def edgeTasks (s : State) (addr : W32) (rise : Bool) : List Nat :=
  if runsProgram s then
    match s.tsk.sched with
    | some k => (k.tasks.filter fun t =>
        t.kind == .event && t.eventArg == addr &&
          (t.eventSrc == 3 || (t.eventSrc == 1 && rise) || (t.eventSrc == 2 && !rise))).map (·.task)
    | none => []
  else []

/-- Put an event on its way to recognition (R178). -/
def rawEvent (task stamp : Nat) (trigger : Option (RingId × Nat)) (s : State) : State :=
  s.modTsk fun k => { k with raw := k.raw ++ [{ task := task, stamp := stamp, trigger := trigger }] }

/-- Every 100 µs, the number of edges lost in them is recorded where there were any (R463, R476). -/
def rollEdges (s : State) : State :=
  if s.fio.winStart + 100000 ≤ s.clk.now then
    let s1 := s.modFio fun x => { x with winStart := s.clk.now, winLost := 0 }
    if s.fio.winLost = 0 then s1 else event 0x050A (det [(4, s.fio.winLost)]) s1
  else s

/-- The instants of the reports of the last 100 µs. -/
def lastReports (s : State) : List Nat := s.fio.reported.filter fun t => decide (s.clk.now < t + 100000)

/-- Bit 6 of the diagnostic bytes covers the time since the last release (R471): with a release it begins anew. -/
def clearLostEdges (s : State) : State := (allFin 32).foldl (fun s n => clearDiag n 0x40 s) s

/-- Deliver an edge of the module's own field unit: the input-edge record and the events of R178, whose stamp is the instant the state
changed (R462). A change of a station's input writes no such record (DESIGN CHOICE, log entry 129). -/
def deliverEdge (e : FieldEdge) (s : State) : State :=
  let a := localAddr (ownStation s) e.chan.val
  let s1 := traceGen 4 ((chanOf s e.chan).quality * 4) 0 (fields [(4, a.toNat), (4, bit e.rise), (8, 0)]) e.stamp s
  (edgeTasks s a e.rise).foldl (fun s t => rawEvent t e.took none s) s1

/-- An edge is counted and not reported: the last reported state is the one before it (R463, R470). -/
def loseEdge (e : FieldEdge) (s : State) : State :=
  setDiag e.chan 0x40 ((modChan e.chan (fun c => { c with told := !e.rise }) s).modFio fun x =>
    { x with edgesLost := satInc x.edgesLost 1, winLost := x.winLost + 1 })

/-- An edge is reported. -/
def reportEdge (e : FieldEdge) (s : State) : State :=
  deliverEdge e ((modChan e.chan (fun c => { c with told := e.rise }) s).modFio fun x => { x with reported := s.clk.now :: lastReports s })

/-- FIELD_EDGE_REPORT (R453, R463): at most 64 edges in any 100 µs, the others counted. -/
def execFieldEdgeReport (s : State) : Host.Outcome State Fault Refusal :=
  match s.fio.edges with
  | [] => ok s
  | e :: r =>
    let s1 := rollEdges (s.modFio fun x => { x with edges := r })
    ok (if (lastReports s1).length < 64 then reportEdge e s1 else loseEdge e s1)

/-- WIRE_BREAK_SET (R464): declared in the OFF state of a channel with WIRE_BREAK set, once the current has been low for
10 ms (R51). -/
def execWireBreakSet (n : Lasting ChanId) (s : State) : Host.Outcome State Fault Refusal :=
  let c := chanOf s n.value
  if c.cfg.wireBreak && c.cfg.input && !c.state && decide (10000 ≤ n.us) then ok (setDiag n.value 1 s) else ok s

/-- WIRE_BREAK_CLEAR (R464): the current has been back for 10 ms. -/
def execWireBreakClear (n : Lasting ChanId) (s : State) : Host.Outcome State Fault Refusal :=
  if (chanOf s n.value).has 0 && decide (10000 ≤ n.us) then ok (clearDiag n.value 1 s) else ok s

/-! ## The barrier (R452 to R458) -/

/-- The refresh carries the resume mark (R456): the delay is measured again and the module commands outputs. -/
def resumeMark (s : State) : Bool := (s.fio.safe || s.fio.faulted) && s.fio.realigned && commandsOutputs s

/-- The field die leaves its safe state (R456): classes 0x0501 and 0x0502 with the instant of entry. -/
def leaveSafe (s : State) : State :=
  let d := det [(8, s.fio.safeCt)]
  event 0x0502 d (event 0x0501 d (s.modFio fun x => { x with safe := false }))

/-- The field die takes a refresh that reached it intact: valid with the next sequence number, or any while it is in its
safe state (log entry 18). -/
def takeRefresh (mark : Bool) (seq : W16) (s : State) : State :=
  if s.fio.safe || seq == s.fio.dieSeq + 1 then
    let s1 := s.modFio fun x => { x with dieSeq := seq, lastValid := s.clk.now }
    if mark then
      let s2 := let s3 := s1.modFio fun x => { x with faulted := false, barrierOk := true }
        if s.fio.faulted then reportPoints allPoints s3 else s3
      if s.fio.safe then leaveSafe s2 else s2
    else s1
  else s.modFio fun x => { x with errors := satInc x.errors 1 }

/-- BARRIER_REFRESH (R452): every 100 µs, in every run state. -/
def execBarrierRefresh (intact : Bool) (s : State) : Host.Outcome State Fault Refusal :=
  if s.fio.refreshAt + 100000 ≤ s.clk.now ∧ !s.sys.inReset ∧ 6 ≤ s.sys.step then
    let seq := s.fio.refSeq + 1
    let s1 := emit (.fieldRefresh (resumeMark s)) (s.modFio fun x => { x with refSeq := seq, refreshAt := s.clk.now })
    if intact then ok (takeRefresh (resumeMark s) seq s1)
    else ok (s1.modFio fun x => { x with errors := satInc x.errors 1 })
  else ok s

/-- BARRIER_ECHO (R452): half the round trip is the barrier delay. -/
def execBarrierEcho (intact : Bool) (ns : Nat) (s : State) : Host.Outcome State Fault Refusal :=
  if intact then
    ok (s.modFio fun x =>
      { x with echoAt := s.clk.now, delay := BitVec.ofNat 16 (min 65535 (ns / 2)), realigned := true, barrierOk := !x.faulted })
  else ok (s.modFio fun x => { x with errors := satInc x.errors 1 })

/-- BARRIER_FAULT (R457): every point of the field die is invalid from now on. -/
def execBarrierFault (cause : BitVec 2) (s : State) : Host.Outcome State Fault Refusal :=
  if !s.fio.faulted ∧ s.fio.echoAt + 300000 ≤ s.clk.now then
    ok (reportPoints allPoints (event 0x0508 (det [(1, cause.toNat)])
      (s.modFio fun x => { x with faulted := true, barrierOk := false, realigned := false })))
  else ok s

/-- FIELD_SAFE_TIMEOUT (R455). -/
def execFieldSafeTimeout (s : State) : Host.Outcome State Fault Refusal :=
  if !s.fio.safe ∧ s.fio.lastValid + s.fio.timeout * 1000000 ≤ s.clk.now then
    ok (allSafe (s.modFio fun x => { x with commands := [], safe := true, safeCt := s.clk.ct, realigned := false }))
  else ok s

/-! ## Output commands (R454, R473, R474) -/

/-- The states of the own output channels among the points of an image. -/
def ownStates (s : State) (img : List (W32 × IoValue)) : List (Nat × Bool) :=
  (img.filter fun x => addrRing x.1 == 15 && addrStation x.1 == ownStation s && decide (addrPoint x.1 < 32)).map fun x =>
    (addrPoint x.1, x.2.value != 0)

/-- The output instants that may be commanded next, with the image of each: releases past their cut-off, and the SUBST
images of a stop (R218). -/
def dueCommands (s : State) : List (Nat × Nat × List (W32 × IoValue)) :=
  ((s.tsk.rels.filter fun r => r.cut).map fun r => (r.task, r.instant, forcedImage s r.instant r.image)) ++
    ((s.tsk.tails.filter fun t => t.cut).map fun t => (t.task, t.instant,
      ((s.tsk.iomap.filter fun e => e.out && e.task == t.task).map fun e => (e.point, { value := e.subst, quality := 1 }))))

/-- The command that leaves next: due within 20 µs, with points of the own field die, and not sent before. -/
def nextCommand (s : State) : Option (Nat × Nat × List (W32 × IoValue)) :=
  (dueCommands s).find? fun c =>
    decide (c.2.1 ≤ s.clk.ct + 20000) && !(ownStates s c.2.2).isEmpty && !s.fio.sent.contains (c.1, c.2.1)

/-- Pack commanded states into the command on the barrier, bit n for channel n. -/
def commandBits (l : List (Nat × Bool)) : W32 :=
  l.foldl (fun w x => if x.2 then w ||| (1#32 <<< x.1) else w) 0

/-- FIELD_OUTPUT_COMMAND (R454): the command leaves unless outputs are not commanded or the barrier has failed; the field
die discards it in its safe state, or less than 1 µs before its instant. -/
def execFieldOutputCommand (s : State) : Host.Outcome State Fault Refusal :=
  match nextCommand s with
  | none => ok s
  | some (t, o, img) =>
    let s1 := s.modFio fun x => { x with sent := (t, o) :: x.sent.filter fun y => decide (s.clk.ct < y.2 + 1000000000) }
    if commandsOutputs s && !s.fio.faulted then
      let l := ownStates s img
      let s2 := emit (.fieldCommand o (commandBits l)) s1
      if s.fio.safe || decide (o < s.clk.ct + 1000) then ok (s2.modFio fun x => { x with cmdsDropped := x.cmdsDropped + 1 })
      else ok (s2.modFio fun x => { x with commands := x.commands ++ [{ instant := o, states := l }] })
    else ok s1

/-- The pending command with the earliest output instant. -/
def firstCommand (l : List FieldCommand) : Option FieldCommand :=
  l.foldl (fun b c =>
    match b with
    | some x => if c.instant < x.instant then some c else b
    | none => some c) none

/-- FIELD_OUTPUT_APPLY (R454, R53): commands are applied in the order of their output instants; one not later than the
last applied is discarded. -/
def execFieldOutputApply (s : State) : Host.Outcome State Fault Refusal :=
  match firstCommand s.fio.commands with
  | none => ok s
  | some c =>
    if c.instant ≤ s.clk.ct then
      let s1 := s.modFio fun x => { x with commands := x.commands.erase c }
      if c.instant ≤ s.fio.applied then ok (s1.modFio fun x => { x with cmdsDropped := x.cmdsDropped + 1 })
      else
        ok (c.states.foldl (fun s y => command (finOr y.1) y.2 s)
          (s1.modFio fun x => { x with applied := c.instant }))
    else ok s

/-! ## Overload, shutdown and readback (R465 to R468) -/

/-- OUTPUT_CURRENT_LIMIT (R465). -/
def execOutputCurrentLimit (n : ChanId) (active : Bool) (s : State) : Host.Outcome State Fault Refusal :=
  if (chanOf s n).cfg.output then
    ok (if active then setDiag n 8 s else clearDiag n 8 s)
  else ok s

/-- THERMAL_SHUTDOWN (R465): the 32nd within 10 s latches the channel off. -/
def execThermalShutdown (n : ChanId) (s : State) : Host.Outcome State Fault Refusal :=
  let c := chanOf s n
  if c.cfg.output && c.on then
    let l := s.clk.now :: c.shutAt.filter fun t => decide (s.clk.now < t + 10000000000)
    let s1 := modChan n (fun c => { c with shutdowns := satInc c.shutdowns 1, shutAt := l }) s
    ok (drive n (setDiag n (if 32 ≤ l.length then 0x30 else 0x10) s1))
  else ok s

/-- THERMAL_RESTART (R465): a cooled channel is on again for as long as it is commanded on. -/
def execThermalRestart (n : ChanId) (s : State) : Host.Outcome State Fault Refusal :=
  if (chanOf s n).has 4 then ok (drive n (clearDiag n 0x10 s)) else ok s

/-- LATCH_OFF_RELEASE (R465): after at least 1 ms commanded off. -/
def execLatchOffRelease (n : ChanId) (s : State) : Host.Outcome State Fault Refusal :=
  let c := chanOf s n
  if c.has 5 && !c.cmd && decide (c.cmdAt + 1000000 ≤ s.clk.now) then
    ok (drive n (modChan n (fun c => { c with shutAt := [] }) (clearDiag n 0x20 s)))
  else ok s

/-- The readback of a mode 4 channel may be compared now (R466). -/
def Chan.comparable (c : Chan) : Bool := c.cfg.mode == 4 && !(c.has 3 || c.has 4 || c.has 5 || c.has 7)

/-- Since when readback and command have stood as they do, within the time they are compared (R466). -/
def Chan.comparedSince (c : Chan) : Nat := max c.readbackAt c.cmpFrom

/-- READBACK_DISCREPANCY (R466, R467). -/
def execReadbackDiscrepancy (n : ChanId) (s : State) : Host.Outcome State Fault Refusal :=
  let c := chanOf s n
  if c.comparable && decide (c.comparedSince + 1000000 ≤ s.clk.now) then
    if c.cmd && !c.readback then ok (setDiag n 2 s)
    else if !c.cmd && c.readback && !c.cfg.wiredOr then ok (setDiag n 4 s)
    else ok s
  else ok s

/-- READBACK_DISCREPANCY_CLEAR (R466): each bit clears when its discrepancy has been absent for 1 ms. -/
def execReadbackDiscrepancyClear (n : ChanId) (s : State) : Host.Outcome State Fault Refusal :=
  let c := chanOf s n
  if max c.readbackAt c.cmdAt + 1000000 ≤ s.clk.now then
    let b : Byte := (if c.cmd && !c.readback then 0 else 2) ||| (if !c.cmd && c.readback then 0 else 4)
    if c.diag &&& b = 0 then ok s else ok (clearDiag n b s)
  else ok s

/-- Change one group of the field die; a change of its status byte is reported (R382). -/
def modGroup (g : Fin 4) (f : FieldGroup → FieldGroup) (s : State) : State :=
  let s1 := s.modFio fun x => { x with groups := vmod x.groups g f }
  if (f (s.fio.groups.get g)).status = (s.fio.groups.get g).status then s1 else reportPoints [96 + g.val] s1

/-- GROUP_OVERLOAD (R468): a current above 2.2 A for 100 ms sets the bit, with class 0x0507; a lower current clears it (log
entry 17). -/
def execGroupOverload (g : Fin 4) (r : Lasting W16) (s : State) : Host.Outcome State Fault Refusal :=
  let x := s.fio.groups.get g
  let above := decide (2200 < r.value.toNat) && (x.overload || decide (100000 ≤ r.us))
  let s1 := modGroup g (fun x => { x with ma := r.value, overload := above }) s
  if above && !x.overload then ok (event 0x0507 (det [(1, g.val), (2, r.value.toNat)]) s1) else ok s1

/-! ## Sag (R469, R470) -/

/-- SAG_LEVEL1 (R469): below 18 V for 1 ms. -/
def execSagLevel1 (g : Fin 4) (r : Lasting W16) (s : State) : Host.Outcome State Fault Refusal :=
  let s1 := modGroup g (fun x => { x with mv := r.value }) s
  if r.value.toNat < 18000 ∧ 1000 ≤ r.us ∧ !(s.fio.groups.get g).sag1 ∧ !(s.fio.groups.get g).sag2 then
    let s2 := (groupChans g).foldl (fun s n => setDiag n 0x80 s) (modGroup g (fun x => { x with sag1 := true }) s1)
    ok (event 0x0503 (det [(1, g.val), (1, 1)]) s2)
  else ok s1

/-- SAG_LEVEL2 (R469): below 12 V for 50 µs; the outputs of the group are switched off. -/
def execSagLevel2 (g : Fin 4) (r : Lasting W16) (s : State) : Host.Outcome State Fault Refusal :=
  let s1 := modGroup g (fun x => { x with mv := r.value }) s
  if r.value.toNat < 12000 ∧ 50 ≤ r.us ∧ !(s.fio.groups.get g).sag2 then
    let s2 := (groupChans g).foldl (fun s n => drive n (setDiag n 0x80 s)) (modGroup g (fun x => { x with sag2 := true }) s1)
    ok (event 0x0503 (det [(1, g.val), (1, 2)]) s2)
  else ok s1

/-- A channel of a restored group (R469, R470): an input takes its raw state, with an edge at this instant where it
changes; an output takes its present command, and its readback is compared anew. -/
def restoreChan (n : ChanId) (s : State) : State :=
  let s1 := modChan n (fun c => { c with cmpFrom := s.clk.now + 100000 }) (drive n (clearDiag n 0x80 s))
  let c := chanOf s1 n
  if c.cfg.input && c.raw != c.told then clearBreakOn n (takeState n c.raw s.clk.ct s.clk.ct s1)
  else if c.cfg.input && c.raw != c.state then reportPoints [n.val] (modChan n (fun c => { c with state := c.raw }) s1)
  else s1

/-- SAG_RESTORE (R469, R470): at or above 18 V for 10 ms after a sag. -/
def execSagRestore (g : Fin 4) (r : Lasting W16) (s : State) : Host.Outcome State Fault Refusal :=
  let s1 := modGroup g (fun x => { x with mv := r.value }) s
  let x := s.fio.groups.get g
  if 18000 ≤ r.value.toNat ∧ 10000 ≤ r.us ∧ (x.sag1 ∨ x.sag2) then
    let s2 := modGroup g (fun x => { x with sag1 := false, sag2 := false }) s1
    ok (event 0x0504 (det [(1, g.val)]) ((groupChans g).foldl (fun s n => restoreChan n s) s2))
  else ok s1

/-! ## The field set-up (R448 to R451) -/

/-- An entry of a staged set-up. -/
def chanCfgOf (bs : List Byte) (n : Nat) : ChanCfg :=
  let e := slice bs (16 + 8 * n) 8
  let f := rd e 1 1
  { mode := rd e 0 1, pulsed := f % 2 == 1, wireBreak := f / 2 % 2 == 1, wiredOr := f / 4 % 2 == 1,
    debounce := rd e 2 2, safe := rd e 4 1 }

/-- A channel takes its new entry (R450); its points are reported as they stand then. Only an unchanged MODE keeps the diagnostic bits of the
channel's own, so a new one clears them (DEDUCED, log entry 143). -/
def takeCfg (n : ChanId) (cfg : ChanCfg) (s : State) : State :=
  let old := (chanOf s n).cfg
  let s1 := modChan n (fun c => { c with cfg := cfg }) s
  if old.mode = cfg.mode then s1
  else
    let s2 := drive n (modChan n (fun c => { c with cmd := false, cmdAt := s.clk.now, cmpFrom := s.clk.now + 100000 }) (clearDiag n 0x7F s1))
    reportPoints [n.val, 32 + n.val] (if cfg.input then
      modChan n (fun c => { c with raw := c.land, rawSince := s.clk.now, rawCt := s.clk.ct, state := c.land, told := c.land }) s2
    else s2)

/-- The field die takes a committed set-up at X (R450). -/
def applySetup (bs : List Byte) (x : Nat) (s : State) : State :=
  let s1 := (allFin 32).foldl (fun s n => takeCfg n (chanCfgOf bs n.val) s)
    (s.modFio fun f => { f with setup := true, timeout := rd bs 2 2 })
  event 0x0509 (det [(8, x)]) s1

end Sys2Proof.Machine
end

