-- ==== Sys2Proof/Machine/Time.lean ====
section
/-! DEFINITION. The time island: chip time and its quality, and the parts of IEEE 802.1AS the spec names (R61 to R71, R649). -/

namespace Sys2Proof.Machine

/-- The largest rate correction of R62, 200 ppm, in parts per 10^12. -/
def rateLimit : Int := 200000000

/-- One nanosecond passes while no command waits (log entry 1): chip time advances at its corrected rate (R62, TIM_RATE),
and the operating time while VIN is present (R590). -/
def tick (s : State) : State :=
  s.modClk fun c =>
    let f := c.frac + s.tim.rate
    { now := c.now + 1, ct := ((c.ct : Int) + 1 + f / 1000000000000).toNat, frac := f % 1000000000000,
      opNs := if s.sys.vinPresent then c.opNs + 1 else c.opNs }

/-- The sync interval of TIM_PTP_CFG.LOG_SYNC, in ns (R69). -/
def syncInterval (s : State) : Nat :=
  1000000000 / 2 ^ ((16 - ((s.rws.timPtpCfg >>> 16) &&& 0xF#32).toNat) % 16)

/-- The port takes part in 802.1AS (TIM_PORT_EN). -/
def portEnabled (s : State) (p : PortId) : Bool := s.rws.timPortEn.getLsbD p.val

/-- The gPTP domain of the module, TIM_PTP_CFG.DOMAIN (R69). -/
def ptpDomain (s : State) : Nat := (s.rws.timPtpCfg >>> 24).toNat

/-- The effective role of TIM_CTRL.ROLE. In a pair R70 governs over it: the standby is an end station, and the active module can
be grandmaster, which ROLE 0b00 does not take from it (DEDUCED, log entry 121). -/
def timRole (s : State) : Nat :=
  let r := (s.rws.timCtrl &&& 3#32).toNat
  if pairMember s then (if hasAuthority s then (if r = 0 then 2 else r) else 0) else r

/-- A time-quality record (R77): old and new code, and the signed offset or step. -/
def qualityRecord (old new : Quality) (v : Int) (s : State) : State :=
  traceGen 7 0 0 (fields [(1, old.code), (1, new.code), (2, 0), (8, signedNat 64 v)]) s.clk.ct s

/-- The records stamped after `ct` take another quality code (R65). -/
def requalify (q : Quality) (ct : Nat) (l : List TraceRec) : List TraceRec :=
  updWhere (fun r => decide (ct < r.ct)) (fun r => { r with flags := BitVec.ofNat 8 (q.code * 64 + r.flags.toNat % 64) }) l

/-- Change the time quality: the record of R66 and class 0x0C03 of R91; nothing where it does not change. Records already
stamped with an instant to come take the new code (R65). -/
def setQuality (q : Quality) (v : Int) (s : State) : State :=
  if s.tim.quality = q then s
  else
    let old := s.tim.quality
    let s1 := s.modTim fun t =>
      { t with
        quality := q, codes := (s.clk.ct, s.tim.quality) :: t.codes.take 63, goodSyncs := 0,
        holdoverAt := match q with
          | .holdover => s.clk.now
          | _ => t.holdoverAt }
    event 0x0C03 (det [(1, old.code), (1, q.code)])
      (qualityRecord old q v (s1.modCmt fun c => { c with stage := requalify q s.clk.ct c.stage, recs := requalify q s.clk.ct c.recs }))

/-- Step chip time to `target` (R63): the time base counts it, and class 0x0C01 records it. -/
def stepTime (target : Nat) (s : State) : State :=
  let d : Int := (target : Int) - s.clk.ct
  let s1 := ((stepMeter target s).modClk fun c => { c with ct := target, frac := 0 }).modTim fun t =>
    { t with base := t.base + 1, slew := false, codes := [] }
  event 0x0C01 (det [(8, signedNat 64 d)])
    (s1.modFio fun x => { x with changes := x.changes.map fun c => { c with ct := min c.ct target } })

/-- The clock identity of the module: its base MAC address as an EUI-64 (log entry 5). -/
def ownIdentity (s : State) : W64 :=
  (s.fuse.mac.extractLsb' 24 24 ++ 0xFFFE#16 ++ s.fuse.mac.extractLsb' 0 24)

/-- The system identity the module announces for itself (R69, log entry 5). -/
def ownSystem (s : State) : PtpSystem :=
  { priority1 := s.rws.timPtpCfg.extractLsb' 0 8, clockClass := Config.ownClockClass,
    clockAccuracy := Config.ownClockAccuracy, variance := Config.ownClockVariance,
    priority2 := s.rws.timPtpCfg.extractLsb' 8 8, identity := ownIdentity s }

/-- The fields of a priority vector, most significant first; the smaller list is the better clock (IEEE 802.1AS-2020,
log entry 5). -/
def ptpKeys (p : PtpSystem) : List Nat :=
  [p.priority1.toNat, p.clockClass.toNat, p.clockAccuracy.toNat, p.variance.toNat, p.priority2.toNat, p.identity.toNat]

/-- The keys of what a port announces. -/
def announceKeys (a : PtpAnnounce) : List Nat := ptpKeys a.gm ++ [a.stepsRemoved.toNat, a.sourcePort.toNat]

/-- Lexicographic order of two lists of keys. -/
def keysBefore : List Nat → List Nat → Bool
  | a :: as, b :: bs => if a < b then true else if a = b then keysBefore as bs else false
  | _, _ => false

/-- A standby takes time from the active module alone (R70, R379); before it knows the active's clock, from none. -/
def fromActive (s : State) (a : PtpAnnounce) : Bool :=
  !pairMember s || hasAuthority s || s.pair.clockId == some a.gm.identity

/-- An Announce that may be used: received on an enabled port that is asCapable, from another clock, and fewer than 255
steps away (R69, log entry 5). -/
def usableAnnounce (s : State) (p : PortId) : Option PtpAnnounce :=
  let t := s.tim.ports.get p
  match t.announce with
  | some a =>
    if portEnabled s p && t.asCapable && a.gm.identity != ownIdentity s && decide (a.stepsRemoved.toNat < 255) && fromActive s a then some a
    else none
  | none => none

/-- The port with the best usable Announce, lower ports first among equals. -/
def bestPort (s : State) : Option (PortId × PtpAnnounce) :=
  (allFin 10).foldl (fun best p =>
    match usableAnnounce s p, best with
    | some a, some (_, b) => if keysBefore (announceKeys a) (announceKeys b) then some (p, a) else best
    | some a, none => some (p, a)
    | none, _ => best) none

/-- Grandmaster or not, and the port followed, as TIM_CTRL.ROLE and the BMCA choose them (R69 to R71). Under external port
configuration a Sync is followed on an enabled port that is asCapable; with SLAVE_PORT 0xF no port is a slave, and the module is
grandmaster (DESIGN CHOICE, log entry 122). -/
def chooseRole (s : State) : Bool × Option PortId :=
  match timRole s with
  | 0 => (false, (bestPort s).map (·.1))
  | 1 => (true, none)
  | 2 =>
    match bestPort s with
    | none => ((ownSystem s).priority1 != 255, none)
    | some (p, a) =>
      if (ownSystem s).priority1 != 255 && keysBefore (ptpKeys (ownSystem s)) (ptpKeys a.gm) then (true, none)
      else (false, some p)
  | _ =>
    match fin? 10 ((s.rws.timCtrl >>> 2) &&& 0xF#32).toNat with
    | some p => (false, if portEnabled s p && (s.tim.ports.get p).asCapable then some p else none)
    | none => (true, none)

/-- Follow another port, with class 0x0C05 where the port changes. -/
def followPort (p : Option PortId) (s : State) : State :=
  if s.tim.slavePort = p then s
  else
    event 0x0C05 (det [(1, 3), (1, match p with
      | some q => q.val
      | none => 0xFF)])
      (s.modTim fun t => { t with slavePort := p, goodSyncs := 0, lastSyncAt := s.clk.now })

/-- Take or give up the grandmaster role (R66): taking it makes the quality locked, giving it up makes locked holdover. -/
def setGrandmaster (g : Bool) (s : State) : State :=
  if s.tim.grandmaster = g then s
  else if g then
    setQuality .locked 0
      (event 0x0C05 (det [(1, 1), (1, 0xFF)]) (s.modTim fun t => { t with grandmaster := true, slew := false }))
  else
    let s1 := event 0x0C05 (det [(1, 2), (1, 0xFF)]) (s.modTim fun t => { t with grandmaster := false })
    if s1.tim.quality = .locked then setQuality .holdover s1.tim.offset s1 else s1

/-- Choose the role anew once chip time is seeded. -/
def selectRole (s : State) : State :=
  if s.tim.seeded then setGrandmaster (chooseRole s).1 (followPort (chooseRole s).2 s) else s

/-- The offset as TIM_OFFSET reports it: saturating at ±(2^31 − 1). -/
def satOffset (o : Int) : Int := clampInt (-2147483647) 2147483647 o

/-- The quality after a Sync with offset `o` (R66): eight in a row within 1 µs lock, one beyond 10 µs unlocks. -/
def syncQuality (o : Int) (s : State) : State :=
  match s.tim.quality with
  | .locked => if o.natAbs > 10000 then setQuality .holdover o s else s
  | _ =>
    if o.natAbs ≤ 1000 then
      if 7 ≤ s.tim.goodSyncs then setQuality .locked o s
      else s.modTim fun t => { t with goodSyncs := t.goodSyncs + 1 }
    else s.modTim fun t => { t with goodSyncs := 0 }

/-- A program runs in cycles: the time before its first cycle counts as time without a program (R63). -/
def inCycles (s : State) : Bool := runsProgram s && decide (s.tsk.anchor ≤ s.clk.ct)

/-- A Sync on the followed port: the offset, then a step of chip time where no program runs and the offset exceeds 1 ms
(R63), or else a slew at the servo's rate (R62). -/
def takeSync (o : Int) (s : State) : State :=
  let s1 := s.modTim fun t => { t with offset := satOffset o, lastSyncAt := s.clk.now }
  if !inCycles s && decide (o.natAbs > 1000000) then
    let s2 := stepTime (s1.clk.ct - o : Int).toNat (syncQuality o s1)
    qualityRecord s2.tim.quality s2.tim.quality (-o) s2
  else
    let s2 := s1.modTim fun t =>
      { t with rate := clampInt (-rateLimit) rateLimit (Config.servoRate s1.free o t.rate), slew := decide (o ≠ 0) }
    syncQuality o (s2.modFree (· + 1))

/-- An Announce on a port (R69): kept where the port takes part. -/
def keepAnnounce (p : PortId) (a : PtpAnnounce) (s : State) : State :=
  if portEnabled s p && (s.tim.ports.get p).asCapable then
    s.modTim fun t => { t with ports := vmod t.ports p fun x => { x with announce := some a, announceAt := s.clk.now } }
  else s

/-- TAI − UTC and the offset to an external grandmaster go to a synchronised standby (R384). -/
def mirrorTime (s : State) : State := mirror (.taiUtc s.rwp.taiUtc s.tim.offset) s

/-- TIM_TAI_UTC follows a valid offset of the grandmaster while chip time is locked (R64); the change is mirrored (R384). -/
def takeUtcOffset (p : PortId) (a : PtpAnnounce) (s : State) : State :=
  if s.tim.quality = .locked ∧ s.tim.slavePort = some p ∧ a.utcValid ∧ s.rwp.taiUtc ≠ a.utcOffset.setWidth 32 then
    mirrorTime (rwpSet (fun r => { r with taiUtc := a.utcOffset.setWidth 32 }) s)
  else s

/-- ANNOUNCE_RECEIVED (R69, R71, R64); one of another gPTP domain is ignored. -/
def execAnnounceReceived (p : PortId) (m : InDomain PtpAnnounce) (s : State) : Host.Outcome State Fault Refusal :=
  if m.domain = ptpDomain s then ok (takeUtcOffset p m.value (selectRole (keepAnnounce p m.value s))) else ok s

/-- SYNC_RECEIPT_TIMEOUT (R66, R69): three sync intervals without a Sync take locked into holdover and age the port's
Announce. -/
def execSyncReceiptTimeout (s : State) : Host.Outcome State Fault Refusal :=
  if s.tim.quality = .locked ∧ !s.tim.grandmaster ∧ s.tim.lastSyncAt + 3 * syncInterval s ≤ s.clk.now then
    let s1 := setQuality .holdover s.tim.offset s
    match s.tim.slavePort with
    | some p => ok (selectRole (s1.modTim fun t => { t with ports := vmod t.ports p fun x => { x with announce := none } }))
    | none => ok (selectRole s1)
  else ok s

/-- HOLDOVER_EXPIRY (R66): TIM_HOLDOVER seconds after holdover began the quality is free-running. -/
def execHoldoverExpiry (s : State) : Host.Outcome State Fault Refusal :=
  if s.tim.quality = .holdover ∧
      s.tim.holdoverAt + (s.rws.timHoldover &&& 0xFFF#32).toNat * 1000000000 ≤ s.clk.now then
    ok (selectRole (setQuality .free s.tim.offset s))
  else ok s

/-- Chip time set by the host while no program runs (R63, R66): locked while grandmaster, free-running otherwise. -/
def hostSetTime (target : Nat) (s : State) : State :=
  let old := s.tim.quality
  let new : Quality := if s.tim.grandmaster then .locked else .free
  let d : Int := (target : Int) - s.clk.ct
  let s1 := (stepTime target s).modTim fun t => { t with source := 2 }
  if old = new then qualityRecord old new d s1 else setQuality new d s1

/-- A write of TIM_SET_HI completes the pair, with 0 for a low word that was not written (R12, R63). -/
def writeTimSet (hi : W32) (s : State) : State :=
  let target := hi.toNat * 4294967296 + ((assoc? 0x4018 s.bar.held).getD 0).toNat
  let s1 := s.modBar fun b => { b with held := b.held.filter fun x => x.1 != 0x4018 }
  if inCycles s then event 0x0C02 (det [(8, target)]) s1
  else selectRole (hostSetTime target s1)

/-- TIM_SET (R12, R63). -/
def execTimSet (hi : W32) (s : State) : Host.Outcome State Fault Refusal := ok (writeTimSet hi s)

/-- REFCLK_FAULT_SET (R649). -/
def execRefclkFaultSet (s : State) : Host.Outcome State Fault Refusal :=
  let s1 := s.modTim fun t => { t with refFault := true, refBadSince := some s.clk.now }
  if s.tim.refFault then ok s1 else ok (event 0x0C04 (det [(1, 1)]) s1)

/-- REFCLK_FAULT_CLEAR (R649): one second after the last fault condition. -/
def execRefclkFaultClear (s : State) : Host.Outcome State Fault Refusal :=
  if s.tim.refFault ∧ s.tim.refBadSince.getD 0 + 1000000000 ≤ s.clk.now then
    ok (event 0x0C04 (det [(1, 0)]) (s.modTim fun t => { t with refFault := false, refBadSince := none }))
  else ok s

/-- ANNOUNCE_RECEIPT_TIMEOUT (R69): three announce intervals of 1 s without an Announce age the port's Announce. -/
def execAnnounceReceiptTimeout (p : PortId) (s : State) : Host.Outcome State Fault Refusal :=
  let x := s.tim.ports.get p
  if x.announce.isSome ∧ x.announceAt + 3000000000 ≤ s.clk.now then
    ok (selectRole (s.modTim fun t => { t with ports := vmod t.ports p fun x => { x with announce := none } }))
  else ok s

/-- Answer a peer-delay request, with the instant at which the answer leaves in the follow-up (R69). -/
def answerPdelay (p : PortId) (seq : W16) (s : State) : State :=
  emit (.pdelayFollowUp p seq s.clk.ct) (emit (.pdelayResp p seq s.clk.ct) s)

/-- The answers that waited on the ports of a ring leave in gate time (R342). -/
def flushPdelay (r : StraitId) (s : State) : State :=
  ((allFin 10).filter fun p => portRing p == some r).foldl (fun s p =>
    (s.tim.ports.get p).respDue.foldl (fun s q => answerPdelay p q s)
      (s.modTim fun t => { t with ports := vmod t.ports p fun x => { x with respDue := [] } })) s

/-- PDELAY_MESSAGE_RECEIVED (R69): a request is answered, on a ring port in gate time (R342); a finished measurement decides whether the
port is asCapable against neighborPropDelayThresh, 800 ns. -/
def execPdelayMessageReceived (p : PortId) (m : PdelayMessage) (s : State) : Host.Outcome State Fault Refusal :=
  if portEnabled s p then
    match m with
    | .request seq =>
      if portClosed s p then ok (s.modTim fun t => { t with ports := vmod t.ports p fun x => { x with respDue := x.respDue ++ [seq] } })
      else ok (answerPdelay p seq s)
    | .measured ns =>
      ok (selectRole (s.modTim fun t =>
        { t with ports := vmod t.ports p fun x => { x with delay := ns, asCapable := decide (ns ≤ 800) } }))
  else ok s

/-- The port sends Sync and Announce: it is asCapable, is not the port followed, and the module is grandmaster or relays
(R69). -/
def sendsTime (s : State) (p : PortId) : Bool :=
  portEnabled s p && (s.tim.ports.get p).asCapable && decide (s.tim.slavePort ≠ some p) &&
    (s.tim.grandmaster || (s.tim.slavePort.isSome && timRole s != 0))

/-- What the module announces: its own clock as grandmaster, else the clock it follows, one step further away (R69, log entry
5). -/
def announceMsg (s : State) (p : PortId) : PtpAnnounce :=
  let src : BitVec 80 := ownIdentity s ++ BitVec.ofNat 16 (p.val + 1)
  match s.tim.slavePort.bind fun q => (s.tim.ports.get q).announce with
  | some a =>
    if s.tim.grandmaster then
      { gm := ownSystem s, stepsRemoved := 0, sourcePort := src, utcOffset := s.rwp.taiUtc.setWidth 16, utcValid := Config.ownUtcValid }
    else { a with stepsRemoved := a.stepsRemoved + 1, sourcePort := src }
  | none =>
    { gm := ownSystem s, stepsRemoved := 0, sourcePort := src, utcOffset := s.rwp.taiUtc.setWidth 16, utcValid := Config.ownUtcValid }

/-- PTP_MESSAGE_TRANSMIT (R69): the message of the stated kind, where its interval has passed on the port, on a ring port in gate
time (R342). -/
def execPtpMessageTransmit (p : PortId) (k : PtpKind) (s : State) : Host.Outcome State Fault Refusal :=
  let x := s.tim.ports.get p
  if portClosed s p then ok s
  else match k with
  | .sync =>
    if sendsTime s p && decide (x.syncSentAt + syncInterval s ≤ s.clk.now) then
      ok (emit (.ptpFollowUp p (ptpDomain s) x.syncSeq s.clk.ct) (emit (.ptp p .sync (ptpDomain s) x.syncSeq) (s.modTim fun t =>
        { t with ports := vmod t.ports p fun x => { x with syncSeq := x.syncSeq + 1, syncSentAt := s.clk.now } })))
    else ok s
  | .announce =>
    if sendsTime s p && decide (x.announceSentAt + 1000000000 ≤ s.clk.now) then
      ok (emit (.ptpAnnounce p (ptpDomain s) x.announceSeq (announceMsg s p)) (s.modTim fun t =>
        { t with ports := vmod t.ports p fun x => { x with announceSeq := x.announceSeq + 1, announceSentAt := s.clk.now } }))
    else ok s
  | .pdelayReq =>
    if portEnabled s p && decide (x.pdelaySentAt + 1000000000 ≤ s.clk.now) then
      ok (emit (.ptp p .pdelayReq (ptpDomain s) x.pdelaySeq) (s.modTim fun t =>
        { t with ports := vmod t.ports p fun x => { x with pdelaySeq := x.pdelaySeq + 1, pdelaySentAt := s.clk.now } }))
    else ok s

end Sys2Proof.Machine
end

