-- ==== Sys2Proof/Machine/Safe.lean ====
section
/-! DEFINITION. Voter modes, pair states and the entry to SAFE_TALK (R276, R363, R599, R600). -/

namespace Sys2Proof.Machine

/-- The lanes in service as bits, bit 0 lane A. -/
def lanesMask (s : State) : Nat := ((lanesIn s).map fun l => 2 ^ l.val).sum

/-- Change the voter's mode, with class 0x010E (R276, R301). -/
def setMode (m : Nat) (s : State) : State :=
  if s.vot.mode = m then s
  else event 0x010E (det [(1, s.vot.mode), (1, m), (1, lanesMask s)]) (s.modVot fun v => { v with mode := m })

/-- Change the pair state, with class 0x0301 (R363, R403). -/
def setPairState (p : PairState) (s : State) : State :=
  if s.pair.state = p then s
  else event 0x0301 (det [(1, s.pair.state.code), (1, p.code)])
    (s.modPair fun x => { x with state := p, changedCt := s.clk.ct })

/-- Stop toggling ILK_OUT (R369). -/
def stopToggling (s : State) : State :=
  if s.pair.toggling then emit (.ilkOut false) (s.modPair fun x => { x with toggling := false }) else s

/-- Start toggling ILK_OUT (R371). -/
def startToggling (s : State) : State :=
  if s.pair.toggling then s
  else emit (.ilkOut true) (s.modPair fun x => { x with toggling := true, toggleSince := s.clk.now })

/-- The host triggers that still wait for a release end with a status (R217, R424). -/
def endTriggers (st : Byte) (s : State) : State :=
  let ts := (s.tsk.run.toList.flatMap fun x => x.triggers)
  let s1 := s.modTsk fun k => { k with run := k.run.map fun x => { x with due := none, triggers := [] } }
  ts.foldl (fun s x => endDesc x.1.1 x.1.2 (doneWith st 0) s) s1

/-- Every release, event and stop in progress is dropped: nothing runs any more. -/
def dropReleases (s : State) : State :=
  let s1 := s.modTsk fun k => { k with rels := [], raw := [], tails := [], stopAt := none, stopper := none }
  let s2 := s1.modLanes fun v => v.map fun l =>
    { l with
      buffer := [], queue := [], owed := [], run := Vector.replicate 4 none,
      ctx := l.ctx.map fun c => { c with phase := .idle, inErr := false, aborted := false } }
  s2.modWdg fun w => { w with chans := [] }

/-- A STOP that waits ends with SAFE_TALK: STOPPED is not entered any more. -/
def endStopper (s : State) : State :=
  match s.tsk.stopper with
  | some (q, n) => endDesc q n (doneWith stSafeTalk 0) s
  | none => s

/-- The rings of a transaction that is given up get an ABORT (R353). -/
def abortRings (s : State) : State :=
  (allFin 4).foldl (fun s r =>
    match (s.net.rings.get r).mode with
    | some m =>
      if m.numbering.isNone ∧ m.decided = none then
        event 0x0209 (det [(1, r.val), (1, ((m.required.find? fun n => !m.acked.contains n).getD 0xFF)), (2, m.newM.toNat)])
          (s.modNet fun n => { n with rings := vmod n.rings r fun x => { x with mode := some { m with decided := some false } } })
      else s
    | none => s) s

/-- The open transaction ends without effect: its staged values are dropped, and a staged switch counts as failed (R15,
R257). -/
def dropTxn (status reason : Nat) (s : State) : State :=
  let s1 := if s.txn.switch.isSome then s.modPrg fun p => { p with failed := satInc p.failed 1 } else s
  s1.modTxn fun t =>
    { t with
      phase := .none, objs := [], rws := [], switch := none, required := [], acked := [], apply := none, lastTxn := t.num,
      lastStatus := BitVec.ofNat 8 status, lastReason := BitVec.ofNat 8 reason }

/-- The abort of a transaction that is applying (R439, R440): kind of the first unit that did not acknowledge, lane or ring,
and station. -/
def abortTxn (kind who station : Nat) (s : State) : State :=
  let s1 := event 0x0407 (det [(1, kind), (1, who), (1, station)]) (abortRings s)
  let s2 := dropTxn stAborted.toNat kind s1
  match s.txn.apply with
  | some n => endDesc s.txn.owner n (doneWith stAborted (kind + who * 256 + station * 65536)) s2
  | none => s2

/-- SAFE_TALK entered before D_T aborts the transaction (R442). -/
def safeTalkTxn (s : State) : State :=
  match s.txn.phase with
  | .applying => abortTxn 0 0 0 s
  | _ => s

/-- The module of a pair gives up authority on entering SAFE_TALK, and with it the grandmaster role (R364, R388, R600). -/
def pairSafeTalk (s : State) : State :=
  if pairMember s then selectRole (setPairState .safeTalk (stopToggling (pairSend .relinquish s))) else s

/-- SYS_SAFE and SYS_RUN_STATE on entering SAFE_TALK; a fuse fault keeps cause 10 (R595). -/
def markSafeTalk (cause : Nat) (s : State) : State :=
  s.modSys fun y =>
    { y with run := .safeTalk, safeCause := if y.safeCause = 10 then 10 else cause, safeCt := s.clk.ct }

/-- Enter SAFE_TALK for a cause of R599, in the steps of R600. -/
def enterSafeTalk (cause : Nat) (s : State) : State :=
  if s.sys.run = .safeTalk then s
  else
    let s1 := safeTalkTxn (dropReleases (endTriggers stSafeTalk (endStopper (setMode 3 s))))
    let s2 := markSafeTalk cause (pairSafeTalk (allSafe s1))
    raise 32 (event 0x0A03 (det [(1, s2.sys.safeCause)]) s2)

end Sys2Proof.Machine
end

