-- ==== Sys2Proof/Machine/Units.lean ====
section
/-! DEFINITION. The move instruction set and the function units of a logic engine, on a working copy of one context and its lane's data
partition (R92 to R171). -/

namespace Sys2Proof.Machine

/-! ## The working copy -/

/-- A forced internal variable, resolved to its place: KIND, LOCATION and value (R206, R128). -/
structure Forced where
  kind : Nat
  loc : Nat
  value : List Byte
  deriving DecidableEq, Repr

/-- What the units see besides their context: the release, the points that the lane's snapshot buffer holds of it (R164), the task's own
entry, the forced variables, the tables. -/
structure EngEnv where
  rel : Release
  snap : List (W32 × IoValue)
  entry : TaskEntry
  forced : List Forced
  tables : Vector Table 16
  deriving DecidableEq, Repr

/-- The working copy of an engine: the context, the lane's scratchpad and `start` as it stood at the start of the present cycle, which
is what reads of the cycle see (R104, R126), the lines written (R283), the record counters of the owner's release
(R266, R268), the records emitted and the damaged buckets met, newest last. -/
structure Eng where
  ctx : Ctx
  mem : Memory
  start : Memory
  wrote : List Nat
  index : Nat
  effects : Nat
  digest : W64
  recs : List EffRec
  dmg : List (Nat × Nat × Nat)
  deriving DecidableEq, Repr

/-- The outcome of a trigger: a fault code (R115, R170) or the working copy after it. -/
abbrev EngResult := Except Nat Eng

/-! ## Ports (R92, R107, R108) -/

/-- The kinds of port of R92. -/
inductive PortKind
  | operand | trigger | result
  deriving DecidableEq, Repr

/-- The port map of R108; `none` for an unassigned or reserved port. -/
def portKind (p : Nat) : Option PortKind :=
  if p ≤ 0x3F then some .operand
  else if p = 0x100 then some .operand
  else if p = 0x101 then some .result
  else if 0x110 ≤ p ∧ p ≤ 0x121 then some .trigger
  else if p = 0x140 ∨ p = 0x141 then some .result
  else if 0x150 ≤ p ∧ p ≤ 0x15C then some .trigger
  else if p = 0x180 ∨ p = 0x181 then some .operand
  else if p = 0x182 ∨ p = 0x183 then some .result
  else if 0x190 ≤ p ∧ p ≤ 0x194 then some .trigger
  else if p = 0x1C0 then some .operand
  else if p = 0x1C1 then some .result
  else if p = 0x1D0 ∨ p = 0x1D1 then some .trigger
  else if 0x200 ≤ p ∧ p ≤ 0x203 then some .operand
  else if p = 0x204 then some .result
  else if 0x210 ≤ p ∧ p ≤ 0x213 then some .trigger
  else if p = 0x240 then some .operand
  else if 0x244 ≤ p ∧ p ≤ 0x24B then some .result
  else if 0x250 ≤ p ∧ p ≤ 0x253 then some .trigger
  else if p = 0x280 then some .operand
  else if p = 0x281 ∨ p = 0x282 then some .result
  else if p = 0x290 ∨ p = 0x291 then some .trigger
  else if p = 0x2C0 ∨ p = 0x2C1 then some .operand
  else if p = 0x2C2 then some .result
  else if 0x2D0 ≤ p ∧ p ≤ 0x2D7 then some .trigger
  else if 0x300 ≤ p ∧ p ≤ 0x303 then some .trigger
  else if p = 0x304 then some .operand
  else if p = 0x305 then some .result
  else if 0x340 ≤ p ∧ p ≤ 0x342 then some .result
  else if p = 0x348 then some .trigger
  else if 0x380 ≤ p ∧ p ≤ 0x387 then some .result
  else none

/-- A move may read the port (R92). -/
def portReadable (p : Nat) : Bool := portKind p == some .operand || portKind p == some .result

/-- A move may write the port (R92). -/
def portWritable (p : Nat) : Bool := portKind p == some .operand || portKind p == some .trigger

/-- The unit of a trigger port, numbered in the order of R107: 0 ALU, 1 bit, 2 timer, 3 edge, 4 block, 5 table, 6 image,
7 load/store, 8 branch, 9 task. -/
def unitOf (p : Nat) : Nat :=
  if p < 0x140 then 0 else if p < 0x180 then 1 else if p < 0x1C0 then 2 else if p < 0x200 then 3
  else if p < 0x240 then 4 else if p < 0x280 then 5 else if p < 0x2C0 then 6 else if p < 0x300 then 7
  else if p < 0x340 then 8 else 9

/-- The feature registers FEAT0 to FEAT7 of a logic engine (R122). -/
def featWord : Nat → W32
  | 0 => 0x01000440
  | 1 => 0x000003FF
  | 2 => 0x0003FFFF
  | 3 => 0x03101FFF
  | 4 => 0x000F0F1F
  | 5 => 0x00304B04
  | 6 => 0x04040440
  | _ => 0

/-! ## Results (R93) -/

/-- The value a result port shows in context cycle `c`. -/
def ResultPort.readAt (r : ResultPort) (c : Nat) : W64 :=
  ((r.pend.filter fun x => x.1 ≤ c).getLast?.map (·.2)).getD r.val

/-- A result of a trigger in cycle `t` that becomes readable in cycle `t + latency`. -/
def ResultPort.push (r : ResultPort) (t latency : Nat) (v : W64) : ResultPort :=
  { val := r.readAt t, pend := (r.pend.filter fun x => t < x.1) ++ [(t + latency, v)] }

/-- Every result on its way completed (R120). -/
def ResultPort.complete (r : ResultPort) : ResultPort :=
  { val := (r.pend.getLast?.map (·.2)).getD r.val, pend := [] }

/-- Status and value of a lookup slot in context cycle `c` (R152, R153). -/
def TblSlot.readAt (x : TblSlot) (c : Nat) : Nat × W64 :=
  match x.flight with
  | some (done, st, v) => if done ≤ c then (st, v) else (1, 0)
  | none => (x.status, x.value)

/-! ## Data memory (R33, R125 to R130) -/

/-- The offset of the data partition in a scratchpad (R33). -/
def dataBase : Nat := 0x800000

/-- The size of the data partition (R33). -/
def dataSize : Nat := 0x400000

/-- `n` bytes of the data partition, as a number. -/
def dataNat (m : Memory) (off n : Nat) : Nat := memNat m (dataBase + off) n

/-- Write bytes into the data partition, past the force filter. -/
def dataWrite (m : Memory) (off : Nat) (bs : List Byte) : Memory := memWrite m (dataBase + off) bs

/-- Bit `n` of a byte set to `v`. -/
def setBit8 (b : Byte) (n : Nat) (v : Bool) : Byte :=
  if v then b ||| (1#8 <<< n) else b &&& ~~~ (1#8 <<< n)

/-- The byte that the force filter lets through to offset `off` (R128, R207): a forced byte variable gives its forced
byte, a forced bit variable its forced bit. -/
def filterByte (fs : List Forced) (off : Nat) (b : Byte) : Byte :=
  fs.foldl (fun b f =>
    if f.kind = 2 then
      if f.loc ≤ off ∧ off < f.loc + f.value.length then (f.value.getD (off - f.loc) b) else b
    else if f.loc / 8 = off then setBit8 b (f.loc % 8) (f.value.head? != some 0) else b) b

/-- The bytes that the force filter lets through from offset `off` up. -/
def filterBytes (fs : List Forced) : Nat → List Byte → List Byte
  | _, [] => []
  | off, b :: bs => filterByte fs off b :: filterBytes fs (off + 1) bs

/-- Write bytes into the data partition through the force filter (R128). -/
def dataWriteF (fs : List Forced) (m : Memory) (off : Nat) (bs : List Byte) : Memory :=
  dataWrite m off (filterBytes fs off bs)

/-- The lines of 256 bytes that `n` bytes from an offset lie in (R283). -/
def linesOf (off n : Nat) : List Nat := if n = 0 then [] else (List.range ((off + n - 1) / 256 - off / 256 + 1)).map (off / 256 + ·)

/-- An engine writes bytes into the data partition, past the force filter. -/
def Eng.put (off : Nat) (bs : List Byte) (g : Eng) : Eng :=
  { g with mem := dataWrite g.mem off bs, wrote := g.wrote ++ linesOf off bs.length }

/-- An engine writes bytes into the data partition through the force filter (R128). -/
def Eng.putF (fs : List Forced) (off : Nat) (bs : List Byte) (g : Eng) : Eng := g.put off (filterBytes fs off bs)

/-- Timer write-backs due by context cycle `t` reach the data partition (R136). -/
def Eng.flush (t : Nat) (g : Eng) : Eng :=
  (g.ctx.timerWb.filter fun x => x.1 ≤ t).foldl (fun g x => g.put x.2.1 x.2.2)
    { g with ctx := { g.ctx with timerWb := g.ctx.timerWb.filter fun x => t < x.1 } }

/-- The bit at a bit address (R130). -/
def dataBit (m : Memory) (a : Nat) : Bool := (memGet (dataBase + a / 8) m).getLsbD (a % 8)

/-- The bit address in B[24:0] (R130). -/
def bitAddr (b : W64) : Nat := b.toNat % 0x2000000

/-! ## ALU (R129) -/

/-- `1` or `0`. -/
def flag64 (b : Bool) : W64 := if b then 1 else 0

/-- The ALU operation of a trigger port on A and B. -/
def aluOp (p : Nat) (a b : W64) : W64 :=
  let n := b.toNat % 64
  match p with
  | 0x110 => a + b
  | 0x111 => a - b
  | 0x112 => a &&& b
  | 0x113 => a ||| b
  | 0x114 => a ^^^ b
  | 0x115 => a <<< n
  | 0x116 => a >>> n
  | 0x117 => a.sshiftRight n
  | 0x118 => a * b
  | 0x119 => flag64 (a == b)
  | 0x11A => flag64 (a != b)
  | 0x11B => flag64 (a.slt b)
  | 0x11C => flag64 (a.ult b)
  | 0x11D => flag64 (a.sle b)
  | 0x11E => flag64 (a.ule b)
  | 0x11F => if a.sle b then a else b
  | 0x120 => if a.sle b then b else a
  | _ => b

/-- The ALU's part of a trigger. -/
def aluTrig (p : Nat) (b : W64) (g : Eng) : EngResult :=
  .ok { g with ctx := { g.ctx with aluRes := g.ctx.aluRes.push g.ctx.cyc 1 (aluOp p g.ctx.aluA b) } }

/-! ## Bit unit (R130 to R134) -/

/-- Enter a new accumulator and stack, readable in BIT_ACC and BIT_DEPTH from the next context cycle (R131). -/
def setAcc (acc : Bool) (stack : List (Bool × Nat)) (c : Ctx) : Ctx :=
  { c with
    acc := acc, stack := stack, bitAcc := c.bitAcc.push c.cyc 1 (flag64 acc),
    bitDepth := c.bitDepth.push c.cyc 1 (BitVec.ofNat 64 stack.length) }

/-- The operations a bracket may select (R132): 1 AND, 2 OR, 3 XOR, 4 AND-NOT, 5 OR-NOT. -/
def bracketOp (op : Nat) (a acc : Bool) : Bool :=
  match op with
  | 1 => a && acc
  | 2 => a || acc
  | 3 => xor a acc
  | 4 => a && !acc
  | _ => a || !acc

/-- The accumulator after a bit read (R131). -/
def bitOp (p : Nat) (acc x : Bool) : Bool :=
  match p with
  | 0x150 => x
  | 0x151 => acc && x
  | 0x152 => acc || x
  | 0x153 => xor acc x
  | 0x154 => acc && !x
  | _ => acc || !x

/-- Write one bit through the force filter: the addressed byte is read, changed and written back (R131, R128). -/
def writeBit (fs : List Forced) (m : Memory) (a : Nat) (v : Bool) : Memory :=
  dataWriteF fs m (a / 8) [setBit8 (memGet (dataBase + a / 8) m) (a % 8) v]

/-- An engine writes one bit through the force filter; the byte is read as it stood at the start of the cycle (R126, R131). -/
def Eng.putBit (fs : List Forced) (a : Nat) (v : Bool) (g : Eng) : Eng :=
  g.putF fs (a / 8) [setBit8 (memGet (dataBase + a / 8) g.start) (a % 8) v]

/-- The bit unit's part of a trigger. -/
def bitTrig (env : EngEnv) (p : Nat) (b : W64) (g : Eng) : EngResult :=
  let c := g.ctx
  let a := bitAddr b
  if p ≤ 0x155 then .ok { g with ctx := setAcc (bitOp p c.acc (dataBit g.start a)) c.stack c }
  else if p = 0x156 then
    if b.toNat < 1 ∨ 5 < b.toNat then .error 0x13
    else if 16 ≤ c.stack.length then .error 0x11
    else .ok { g with ctx := setAcc true ((c.acc, b.toNat) :: c.stack) c }
  else if p = 0x157 then
    match c.stack with
    | [] => .error 0x12
    | (x, op) :: r => .ok { g with ctx := setAcc (bracketOp op x c.acc) r c }
  else if p = 0x158 then .ok ({ g with ctx := setAcc c.acc c.stack c }.putBit env.forced a c.acc)
  else if p = 0x159 then .ok ({ g with ctx := setAcc c.acc c.stack c }.putBit env.forced a (c.acc || dataBit g.start a))
  else if p = 0x15A then .ok ({ g with ctx := setAcc c.acc c.stack c }.putBit env.forced a (!c.acc && dataBit g.start a))
  else if p = 0x15B then .ok { g with ctx := setAcc (!c.acc) c.stack c }
  else .ok { g with ctx := setAcc (b != 0) c.stack c }

/-! ## Timer unit (R135 to R138) -/

/-- A timer instance (R135): STATE 0 idle, 1 running, 2 done, 3 held. -/
structure TimerInst where
  start : Nat
  acc : Nat
  state : Nat
  deriving DecidableEq, Repr

/-- What a timer call delivers: the instance, Q and ET. -/
structure TimerOut where
  inst : TimerInst
  q : Bool
  et : Nat
  deriving DecidableEq, Repr

/-- The instance at a data offset. -/
def timerAt (m : Memory) (off : Nat) : TimerInst :=
  { start := dataNat m off 8, acc := dataNat m (off + 8) 8 % 2 ^ 62, state := dataNat m (off + 8) 8 / 2 ^ 62 }

/-- The 16 bytes of an instance. -/
def TimerInst.bytes (i : TimerInst) : List Byte := fields [(8, i.start), (8, i.acc + i.state * 2 ^ 62)]

/-- An instance running since later than now starts now (R137). -/
def TimerInst.rebase (now : Nat) (i : TimerInst) : TimerInst :=
  if i.state = 1 ∧ now < i.start then { i with start := now } else i

/-- TON (R137). -/
def timerTon (now pt : Nat) (inp : Bool) (i : TimerInst) : TimerOut :=
  if !inp then { inst := { i with state := 0 }, q := false, et := 0 }
  else if i.state = 2 then { inst := i, q := true, et := pt }
  else
    let r := if i.state = 0 then { i with start := now, state := 1 } else i
    if pt ≤ now - r.start then { inst := { r with state := 2 }, q := true, et := min (now - r.start) pt }
    else { inst := r, q := false, et := min (now - r.start) pt }

/-- TOF (R137). -/
def timerTof (now pt : Nat) (inp : Bool) (i : TimerInst) : TimerOut :=
  if inp then { inst := { i with state := 3 }, q := true, et := 0 }
  else if i.state = 0 then { inst := i, q := false, et := 0 }
  else if i.state = 2 then { inst := i, q := false, et := pt }
  else
    let r := if i.state = 3 then { i with start := now, state := 1 } else i
    if pt ≤ now - r.start then { inst := { r with state := 2 }, q := false, et := min (now - r.start) pt }
    else { inst := r, q := true, et := min (now - r.start) pt }

/-- TP (R137). -/
def timerTp (now pt : Nat) (inp : Bool) (i : TimerInst) : TimerOut :=
  if i.state = 2 then
    if inp then { inst := i, q := false, et := pt } else { inst := { i with state := 0 }, q := false, et := 0 }
  else if i.state = 0 ∧ !inp then { inst := i, q := false, et := 0 }
  else
    let r := if i.state = 0 then { i with start := now, state := 1 } else i
    if pt ≤ now - r.start then
      if inp then { inst := { r with state := 2 }, q := false, et := pt }
      else { inst := { r with state := 0 }, q := false, et := 0 }
    else { inst := r, q := true, et := now - r.start }

/-- TACC (R137); ACC saturates at 2^62 − 1 (R135). -/
def timerTacc (now pt : Nat) (inp : Bool) (i : TimerInst) : TimerOut :=
  if inp then
    let r := if i.state = 0 then { i with start := now, state := 1 } else i
    let t := r.acc + (now - r.start)
    { inst := r, q := decide (pt ≤ t), et := min t pt }
  else if i.state = 1 then
    let a := min (2 ^ 62 - 1) (i.acc + (now - i.start))
    { inst := { i with acc := a, state := 0 }, q := decide (pt ≤ a), et := min a pt }
  else { inst := i, q := decide (pt ≤ i.acc), et := min i.acc pt }

/-- One timer call, or its fault (R137, R138). -/
def timerCall (p now pt : Nat) (inp : Bool) (i0 : TimerInst) : Except Nat TimerOut :=
  let i := i0.rebase now
  match p with
  | 0x190 => if i0.state = 3 then .error 0x15 else .ok (timerTon now pt inp i)
  | 0x191 => .ok (timerTof now pt inp i)
  | 0x192 => if i0.state = 3 then .error 0x15 else .ok (timerTp now pt inp i)
  | 0x193 => if i0.state = 3 ∨ i0.state = 2 then .error 0x15 else .ok (timerTacc now pt inp i)
  | _ => .ok { inst := { start := 0, acc := 0, state := 0 }, q := false, et := 0 }

/-- The timer unit's part of a trigger: read now, written back and readable later (R136). -/
def tmrTrig (env : EngEnv) (p : Nat) (b : W64) (g : Eng) : EngResult :=
  let c := g.ctx
  let off := c.tmrInst.toNat % 0x400000
  if off % 16 ≠ 0 then .error 0x14
  else
    match timerCall p (env.rel.ct % 2 ^ 64) c.tmrPreset.toNat (b != 0) (timerAt g.start off) with
    | .error f => .error f
    | .ok o =>
      .ok { g with ctx := { c with
        tmrQ := c.tmrQ.push c.cyc 2 (flag64 o.q), tmrEt := c.tmrEt.push c.cyc 2 (BitVec.ofNat 64 o.et),
        timerWb := c.timerWb ++ [(c.cyc + 1, off, o.inst.bytes)] } }

/-! ## Edge unit (R139) -/

/-- The edge unit's part of a trigger; its memory bit is no program variable, so no force applies (R128). -/
def edgTrig (p : Nat) (b : W64) (g : Eng) : EngResult :=
  let c := g.ctx
  let a := bitAddr c.edgInst
  let m := dataBit g.start a
  let x := b != 0
  let q := if p = 0x1D0 then x && !m else !x && m
  .ok ({ g with ctx := { c with edgQ := c.edgQ.push c.cyc 1 (flag64 q) } }.put (a / 8)
    [setBit8 (memGet (dataBase + a / 8) g.start) (a % 8) x])

/-! ## Block unit (R140 to R144) -/

/-- The faults of a block trigger (R144), or the operation begun: BLK_RES starts at 0, and the elements follow from the
next context cycle (R141). -/
def blkTrig (p : Nat) (b : W64) (g : Eng) : EngResult :=
  let c := g.ctx
  let n := c.blkSize.toNat
  let src := decide (p ≠ 0x211)
  let dst := decide (p ≠ 0x213)
  if n ≠ 1 ∧ n ≠ 2 ∧ n ≠ 4 ∧ n ≠ 8 then .error 0x17
  else if (src ∧ c.blkSrc.toNat % n ≠ 0) ∨ (dst ∧ c.blkDst.toNat % n ≠ 0) then .error 0x17
  else .ok { g with ctx := { c with blkRes := 0, blk := some (p, b, c.pc) } }

/-- The end of a block operation that has run through (R141, R143). -/
def blkEnd (p : Nat) (c : Ctx) : Ctx :=
  if p = 0x212 ∨ p = 0x213 then { c with blkRes := 0xFFFFFFFFFFFFFFFF, blk := none } else { c with blk := none }

/-- One element processed: SRC and DST advance, CNT falls, RES rises, and one context cycle passes (R141). -/
def blkNext (c : Ctx) : Ctx :=
  { c with
    blkSrc := c.blkSrc + c.blkSize, blkDst := c.blkDst + c.blkSize, blkCnt := c.blkCnt - 1, blkRes := c.blkRes + 1,
    cyc := c.cyc + 1 }

/-- The block unit runs at most `fuel` elements of the operation in progress, each in a context cycle of its own; a fault code with the
elements before it processed (R144), or the working copy. -/
def blkRun (fs : List Forced) : Nat → Eng → Option Nat × Eng
  | 0, g =>
    match g.ctx.blk with
    | some (p, _, _) => if g.ctx.blkCnt = 0 then (none, { g with ctx := blkEnd p g.ctx }) else (none, g)
    | none => (none, g)
  | fuel + 1, g =>
    let c := g.ctx
    match c.blk with
    | none => (none, g)
    | some (p, b, _) =>
      if c.blkCnt = 0 then (none, { g with ctx := blkEnd p c })
      else
        let n := c.blkSize.toNat
        let s := c.blkSrc.toNat
        let d := c.blkDst.toNat
        if (p ≠ 0x211 ∧ dataSize < s + n) ∨ (p ≠ 0x213 ∧ dataSize < d + n) then
          (some 0x16, { g with ctx := { c with blk := none } })
        else
          match p with
          | 0x210 =>
            blkRun fs fuel (({ g with ctx := blkNext c }.putF fs d (memRead g.mem (dataBase + s) n)).flush c.cyc)
          | 0x211 => blkRun fs fuel (({ g with ctx := blkNext c }.putF fs d (leBytes n b.toNat)).flush c.cyc)
          | 0x212 =>
            if dataNat g.mem s n = dataNat g.mem d n then blkRun fs fuel ({ g with ctx := blkNext c }.flush c.cyc)
            else (none, { g with ctx := { c with cyc := c.cyc + 1, blk := none } }.flush c.cyc)
          | _ =>
            if dataNat g.mem s n = b.toNat % 2 ^ (8 * n) then
              (none, { g with ctx := { c with cyc := c.cyc + 1, blk := none } }.flush c.cyc)
            else blkRun fs fuel ({ g with ctx := blkNext c }.flush c.cyc)

/-! ## Table unit (R145 to R156) -/

/-- The CRC of an entry (R147): the table number, the bucket index and entry bytes 0 to 27. -/
def entryCrc (table : Nat) (e : TblEntry) : W32 :=
  crc32c (fields [(1, table), (4, e.bucket), (8, e.key.toNat), (8, e.value.toNat), (8, e.gen),
    (1, 1 + 2 * bit e.deleted), (3, 0)])

/-- The CRC-32C of the key bytes with an initial value (R148). -/
def keyHash (key : W64) (init : W32) : Nat := (~~~ (crc32cGo (leBytes 8 key.toNat) init)).toNat

/-- The two candidate buckets of a key (R148). -/
def candidates (k : Nat) (salt : W32) (key : W64) : Nat × Nat :=
  let b0 := keyHash key salt % 2 ^ k
  let b1 := keyHash key (salt ^^^ 0xFFFFFFFF#32) % 2 ^ k
  (b0, if b0 = b1 then (b0 + 1) % 2 ^ k else b1)

/-- The four ways of the candidate buckets, in the order of R151. -/
def candidateWays (t : Table) (key : W64) : List (Nat × Nat) :=
  let b := candidates t.k t.salt key
  [(b.1, 0), (b.1, 1), (b.2, 0), (b.2, 1)]

/-- The entry in a way, where the way is not free. -/
def wayEntry (t : Table) (w : Nat × Nat) : Option TblEntry :=
  t.entries.find? fun e => e.bucket == w.1 && e.way == w.2

/-- The way is damaged: its read fails, or its CRC does (R147, R151). -/
def wayDamaged (n : Nat) (t : Table) (w : Nat × Nat) : Bool :=
  t.poisoned.contains w ||
    match wayEntry t w with
    | some e => e.crc != entryCrc n e
    | none => false

/-- The newest visible entry of a key among the ways, the first of equals (R151). -/
def bestEntry (t : Table) (key : W64) (gen : Nat) (ways : List (Nat × Nat)) : Option TblEntry :=
  ways.foldl (fun best w =>
    match wayEntry t w with
    | some e =>
      if e.key = key ∧ e.gen ≤ gen then
        match best with
        | some b => if b.gen < e.gen then some e else best
        | none => some e
      else best
    | none => best) none

/-- The table that a captured state names: the present load, or one that is still being freed. -/
def Table.view (t : Table) (load : Nat) : Table :=
  if t.loaded ∧ t.loads = load then t
  else
    match t.old.find? fun o => o.load == load with
    | some o => { t with k := o.k, salt := o.salt, entries := o.entries, poisoned := o.poisoned }
    | none => { t with entries := [] }

/-- A lookup (R151): the status of R152, the value, and for a damaged bucket the failing ways and the bucket, which is that of the
first failing way. -/
def lookup (tables : Vector Table 16) (captured : List (Nat × Nat)) (sel : Nat) (key : W64) :
    Nat × W64 × Option (Nat × Nat × Nat) :=
  match fin? 16 sel, assoc? sel captured with
  | some n, some cap =>
    let gen := cap % 2 ^ 64
    let t := (tables.get n).view (cap / 2 ^ 64)
    let ways := candidateWays t key
    let bad := ways.map fun w => wayDamaged sel t w
    if bad.contains true then
      (5, 0, some (sel, (bad.zipIdx.map fun x => if x.1 then 2 ^ x.2 else 0).sum,
        (((ways.zip bad).find? fun x => x.2).map fun x => x.1.1).getD 0))
    else
      match bestEntry t key gen ways with
      | none => (3, 0, none)
      | some e => if e.deleted then (3, 0, none) else (2, e.value, none)
  | _, _ => (4, 0, none)

/-- The table unit's part of a trigger (R153, R154, R156). -/
def tblTrig (env : EngEnv) (p : Nat) (b : W64) (g : Eng) : EngResult :=
  let c := g.ctx
  let n : Fin 4 := finOr (p - 0x250)
  if !env.entry.tbl then .error 0x1E
  else if ((c.slots.get n).readAt c.cyc).1 = 1 then .error 0x18
  else
    let r := lookup env.tables env.rel.tables c.tblSel.toNat b
    .ok { g with
      ctx := { c with slots := vmod c.slots n fun _ => { status := 1, value := 0, flight := some (c.cyc + 1200, r.1, r.2.1) } },
      dmg := g.dmg ++ r.2.2.toList }

/-! ## Image unit (R164 to R167) -/

/-- The bytes of an effect record that the digest covers (R266, R268). -/
def EffRec.head (r : EffRec) : List Byte :=
  fields [(8, r.cycle.toNat), (8, r.value.toNat), (4, r.target.toNat), (1, r.task.toNat), (1, r.kind.toNat),
    (2, r.index.toNat)]

/-- Emit the next record of the release, with its index and running digest (R266, R268). -/
def emitRec (rel : Release) (kind : Nat) (value : W64) (target : W32) (g : Eng) : Eng :=
  let r : EffRec :=
    { cycle := BitVec.ofNat 64 rel.cycle, value := value, target := target, task := BitVec.ofNat 8 rel.task,
      kind := BitVec.ofNat 8 kind, index := BitVec.ofNat 16 g.index, digest := 0 }
  let d := crc64Go r.head g.digest
  { g with recs := g.recs ++ [{ r with digest := d }], digest := d, index := g.index + 1 }

/-- The image unit's part of a trigger. -/
def imgTrig (env : EngEnv) (p : Nat) (b : W64) (g : Eng) : EngResult :=
  let c := g.ctx
  if p = 0x290 then
    match assoc? (b.setWidth 32) env.snap with
    | none => .error 0x19
    | some v =>
      .ok { g with ctx := { c with
        imgVal := c.imgVal.push c.cyc 2 v.value, imgQual := c.imgQual.push c.cyc 2 (BitVec.ofNat 64 v.quality) } }
  else
    let pt : W32 := c.imgPt.setWidth 32
    if !(env.rel.outs.any fun o => o.point == pt) then .error 0x19
    else if env.rel.entry.maxEffects ≤ g.effects then .error 0x1A
    else if (match c.lastWr with
      | some t => decide (c.cyc < t + 4)
      | none => false) then .error 0x1B
    else .ok { emitRec env.rel 1 b pt g with ctx := { c with lastWr := some c.cyc }, effects := g.effects + 1 }

/-! ## Load/store unit (R168, R169) -/

/-- The size of a load or store port, in bytes. -/
def lsSize (p : Nat) : Nat := 2 ^ ((p - 0x2D0) % 4)

/-- The load/store unit's part of a trigger. An access both past the end of the partition and misaligned reports 0x1C (DESIGN CHOICE,
log entry 116). -/
def lsTrig (env : EngEnv) (p : Nat) (b : W64) (g : Eng) : EngResult :=
  let c := g.ctx
  let off := (c.lsBase + b).toNat
  let n := lsSize p
  if dataSize < off + n then .error 0x1C
  else if off % n ≠ 0 then .error 0x1D
  else if p < 0x2D4 then
    .ok { g with ctx := { c with lsRes := c.lsRes.push c.cyc 2 (BitVec.ofNat 64 (dataNat g.start off n)) } }
  else .ok (g.putF env.forced off (leBytes n c.lsData.toNat))

/-! ## Branch unit and TSK_END (R110 to R113) -/

/-- The branch unit's part of a trigger: the target takes effect after the delay bundle. -/
def brTrig (p : Nat) (b : W64) (g : Eng) : EngResult :=
  let c := g.ctx
  let t : Int := if p = 0x301 then c.pc + b.toInt else if p = 0x303 then c.link.toInt else b.toInt
  .ok { g with ctx := { c with
    branch := some t, link := if p = 0x302 then BitVec.ofInt 64 (c.pc + 2) else c.link } }

/-- Start the operation of a trigger port with B. -/
def trigger (env : EngEnv) (p : Nat) (b : W64) (g : Eng) : EngResult :=
  match unitOf p with
  | 0 => aluTrig p b g
  | 1 => bitTrig env p b g
  | 2 => tmrTrig env p b g
  | 3 => edgTrig p b g
  | 4 => blkTrig p b g
  | 5 => tblTrig env p b g
  | 6 => imgTrig env p b g
  | 7 => lsTrig env p b g
  | 8 => brTrig p b g
  | _ => .ok { g with ctx := { g.ctx with ending := true } }

/-! ## Decoding a bundle (R97 to R103) -/

/-- The source of a move (R101): a value in the bundle, or a port. -/
inductive MoveSrc
  | imm (v : W64)
  | port (p : Nat)
  deriving DecidableEq, Repr

/-- A move (R99). -/
structure Move where
  guard : Nat
  src : MoveSrc
  dst : Nat
  deriving DecidableEq, Repr

/-- Decode the slots of a bundle from one on, skipping extension slots; the fault of the lowest slot that fails (R103,
R104, R115). -/
def decodeSlots : List W32 → Except Nat (List Move)
  | [] => .ok []
  | w :: rest =>
    let dst := w.toNat % 0x4000
    let src := w.toNat / 0x4000 % 0x2000
    let mk (v : MoveSrc) : Move := { guard := w.toNat / 0x8000000, src := v, dst := dst }
    if !portWritable dst then .error 1
    else if 0x1000 ≤ src then
      (decodeSlots rest).map (mk (.imm ((BitVec.ofNat 12 src).signExtend 64)) :: ·)
    else if src = 0xFFD then
      match rest with
      | lo :: hi :: rest' => (decodeSlots rest').map (mk (.imm (hi ++ lo)) :: ·)
      | _ => .error 2
    else if src = 0xFFE ∨ src = 0xFFF then
      match rest with
      | x :: rest' => (decodeSlots rest').map (mk (.imm (if src = 0xFFE then x.signExtend 64 else x.setWidth 64)) :: ·)
      | _ => .error 2
    else if !portReadable src then .error 1
    else (decodeSlots rest).map (mk (.port src) :: ·)

/-- The four slots of a 16-byte bundle (R97). -/
def bundleSlots (bs : List Byte) : List W32 :=
  (List.range 4).map fun n => BitVec.ofNat 32 (rd bs (4 * n) 4)

/-! ## Issue of a bundle (R104 to R106, R127) -/

/-- A general register; G0 reads zero (R94). -/
def readG (c : Ctx) (n : Nat) : W64 := if n = 0 then 0 else c.g.get (finOr n)

/-- What a move reads from a port in the present cycle. -/
def readPort (env : EngEnv) (c : Ctx) (p : Nat) : W64 :=
  if p ≤ 0x3F then readG c p
  else match p with
    | 0x100 => c.aluA
    | 0x101 => c.aluRes.readAt c.cyc
    | 0x140 => c.bitAcc.readAt c.cyc
    | 0x141 => c.bitDepth.readAt c.cyc
    | 0x180 => c.tmrInst
    | 0x181 => c.tmrPreset
    | 0x182 => c.tmrQ.readAt c.cyc
    | 0x183 => c.tmrEt.readAt c.cyc
    | 0x1C0 => c.edgInst
    | 0x1C1 => c.edgQ.readAt c.cyc
    | 0x200 => c.blkSrc
    | 0x201 => c.blkDst
    | 0x202 => c.blkCnt
    | 0x203 => c.blkSize
    | 0x204 => c.blkRes
    | 0x240 => c.tblSel
    | 0x280 => c.imgPt
    | 0x281 => c.imgVal.readAt c.cyc
    | 0x282 => c.imgQual.readAt c.cyc
    | 0x2C0 => c.lsBase
    | 0x2C1 => c.lsData
    | 0x2C2 => c.lsRes.readAt c.cyc
    | 0x304 => c.link
    | 0x305 => BitVec.ofInt 64 c.pc
    | 0x340 => BitVec.ofNat 64 env.entry.task
    | 0x341 => BitVec.ofNat 64 env.rel.cycle
    | 0x342 => BitVec.ofNat 64 env.rel.ct
    | _ =>
      if 0x244 ≤ p ∧ p ≤ 0x247 then ((c.slots.get (finOr (p - 0x244))).readAt c.cyc).2
      else if 0x248 ≤ p ∧ p ≤ 0x24B then BitVec.ofNat 64 ((c.slots.get (finOr (p - 0x248))).readAt c.cyc).1
      else (featWord (p - 0x380)).setWidth 64

/-- A move writes a register or an operand port. -/
def writePort (p : Nat) (v : W64) (c : Ctx) : Ctx :=
  if p ≤ 0x3F then (if p = 0 then c else { c with g := vmod c.g (finOr p) fun _ => v })
  else match p with
    | 0x100 => { c with aluA := v }
    | 0x180 => { c with tmrInst := v }
    | 0x181 => { c with tmrPreset := v }
    | 0x1C0 => { c with edgInst := v }
    | 0x200 => { c with blkSrc := v }
    | 0x201 => { c with blkDst := v }
    | 0x202 => { c with blkCnt := v }
    | 0x203 => { c with blkSize := v }
    | 0x240 => { c with tblSel := v }
    | 0x280 => { c with imgPt := v }
    | 0x2C0 => { c with lsBase := v }
    | 0x2C1 => { c with lsData := v }
    | 0x304 => { c with link := v }
    | _ => c

/-- The guard of a move lets it take effect (R100). -/
def guardOn (c : Ctx) (g : Nat) : Bool :=
  let n := g % 16
  if n = 0 then decide (g < 16) else if g < 16 then readG c n != 0 else readG c n == 0

/-- The value of a move's source. -/
def moveValue (env : EngEnv) (c : Ctx) : MoveSrc → W64
  | .imm v => v
  | .port p => readPort env c p

/-- The destination is a trigger port. -/
def isTrigger (p : Nat) : Bool := portKind p == some .trigger

/-- The data ports a trigger reserves (R127, R171): cycle, reads, writes. -/
def dataPorts (t p : Nat) : List (Nat × Nat × Nat) :=
  if 0x150 ≤ p ∧ p ≤ 0x155 then [(t, 1, 0)]
  else if 0x158 ≤ p ∧ p ≤ 0x15A then [(t, 1, 1)]
  else if 0x190 ≤ p ∧ p ≤ 0x194 then [(t, 1, 0), (t + 1, 0, 1)]
  else if p = 0x1D0 ∨ p = 0x1D1 then [(t, 1, 1)]
  else if p = 0x210 then [(t + 1, 1, 1)]
  else if p = 0x211 then [(t + 1, 0, 1)]
  else if p = 0x212 then [(t + 1, 2, 0)]
  else if p = 0x213 then [(t + 1, 1, 0)]
  else if 0x2D0 ≤ p ∧ p ≤ 0x2D3 then [(t, 1, 0)]
  else if 0x2D4 ≤ p ∧ p ≤ 0x2D7 then [(t, 0, 1)]
  else []

/-- More than two reads or one write are reserved in cycle `t` (R127). -/
def portsExceeded (rs : List (Nat × Nat × Nat)) (t : Nat) : Bool :=
  let x := rs.filter fun r => r.1 == t
  decide (2 < (x.map (·.2.1)).sum) || decide (1 < (x.map (·.2.2)).sum)

/-- A repeated element in a list of units. -/
def hasRepeat : List Nat → Bool
  | [] => false
  | x :: xs => xs.contains x || hasRepeat xs

/-- Start the triggers of a bundle in slot order; the first fault leaves the bundle without effect (R170). -/
def runTriggers (env : EngEnv) : List (Nat × W64) → Eng → EngResult
  | [], g => .ok g
  | (p, v) :: r, g =>
    match trigger env p v g with
    | .error f => .error f
    | .ok g' => runTriggers env r g'

/-- Issue the moves of one cycle (R104): guards and sources on the state at its start, the checks for trigger collision,
branch in delay bundle and data-port collision, then registers and operand ports, then triggers. -/
def issueMoves (env : EngEnv) (ms : List Move) (g : Eng) : EngResult :=
  let c := g.ctx
  let on := (ms.filter fun m => guardOn c m.guard).map fun m => (m.dst, moveValue env c m.src)
  let trigs := on.filter fun x => isTrigger x.1
  let units := trigs.map fun x => unitOf x.1
  let resv := c.resv ++ trigs.flatMap fun x => dataPorts c.cyc x.1
  if hasRepeat (c.started ++ units) then .error 3
  else if c.delay.isSome && units.contains 8 then .error 5
  else if portsExceeded resv c.cyc || portsExceeded resv (c.cyc + 1) then .error 0x10
  else
    let c1 := (on.filter fun x => !isTrigger x.1).foldl (fun c x => writePort x.1 x.2 c) c
    runTriggers env trigs { g with ctx := { c1 with started := c1.started ++ units, resv := resv }, start := g.mem }

/-- The context cycle of a bundle ends: timers are written back, the program counter moves past the bundle, or to the
target of a branch whose delay bundle this was (R111). -/
def endCycle (g : Eng) : Eng :=
  let g1 := g.flush g.ctx.cyc
  let c := g1.ctx
  { g1 with
    ctx := { c with
      cyc := c.cyc + 1, started := [], resv := c.resv.filter fun r => c.cyc < r.1,
      pc := c.delay.getD (c.pc + 1),
      delay := c.branch, branch := none } }

/-- Issue one bundle of code at the program counter: a fault of the bundle, or the working copy after its cycle and the
elements of a block operation within `room` further cycles; a block fault comes with the elements before it. -/
def issueBundle (env : EngEnv) (code : List Byte) (room : Nat) (g : Eng) : Option Nat × Eng :=
  let c := g.ctx
  if c.pc < 0 ∨ (code.length : Int) < 16 * c.pc + 16 then (some 4, g)
  else
    match decodeSlots (bundleSlots (slice code (16 * c.pc.toNat) 16)) with
    | .error f => (some f, g)
    | .ok ms =>
      match issueMoves env ms g with
      | .error f => (some f, g)
      | .ok g' =>
        let g1 := endCycle g'
        match g1.ctx.blk with
        | some _ => blkRun env.forced room g1
        | none => (none, g1)

end Sys2Proof.Machine
end

