-- ==== Sys2Proof/Machine/Image.lean ====
section
/-! DEFINITION. Symbols of the active image and their places in the data partitions, and the retentive layout (R206, R215, R227, R527). -/

namespace Sys2Proof.Machine

/-- The image of the bank the engines fetch from (R110). -/
def fetchImage (s : State) : Option Image := (s.prg.banks.get s.prg.fetch).image

/-- The bytes a symbol's value has for the host and in the retentive area (R206, R215, R527): one for a bit, 16 for a
timer instance. -/
def Symbol.size (y : Symbol) : Nat :=
  if y.kind = 2 then y.width
  else if 5 ≤ y.kind ∧ y.kind ≤ 8 then 16
  else if y.kind = 3 ∨ y.kind = 4 then (if y.width = 0 then 1 else y.width)
  else 1

/-- The symbol is one bit of the data partition: a bit variable or an edge memory bit. -/
def Symbol.isBit (y : Symbol) : Bool := y.kind == 1 || y.kind == 9

/-- The value of a symbol of the data partition as bytes. -/
def Symbol.readFrom (y : Symbol) (m : Memory) : List Byte :=
  if y.isBit then [if dataBit m y.loc.toNat then 1 else 0] else memRead m (dataBase + y.loc.toNat) y.size

/-- Write a symbol's value into a data partition, through the force filter (R207, R216). -/
def Symbol.writeTo (y : Symbol) (fs : List Forced) (v : List Byte) (m : Memory) : Memory :=
  if y.isBit then writeBit fs m y.loc.toNat (v.head? != some 0) else dataWriteF fs m y.loc.toNat v

/-- The exchange slot size of a writer, 0 where it has none. -/
def writerSize (s : State) (w : Nat) : Nat := ((taskEntry s w).map fun e => e.xsize).getD 0

/-- The LOCATIONs of a variable: an exchange variable stands at the same place of each of its writer's three slots (R195,
R196), any other at its own. -/
def places (s : State) (y : Symbol) : List Nat :=
  let k := writerSize s y.writer * (if y.kind = 1 then 8 else 1)
  if y.exchange && decide (0 < k) then [y.loc.toNat, y.loc.toNat + k, y.loc.toNat + 2 * k] else [y.loc.toNat]

/-- The forces on internal variables as the filter takes them (R128, R211). -/
def forcedOf (s : State) (img : Option Image) (fs : List Force) : List Forced :=
  fs.flatMap fun f =>
    match img with
    | none => []
    | some i =>
      match i.find f.sym with
      | some y =>
        if y.kind = 1 ∨ y.kind = 2 then (places s y).map fun a => { kind := y.kind, loc := a, value := f.value } else []
      | none => []

/-- Insert a symbol by rising LOCATION, after its equals. -/
def insertByLoc (y : Symbol) : List Symbol → List Symbol
  | [] => [y]
  | z :: r => if y.loc.toNat < z.loc.toNat then y :: z :: r else z :: insertByLoc y r

/-- The retentive symbols of an image in ascending LOCATION (R527). -/
def Image.retentive (i : Image) : List Symbol :=
  (i.syms.filter fun y => y.retentive).foldl (fun l y => insertByLoc y l) []

/-- The places of the retentive symbols in the retentive area: those that fit whole, in order (R527). -/
def retPlaces : Nat → List Symbol → List (Symbol × Nat)
  | _, [] => []
  | off, y :: r => if off + y.size ≤ 32768 then (y, off) :: retPlaces (off + y.size) r else []

/-- The bytes the retentive symbols of an image need. -/
def Image.retNeed (i : Image) : Nat := ((i.retentive).map Symbol.size).sum

/-- The bytes of retentive data of an image that are saved. -/
def Image.retUsed (i : Image) : Nat := ((retPlaces 0 i.retentive).map fun x => x.1.size).sum

/-- Copy the retentive variables of a task from the source lane into the shadow (R528), unless a save has frozen it. -/
def shadowCopy (task : Nat) (s : State) : State :=
  match sourceLane s, activeImage s with
  | some l, some i =>
    if s.pst.retSaving then s
    else
      let m := (s.lanes.get l).mem
      let ys := (retPlaces 0 i.retentive).filter fun x => x.1.writer == task
      s.modPst fun p => { p with shadow := ys.foldl (fun w x => memWrite w x.2 (x.1.readFrom m)) p.shadow }
  | _, _ => s

/-- Copy every retentive variable of the active image into the shadow, as at a start and at a switch (R250, R527). -/
def shadowCopyAll (s : State) : State :=
  match sourceLane s, activeImage s with
  | some l, some i =>
    let m := (s.lanes.get l).mem
    s.modPst fun p =>
      { p with shadow := (retPlaces 0 i.retentive).foldl (fun w x => memWrite w x.2 (x.1.readFrom m)) p.shadow }
  | _, _ => s

end Sys2Proof.Machine
end

