-- ==== Sys2Proof/Machine/Pages.lean ====
section
/-! DEFINITION. Queueing page writes of the persistent store, and the page of chip time, allowance and epochs (R68, R292, R350, R513, R517, R547). -/

namespace Sys2Proof.Machine

/-- Queue a page write (R513). -/
def queuePage (row page : Nat) (body : List Byte) (use_ : PageUse) (s : State) : State :=
  s.modPst fun p => { p with queue := p.queue ++ [{ row := row, page := page, body := fitTo 256 body, use_ := use_ }] }

/-- The operating-time count in ticks of 1/32,768 s (R590). -/
def opTicks (s : State) : Nat := s.clk.opNs * 32768 / 1000000000

/-- The seconds of one-lane operation left (R292). -/
def singleLeft (s : State) : Nat :=
  if s.vot.mode = 2 then s.vot.singleLeft - (s.clk.opNs - s.vot.singleSince) / 1000000000 else s.vot.singleLeft

/-- The address epoch of a ring as it is saved: that of an inauguration is saved before its COMMIT (R350). -/
def savedEpoch (s : State) (r : Fin 4) : Nat :=
  let x := s.net.rings.get r
  match x.mode with
  | some m => if m.numbering.isSome then m.newA.toNat else x.aEpoch.toNat
  | none => x.aEpoch.toNat

/-- The body of the page of chip time, allowance, epochs and counts (R517); its layout is the model's (log entry 20). -/
def timePage (s : State) : List Byte :=
  fields [(8, s.clk.ct), (2, s.tim.base.toNat), (6, bit s.tim.seeded), (4, singleLeft s), (2, savedEpoch s 0), (2, savedEpoch s 1),
    (2, savedEpoch s 2), (2, savedEpoch s 3), (8, opTicks s), (4, s.sys.pcycles.toNat), (4, s.evr.overflow.toNat)]

/-- The number of that page. -/
def timePageNum : Nat := 0xE043

/-- Queue a write of that page (row 3 of R513). -/
def saveTimePage (s : State) : State := queuePage 3 timePageNum (timePage s) .nothing s

end Sys2Proof.Machine
end

