-- ==== Sys2Proof/Machine/Voter.lean ====
section
/-! DEFINITION. Lane faults, the vote, exclusion, self-test, resynchronisation and one-lane operation (R264 to R303). -/

namespace Sys2Proof.Machine

/-! ## Nested errors (R297 to R299) -/

/-- The open recoveries of module scope. -/
def openCount (s : State) : Nat := s.vot.recs.length

/-- The depth of an event that opens nothing: the present depth (R297). -/
def presentDepth (s : State) : Nat := openCount s

/-- Open a recovery one deeper than those that are open (R297). Where an older one is still open at that depth, its VOT_NEST register shows the
newer one (DESIGN CHOICE, log entry 118). -/
def openAt (cls : Nat) (l : Option LaneId) (v : Vot) : Vot :=
  let d := v.recs.length
  { v with
    recs := v.recs ++ [{ depth := d + 1, cls := BitVec.ofNat 16 cls, lane := l }]
    nest := Vector.ofFn fun i : Fin 4 => if i.val = d then { cls := BitVec.ofNat 16 cls, opened := true, lane := l } else v.nest.get i }

/-- Close the open recoveries for which `p` holds (R297): a VOT_NEST register reads open while one is open at its depth. -/
def Vot.closeWhere (p : OpenRecovery → Bool) (v : Vot) : Vot :=
  let rs := v.recs.filter fun r => !p r
  { v with
    recs := rs
    nest := Vector.ofFn fun i : Fin 4 => { v.nest.get i with opened := rs.any fun r => r.depth == i.val + 1 } }

/-- Close the recoveries of a lane (R297). -/
def closeRecovery (l : Option LaneId) (s : State) : State := s.modVot (Vot.closeWhere fun r => r.lane == l)

/-- Note a lane or voter fault in VOT_LAST. -/
def noteFault (cls task : Nat) (l : Option LaneId) (s : State) : State :=
  s.modVot fun v =>
    { v with lastCt := s.clk.ct, lastClass := BitVec.ofNat 16 cls, lastTask := BitVec.ofNat 8 task, lastLane := l }

/-- The SOURCE of a lane event, 0xFFFF where no lane is concerned (R301). -/
def faultSource (l : Option LaneId) : Nat :=
  match l with
  | some x => laneSource x
  | none => 0xFFFF

/-- Record a fault of module scope at its depth and open its recovery; a fifth nested error leads to SAFE_TALK (R299). -/
def openFault (cls task : Nat) (l : Option LaneId) (detail : W64) (s : State) : State :=
  let s1 := noteFault cls task l s
  if 4 ≤ openCount s then
    enterSafeTalk 6 (eventAt 0x0110 0xFFFF 4 (det [(1, 4)]) s.clk.ct (raise 32 (eventAt cls (faultSource l) 4 detail s.clk.ct s1)))
  else
    raise 32 (eventAt cls (faultSource l) (openCount s + 1) detail s.clk.ct (s1.modVot (openAt cls l)))

/-! ## Promises (R52 to R57, R299) -/

/-- The items of a list stand in an order: no two of them, the earlier first, are out of it. -/
def inOrder {α : Type} (bad : α → α → Bool) : List α → Bool
  | [] => true
  | x :: xs => (!xs.any fun y => bad x y) && inOrder bad xs

/-- Two items of the recorder queue, the earlier first, are records of one source in the wrong order (R55). -/
def stampsCross (a b : EvItem) : Bool :=
  a.cls.toNat / 256 == b.cls.toNat / 256 && a.source == b.source &&
    (decide (b.base.toNat < a.base.toNat) || (a.base == b.base && decide (b.ct < a.ct)))

/-- A stream of a ring is behind what it was, within one instance (R56). -/
def streamBehind (a b : Ring) : Bool :=
  a.aEpoch == b.aEpoch && (decide (serialDiff b.seqA a.seqA < 0) ||
    (allFin 256).any fun i => (a.stations.get i).outGen == (b.stations.get i).outGen &&
      decide (serialDiff (b.stations.get i).outSeq (a.stations.get i).outSeq < 0))

/-- The first promise of R52 to R56, numbered 1 to 5, that would be broken in `t`, which a recovery reaches from `s`: completions of a ring
pair, outputs of a task, host writes of a ring pair, the recorder queue, Strait sequence numbers. -/
def brokenPromise (s t : State) : Option Nat :=
  if !(allFin 32).all fun q => inOrder (fun a b : Outst => decide (b.num < a.num)) (t.hif.rings.get q).outst then some 1
  else if !inOrder (fun a b : Release => a.task == b.task && decide (a.cycle < b.cycle) && decide (b.instant < a.instant)) t.tsk.rels then some 2
  else if !inOrder (fun a b : VarWrite => a.ring == b.ring && decide (b.num < a.num)) t.tsk.writes then some 3
  else if !inOrder stampsCross t.evr.queue then some 4
  else if (allFin 4).any fun r => streamBehind (s.net.rings.get r) (t.net.rings.get r) then some 5
  else none

/-- A recovery is completed only where it breaks no promise of R52 to R56; the module enters SAFE_TALK and records the promise rather than
complete it (R57, R256, R299). -/
def keepPromises (s t : State) : State :=
  match brokenPromise s t with
  | some n => enterSafeTalk 7 (eventAt 0x0111 0xFFFF (presentDepth s) (det [(1, n)]) s.clk.ct s)
  | none => t

/-! ## Stopping a lane (R278) -/

/-- A context whose engine is stopped: its lookups in flight are cancelled (R155, R278). -/
def Ctx.stopped (c : Ctx) : Ctx :=
  { c with
    phase := .idle, inErr := false, aborted := false, blk := none,
    slots := c.slots.map fun x => if x.flight.isSome then { status := 0, value := 0, flight := none } else x }

/-- Step 3 of R278: stop the engines, cancel the lookups, empty the effect buffer, set the state. -/
def stopLane (st : LaneState) (cls : Nat) (l : LaneId) (s : State) : State :=
  let s1 := modLane l (fun x =>
    { x with
      state := st, cause := BitVec.ofNat 8 cls, exclCt := s.clk.ct, run := Vector.replicate 4 none,
      ctx := x.ctx.map Ctx.stopped, buffer := [], queue := [], owed := [], verdict := none, finalDone := false, step := 0 }) s
  s1.modTsk fun k => { k with rels := k.rels.map fun r => { r with lanes := vmod r.lanes l fun _ => false } }

/-- A lane that leaves service no longer counts among the units that must acknowledge a transaction (R294). -/
def releaseUnit (l : LaneId) (s : State) : State :=
  s.modTxn fun t => { t with required := t.required.filter fun u => u != .lane l }

/-- Await the verdict of a lane, in the order of detection (R298). -/
def awaitVerdict (l : LaneId) (s : State) : State := s.modVot fun v => { v with order := v.order ++ [l] }

/-- A lane that is resynchronising begins again at a step, because its source or its settings changed (R287, R291). -/
def restartResync (step : Nat) (s : State) : State :=
  s.modLanes fun v => v.map fun x =>
    if x.state == .resync then { x with step := step, dirty := Dirty.every, copied := 0, finalDone := false } else x

/-- No lane remains in service: resynchronisation stops (R287), with class 0x010D. -/
def stopResync (s : State) : State :=
  if (lanesIn s).isEmpty then
    (allFin 3).foldl (fun s l =>
      if (s.lanes.get l).state == .resync then
        eventAt 0x010D (laneSource l) 0 (det [(1, 2), (1, (s.lanes.get l).abandoned.toNat)]) s.clk.ct
          (modLane l (fun x => { x with step := 0, finalDone := false }) s)
      else s) s
  else s

/-- The configuration is the safety one: VOT_CFG.AVAIL is 0 (R288; R3 refuses AVAIL on the -ES). -/
def safetyConfig (s : State) : Bool := safetyOption s || !s.rws.votCfg.getLsbD 0

/-- Stop lanes and let them run their self-tests; where none is left in service, resynchronisation stops (R287). -/
def stopLanes (cls : Nat) (ls : List LaneId) (s : State) : State :=
  stopResync (ls.foldl (fun s l => releaseUnit l (awaitVerdict l (stopLane .selfTest cls l s))) s)

/-- A fault in two-out-of-two mode (R288, R289), attributed or not. -/
def twoLaneFault (cls task : Nat) (l : Option LaneId) (detail : W64) (s : State) : State :=
  let ls := lanesIn s
  let s1 := stopLanes cls ls (openFault cls task l detail s)
  if safetyConfig s then enterSafeTalk 4 s1
  else s1.modVot fun v => { v with stoppedBy := some l, stopPair := ls }

/-- Exclusion of a lane in two-out-of-three mode (R278, steps 1, 3 and 4). -/
def excludeLane (cls task : Nat) (l : LaneId) (detail : W64) (s : State) : State :=
  let s1 := stopLanes cls [l] (openFault cls task (some l) detail s)
  let s2 := s1.modVot fun v => { v with exclusions := vmod v.exclusions l fun n => satInc n 1 }
  if s2.sys.run = .safeTalk then s2 else restartResync 2 (setMode 1 s2)

/-- A fault against a lane that is already out of service (R294). -/
def outFault (cls task : Nat) (l : LaneId) (detail : W64) (s : State) : State :=
  eventAt cls (laneSource l) (presentDepth s) detail s.clk.ct
    (noteFault cls task (some l) (modLane l (fun x => { x with outFaults := satInc x.outFaults 1 }) s))

/-- A fault against one lane (R275), as the mode decides (R278, R288, R289, R293, R294). -/
def laneFault (cls task : Nat) (l : LaneId) (detail : W64) (s : State) : State :=
  if (s.lanes.get l).state ≠ .inService then outFault cls task l detail s
  else if s.vot.mode = 0 then excludeLane cls task l detail s
  else if s.vot.mode = 1 then twoLaneFault cls task (some l) detail s
  else if s.vot.mode = 2 then enterSafeTalk 5 (stopLanes cls [l] (openFault cls task (some l) detail s))
  else outFault cls task l detail s

/-! ## The vote (R269 to R274) -/

/-- The detail of a class that names a record (R301). -/
def recDetail (r : EffRec) : W64 :=
  det [(1, r.task.toNat), (1, r.kind.toNat), (2, r.index.toNat), (4, r.cycle.toNat % 4294967296)]

/-- Change the release of a task with a cycle number. -/
def modRel (task cycle : Nat) (f : Release → Release) (s : State) : State :=
  s.modTsk fun k => { k with rels := k.rels.map fun r => if r.task = task ∧ r.cycle = cycle then f r else r }

/-- The release of a record. -/
def relOf (s : State) (task cycle : Nat) : Option Release :=
  s.tsk.rels.find? fun r => r.task == task && r.cycle == cycle

/-- Count a passed effect record in the windows of VOT_RATE. -/
def countRate (s : State) : State :=
  let w := s.clk.ct / 100000
  s.modVot fun v =>
    if v.rateWindow = w then
      { v with
        rateNow := v.rateNow + 1,
        ratePeak := if v.ratePeak.toNat < v.rateNow + 1 then BitVec.ofNat 16 (min 65535 (v.rateNow + 1)) else v.ratePeak }
    else
      { v with
        rateWindow := w, rateNow := 1,
        rateLast := if w = v.rateWindow + 1 then BitVec.ofNat 16 (min 65535 v.rateNow) else 0,
        ratePeak := if v.ratePeak.toNat < 1 then 1 else v.ratePeak }

/-- The effect records passed in the last complete window (VOT_RATE.LAST). -/
def voteRate (s : State) : Nat :=
  let w := s.clk.ct / 100000
  if w = s.vot.rateWindow then s.vot.rateLast.toNat
  else if w = s.vot.rateWindow + 1 then min 65535 s.vot.rateNow else 0

/-- A force on the symbol of a point applies (R206). -/
def pointForced (s : State) (pt : W32) : Bool :=
  match activeImage s with
  | some i => s.tsk.forces.any fun f =>
      match i.find f.sym with
      | some y => (y.kind == 3 || y.kind == 4) && y.loc == pt
      | none => false
  | none => false

/-- An effect record that was passed (R193, R274): to its release unless that is past its cut-off, and to the trace. -/
def passEffect (r : EffRec) (s : State) : State :=
  let o := (relOf s r.task.toNat r.cycle.toNat).map (·.instant)
  let s1 := modRel r.task.toNat r.cycle.toNat (fun x =>
    if x.cut then x else { x with effects := x.effects ++ [(r.target, r.value)] }) s
  countRate (traceGen 1 (if pointForced s r.target then 0x18 else 0) r.task.toNat
    (fields [(4, r.target.toNat), (4, r.cycle.toNat % 4294967296), (8, r.value.toNat)]) (o.getD s.clk.ct) s1)

/-- A check-in of the watchdog (R579): the channel of the task, where its release is not past its cut-off. -/
def checkIn (task : Nat) (s : State) : State :=
  s.modWdg fun w => { w with chans := updWhere (fun c => c.task == task) (fun c => { c with checkIns := c.checkIns + 1 }) w.chans }

/-- The context cycles of the release so far (R186). -/
def Ctx.usedCycles (c : Ctx) : Nat := c.cyc - c.start

/-- The context of a task in a lane that has emitted a record of an owner (R266), else in lane A. -/
def emitterCtx (s : State) (r : EffRec) (task : Nat) : Ctx :=
  let l := ((allFin 3).find? fun l => (s.lanes.get l).state == .inService &&
    decide (r.index.toNat < ((s.lanes.get l).ctx.get (finOr r.task.toNat)).index)).getD 0
  (s.lanes.get l).ctx.get (finOr task)

/-- The context cycles of a run, as the figures of its task take them (R186, R213). -/
def TaskRun.ranFor (n : Nat) (x : TaskRun) : TaskRun := { x with used := n, maxUsed := max x.maxUsed n }

/-- The error task of a release has run: its own figures (R187, R213). -/
def countErr (r : EffRec) (f : TaskRun → TaskRun) (s : State) : State :=
  match (relOf s r.task.toNat r.cycle.toNat).bind fun x => x.err with
  | some e => modRun e.task (fun x => f (x.ranFor (min e.budget (emitterCtx s r e.task).usedCycles))) s
  | none => s

/-- The owner ended normally and its error task ran after it, for a cause other than a fault (R201). -/
def ranAfter (s : State) (r : EffRec) : Bool := ((relOf s r.task.toNat r.cycle.toNat).map fun x => x.causes != 0).getD false

/-- An end record that was passed (R192, R528, R579): the set is complete. -/
def passEnd (r : EffRec) (s : State) : State :=
  let t := r.task.toNat
  let early := ((relOf s t r.cycle.toNat).map fun x => !x.cut).getD false
  let s1 := modRel t r.cycle.toNat (fun x => if x.cut then x else { x with set := .complete }) s
  let s2 := modRun t (TaskRun.ranFor (r.value.toNat % 4294967296)) s1
  let s3 := if ranAfter s r then countErr r id s2 else s2
  shadowCopy t (if early then checkIn t s3 else s3)

/-- The owner has an error task. -/
def hasError (s : State) (t cycle : Nat) : Bool := ((relOf s t cycle).map fun x => x.err.isSome).getD false

/-- An abort record that was passed (R192, R203): the effects are discarded, and without an error task the set closes. -/
def passAbort (r : EffRec) (s : State) : State :=
  let t := r.task.toNat
  let code := r.value.toNat % 256
  let s1 := modRel t r.cycle.toNat (fun x =>
    if x.cut then x else { x with effects := [], set := if x.err.isSome then .aborted else .noEffects }) s
  let u := (emitterCtx s r t).ownerUsed
  let s2 := modRun t (fun x => if code = 0x20 then { x.ranFor u with overruns := x.overruns + 1 } else { x.ranFor u with faults := x.faults + 1 }) s1
  eventAt 0x0120 0xFFFF 1 (det [(1, code), (1, t), (4, r.value.toNat / 256 % 262144)]) s.clk.ct s2

/-- The end of an error task after an abort was passed (R192). -/
def passErrorEnd (r : EffRec) (s : State) : State :=
  countErr r id (modRel r.task.toNat r.cycle.toNat (fun x => if x.cut then x else { x with set := .errorComplete }) s)

/-- The abort of an error task was passed (R192, R204, R205). -/
def passErrorAbort (r : EffRec) (s : State) : State :=
  let t := r.task.toNat
  let s1 := countErr r (fun x => if r.value.toNat % 256 = 0x21 then { x with overruns := x.overruns + 1 } else { x with faults := x.faults + 1 })
    (modRel t r.cycle.toNat (fun x => if x.cut then x else { x with effects := [], set := .noEffects }) s)
  eventAt 0x0120 0xFFFF 2 (det [(1, r.value.toNat % 256), (1, t), (4, r.value.toNat / 256 % 262144)]) s.clk.ct s1

/-- A record passed by the voter. -/
def passRecord (r : EffRec) (s : State) : State :=
  let s1 := s.modVot fun v => { v with prev := assocSet r.task.toNat r v.prev }
  match r.kind.toNat with
  | 1 => passEffect r s1
  | 2 => passEnd r s1
  | 3 => passAbort r s1
  | 4 => passErrorEnd r s1
  | _ => passErrorAbort r s1

/-- The first queued record of a task in a lane (R269). -/
def headOf (s : State) (t : Nat) (l : LaneId) : Option EffRec :=
  (s.lanes.get l).queue.find? fun r => r.task.toNat == t

/-- Remove the first queued record of a task from a lane. -/
def popHead (t : Nat) (l : LaneId) (s : State) : State :=
  modLane l (fun x =>
    { x with queue := x.queue.eraseP fun r => r.task.toNat == t }) s

/-- The lanes whose head record of a task is `r`. -/
def lanesWith (s : State) (t : Nat) (r : EffRec) : List LaneId := (lanesIn s).filter fun l => headOf s t l == some r

/-- A record that two lanes' heads agree on. -/
def agreed (s : State) (t : Nat) : Option EffRec :=
  (lanesIn s).findSome? fun l =>
    match headOf s t l with
    | some r => if 2 ≤ (lanesWith s t r).length then some r else none
    | none => none

/-- The kinds that may follow within a stream (R267, R271). The first record of a release may be the abort of an error task that follows
an owner without effects. -/
def kindFollows (prev next : Nat) : Bool :=
  if prev = 1 then next == 1 || next == 2 || next == 3 || next == 4 || next == 5
  else if prev = 3 then next == 1 || next == 4 || next == 5
  else next == 1 || next == 2 || next == 3 || next == 5

/-- The single lane's record follows on from the previous one of the task (R271). -/
def followsOn (s : State) (r : EffRec) : Bool :=
  match assoc? r.task.toNat s.vot.prev with
  | none => r.index == 0
  | some p =>
    let k := p.kind.toNat
    if k = 1 ∨ (k = 3 ∧ hasError s r.task.toNat r.cycle.toNat) then
      r.cycle == p.cycle && r.index == p.index + 1 && kindFollows k r.kind.toNat
    else r.index == 0 && decide (p.cycle.toNat < r.cycle.toNat) && kindFollows 2 r.kind.toNat

/-- Pass a record that lanes agree on: their copies leave the queues; a third lane whose copy is still to come owes it. -/
def passAgreed (t : Nat) (r : EffRec) (s : State) : State :=
  let ls := lanesWith s t r
  let s1 := ls.foldl (fun s l => popHead t l s) s
  let late := (lanesIn s).filter fun l => (headOf s t l).isNone
  passRecord r (late.foldl (fun s l => modLane l (fun x => { x with owed := x.owed ++ [r] }) s) s1)

/-- The lane whose head differs from a record that two others agree on. -/
def minority (s : State) (t : Nat) (r : EffRec) : Option (LaneId × EffRec) :=
  (lanesIn s).findSome? fun l =>
    match headOf s t l with
    | some x => if x = r then none else some (l, x)
    | none => none

/-- A minority copy is a fault against its lane (R270, R275). -/
def minorityFault (l : LaneId) (r : EffRec) (s : State) : State :=
  laneFault 0x0101 r.task.toNat l (recDetail r)
    (s.modVot fun v => { v with mismatches := vmod v.mismatches l fun n => satInc n 1 })

/-- No majority among three copies (R659). -/
def noMajority (r : EffRec) (s : State) : State :=
  enterSafeTalk 4 (stopLanes 0x0103 (lanesIn s) (openFault 0x0103 r.task.toNat none (recDetail r) s))

/-- Judge the head records of one task once: pass, mask, fault, or wait; `none` where nothing is to be done. -/
def judgeOnce (t : Nat) (s : State) : Option State :=
  let hs := (lanesIn s).filterMap fun l => headOf s t l
  match s.vot.mode with
  | 0 =>
    match agreed s t with
    | some r =>
      match minority s t r with
      | some (l, x) => some (passAgreed t r (minorityFault l x s))
      | none => some (passAgreed t r s)
    | none =>
      match hs with
      | [r, _, _] => some (noMajority r s)
      | _ => none
  | 1 =>
    match hs with
    | [a, b] => if a = b then some (passAgreed t a s) else some (twoLaneFault 0x0102 t none (recDetail b) s)
    | _ => none
  | 2 =>
    match lanesIn s, hs with
    | [l], [r] =>
      if followsOn s r then some (passRecord r (popHead t l s)) else some (laneFault 0x0109 t l (recDetail r) s)
    | _, _ => none
  | _ => none

/-- Judge the head records of a task as long as there is something to judge. -/
def judge (t : Nat) : Nat → State → State
  | 0, s => s
  | n + 1, s =>
    match judgeOnce t s with
    | some s' => judge t n s'
    | none => s

/-- The tasks with records in a queue. -/
def queuedTasks (s : State) : List Nat :=
  ((allFin 3).flatMap fun l => (s.lanes.get l).queue.map fun r => r.task.toNat).dedup

/-- Judge every task again, as after an exclusion. -/
def judgeAll (s : State) : State :=
  (queuedTasks s).foldl (fun s t =>
    judge t (1 + ((allFin 3).map fun l => (s.lanes.get l).queue.length).sum) s) s

/-- The first record of a task that a lane owes. -/
def firstOwed (s : State) (l : LaneId) (t : Nat) : Option EffRec :=
  (s.lanes.get l).owed.find? fun r => r.task.toNat == t

/-- A copy of a record that the other lanes have passed already (R270). -/
def lateCopy (l : LaneId) (r o : EffRec) (s : State) : State :=
  let s1 := modLane l (fun x => { x with owed := x.owed.eraseP fun y => y.task == o.task }) s
  if r = o then s1
  else if s.vot.mode = 0 then judgeAll (minorityFault l r s1)
  else if s.vot.mode = 1 then twoLaneFault 0x0102 r.task.toNat none (recDetail r) s1
  else s1

/-- A comparator disagreement (R273). -/
def voterFault (verdicts : Byte) (s : State) : State :=
  enterSafeTalk 3 (stopLanes 0x0112 (lanesIn s) (openFault 0x0112 0xFF none (det [(1, verdicts.toNat)]) s))

/-- A lane's copy reaches the voter. -/
def arrive (l : LaneId) (r : EffRec) (s : State) : State :=
  match firstOwed s l r.task.toNat with
  | some o => lateCopy l r o s
  | none => judgeAll (modLane l (fun x => { x with queue := x.queue ++ [r] }) s)

/-- RECORD_COPY_ARRIVAL (R269 to R274). -/
def execRecordCopyArrival (l : LaneId) (ecc : Ecc) (disagree : Option Byte) (s : State) :
    Host.Outcome State Fault Refusal :=
  match (s.lanes.get l).buffer with
  | [] => ok s
  | r :: rest =>
    let s1 := modLane l (fun x => { x with buffer := rest }) s
    if (s.lanes.get l).state ≠ .inService then ok s1
    else if ecc = .bad then
      ok (judgeAll (laneFault 0x0107 r.task.toNat l (recDetail r) (modLane l (fun x => { x with uncorr := satInc x.uncorr 1 }) s1)))
    else
      let s2 := if ecc = .corrected then countCorrected (.lane l) s1 else s1
      match disagree with
      | some v => ok (voterFault v s2)
      | none => ok (arrive l r s2)

/-! ## Lane monitors (R22, R23, R188) -/

/-- LANE_FREQ_MEASURE (R22): once every 10 µs; outside 0.960 to 1.040 GHz is a lane fault. -/
def execLaneFreqMeasure (l : LaneId) (khz : Nat) (s : State) : Host.Outcome State Fault Refusal :=
  let s1 := modLane l (fun x => { x with khz := BitVec.ofNat 21 (min 2097151 khz), freqAt := s.clk.now }) s
  if s.clk.now < (s.lanes.get l).freqAt + 10000 then ok s
  else if khz < 960000 ∨ 1040000 < khz then ok (judgeAll (laneFault 0x0104 0xFF l (det [(4, khz)]) s1)) else ok s1

/-- LANE_SUPPLY_FAULT (R23): a regulator outside 0.760 V to 0.840 V for more than 2 µs is a lane fault. -/
def execLaneSupplyFault (l : LaneId) (r : SupplyReading) (s : State) : Host.Outcome State Fault Refusal :=
  let s1 := modLane l (fun x => { x with mv := BitVec.ofNat 16 (min 65535 r.mv) }) s
  if (r.mv < 760 ∨ 840 < r.mv) ∧ 2000 < r.ns then
    ok (judgeAll (laneFault 0x0105 0xFF l (det [(2, r.mv), (1, bit (decide (800 < r.mv)))])
      (modLane l (fun x => { x with supplyFaults := satInc x.supplyFaults 1 }) s1)))
  else ok s1

/-- The stagger of a lane, in ns (R188, R264). -/
def stagger (l : LaneId) : Nat := 2000 * l.val

/-- The instant of R188 by which a release has ended in a lane. -/
def laneDeadline (r : Release) (l : LaneId) : Nat := r.ct + stagger l + r.resp * 1000 / 960 + 2000

/-- The lane has not ended a release, or owes a copy of one of its records, which the two others have agreed on or await because they differ
(R188, R270, R275). -/
def overdue (s : State) (r : Release) (l : LaneId) : Bool :=
  (r.lanes.get l && !r.ended.get l) ||
    (decide ((s.lanes.get l).state = .inService) &&
      (s.lanes.get l).owed.any fun e => e.task.toNat == r.task && e.cycle.toNat == r.cycle) ||
    (decide (s.vot.mode = 0) && (headOf s r.task l).isNone &&
      ((lanesIn s).filter fun x => ((headOf s r.task x).map fun e => e.cycle.toNat == r.cycle) == some true).length == 2)

/-! ## Verdicts and what follows (R278 to R293, R298) -/

/-- The images of the banks that a resynchronisation loads are intact in the program image store (R39, R285). -/
def storeIntact (s : State) : Bool := s.prg.banks.toList.all fun b => !((b.image.map fun i => i.damaged).getD false)

/-- A lane starts resynchronisation (R282, R285), with class 0x010B. -/
def startResync (byHost : Bool) (l : LaneId) (s : State) : State :=
  let src := ((sourceLane s).map fun x => x.val).getD 0xFF
  eventAt 0x010B (laneSource l) 0 (det [(1, src), (1, bit byHost)]) s.clk.ct
    (modLane l (fun x =>
      { x with state := .resync, verdict := none, step := 1, dirty := .clear, copied := 0, abandoned := 0, finalDone := false, resyncNs := 0, resyncAt := s.clk.now })
      (if storeIntact s then s else eventFree (det [(1, l.val)]) s))

/-- A resynchronisation that had stopped for want of a source starts again, with class 0x010B (R287, R291); its time
counts on (R286). -/
def restartedResync (s : State) : State :=
  (allFin 3).foldl (fun s l =>
    if (s.lanes.get l).state == .resync then
      let src := ((sourceLane s).map fun x => x.val).getD 0xFF
      eventAt 0x010B (laneSource l) 0 (det [(1, src)]) s.clk.ct
        (modLane l (fun x => { x with step := 1, dirty := .clear, copied := 0, finalDone := false }) s)
    else s) s

/-- A lane that passed its self-test (step 6 of R278). -/
def lanePassed (byHost : Bool) (l : LaneId) (s : State) : State :=
  if s.rws.votCfg.getLsbD 16 then startResync byHost l s
  else modLane l (fun x => { x with state := .wait }) s

/-- A lane that failed its self-test. -/
def laneFailed (l : LaneId) (s : State) : State :=
  closeRecovery (some l) (modLane l (fun x => { x with state := .failed, verdict := none }) s)

/-- The one-lane allowance in full (R292). -/
def fullAllowance (s : State) : Nat := (s.rws.votCfg.extractLsb' 8 8).toNat * 3600

/-- Class 0x010F with vector 32 (R293). -/
def allowanceEvent (what : Nat) (s : State) : State :=
  raise 32 (event 0x010F (det [(1, what), (3, 0), (4, singleLeft s)]) s)

/-- One lane continues in one-lane mode (R289 to R291). -/
def oneLaneEntry (l : LaneId) (s : State) : State :=
  let s1 := modLane l (fun x => { x with state := .inService, verdict := none }) s
  let s2 := setMode 2 s1
  let stays (r : OpenRecovery) : Bool :=
    (r.lane.map fun x => (s.lanes.get x).state == .resync || (s.lanes.get x).state == .selfTest).getD false
  let s3 := s2.modVot fun v =>
    { v.closeWhere (fun r => !stays r) with
      singleLeft := min v.singleLeft (fullAllowance s), singleSince := s.clk.opNs, hourAt := s.clk.opNs, prev := [] }
  let s4 := s3.modTsk fun k => { k with resumeAt := s.clk.ct + 100000 }
  keepPromises s (allowanceEvent 0 (restartedResync (closeRecovery (some l) s4)))

/-- The verdict of a lane that is held: passed or not. -/
def verdictOf (s : State) (l : LaneId) : Option Bool := ((s.lanes.get l).verdict).map fun v => v.1 == 0

/-- Complete a LANE_RETEST (R281, R303). -/
def endRetest (l : LaneId) (part : Byte) (s : State) : State :=
  match (s.lanes.get l).retest with
  | some (q, n) =>
    endDesc q n (doneOk (fields [(1, bit (part != 0)), (1, part.toNat)])) s
  | none => s

/-- The verdict of a lane whose turn has come is published (R280, R298): LANE_x_STEST, class 0x010A, and the end of a retest. -/
def publishVerdict (l : LaneId) (s : State) : State :=
  match (s.lanes.get l).verdict with
  | some (part, micros) =>
    let s1 := modLane l (fun x => { x with testDone := true, testPass := part == 0, testPart := part, testMicros := micros }) s
    endRetest l part (eventAt 0x010A (laneSource l) (presentDepth s)
      (det [(1, bit (part != 0)), (1, part.toNat), (2, micros.toNat)]) s.clk.ct s1)
  | none => s

/-- Lanes that failed their self-tests are FAILED (step 6 of R278), whatever the module then does. -/
def failLane (pass : Bool) (l : LaneId) (s : State) : State := if pass then s else laneFailed l s

/-- The outcome of the table of R289 for the two stopped lanes. -/
def stoppedOutcome (by_ : Option LaneId) (a b : LaneId) (pa pb : Bool) (s : State) : State :=
  match by_ with
  | none =>
    if pa && !pb then laneFailed b (oneLaneEntry a s)
    else if pb && !pa then laneFailed a (oneLaneEntry b s)
    else enterSafeTalk 4 (failLane pa a (failLane pb b s))
  | some x =>
    let y := if x = a then b else a
    let px := if x = a then pa else pb
    let py := if x = a then pb else pa
    if !py then enterSafeTalk 4 (failLane pa a (failLane pb b s))
    else if px then startResync false x (oneLaneEntry y s)
    else laneFailed x (oneLaneEntry y s)

/-- The decision that follows from the verdict of one lane (R278, step 6); in SAFE_TALK the verdict is recorded only. -/
def decideLane (l : LaneId) (pass : Bool) (s : State) : State :=
  let s1 := modLane l (fun x => { x with verdict := none, retest := none }) s
  if s.sys.run = .safeTalk then failLane pass l s1
  else if pass then lanePassed (s.lanes.get l).retest.isSome l s1
  else laneFailed l s1

/-- Take the decisions whose turn has come, first error first (R298). -/
def takeDecisions : Nat → State → State
  | 0, s => s
  | n + 1, s =>
    match s.vot.order with
    | [] => s
    | l :: rest =>
      match s.vot.stopPair, s.vot.stoppedBy with
      | [a, b], some x =>
        if l = a ∨ l = b then
          match verdictOf s a, verdictOf s b with
          | some pa, some pb =>
            let s1 := (publishVerdict b (publishVerdict a s)).modVot fun v =>
              { v with order := v.order.filter (fun y => y ≠ a ∧ y ≠ b), stopPair := [], stoppedBy := none }
            takeDecisions n (if s.sys.run = .safeTalk then failLane pa a (failLane pb b s1) else stoppedOutcome x a b pa pb s1)
          | _, _ => s
        else
          match verdictOf s l with
          | some p => takeDecisions n (decideLane l p ((publishVerdict l s).modVot fun v => { v with order := rest }))
          | none => s
      | _, _ =>
        match verdictOf s l with
        | some p => takeDecisions n (decideLane l p ((publishVerdict l s).modVot fun v => { v with order := rest }))
        | none => s

/-- The decisions are taken, unless a service pause holds them (R298, R620, R627). -/
def decideNow (s : State) : State := if s.fwu.pausing then s else takeDecisions 4 s

/-- LANE_SELF_TEST_DONE (R279, R280): the verdict is held until its turn has come (R298). -/
def execLaneSelfTestDone (l : LaneId) (part : Byte) (micros : W16) (s : State) : Host.Outcome State Fault Refusal :=
  let x := s.lanes.get l
  if x.state ≠ .selfTest ∨ x.verdict.isSome then ok s
  else
    ok (decideNow (modLane l (fun x => { x with verdict := some (part, micros) }) s))

/-- No release runs in any lane in service (R284). -/
def quiet (s : State) : Bool :=
  s.tsk.rels.all fun r => (allFin 3).all fun l => !(r.lanes.get l) || r.ended.get l

/-- The grid instant of a periodic task's next release (R176). -/
def gridCt (s : State) (e : TaskEntry) : Nat :=
  s.tsk.anchor + e.phase * 1000 + (taskRun s e.task).next * (e.period * 1000)

/-- The next release CT of any periodic task, none while none is to come (R284). -/
def nextPeriodic (s : State) : Option Nat :=
  if runsProgram s then
    match s.tsk.sched with
    | some k => ((k.tasks.filter fun e => e.kind == .periodic).map fun e => gridCt s e).min?
    | none => none
  else none

/-- The contexts occupied by the applied schedule (R284). -/
def occupied (s : State) : Nat := (s.tsk.sched.map fun k => k.tasks.length).getD 0

/-- The final copy time of a lane in ns (R284). -/
def finalCopyNs (s : State) (dirty : Nat) : Nat := 10000 + (256 * dirty + 1024 * occupied s) / 4

/-- The final copy fits the present quiet window (R285, step 4). -/
def windowFits (s : State) (t : Nat) : Bool :=
  quiet s && ((nextPeriodic s).map fun n => decide (s.clk.ct + t + 20000 ≤ n)).getD true

/-- The code that step 1 of R285 copies, in lines: of the banks that are not EMPTY. -/
def codeLines (s : State) : Nat :=
  ((s.prg.banks.toList.filter fun b => b.state != .empty).map fun b => ((b.image.map fun i => i.code.length).getD 0 + 255) / 256).sum

/-- Copy one line of a data partition into another (R282). -/
def copyLine (i : Nat) (src dst : Memory) : Memory := memWrite dst (dataBase + 256 * i) (memRead src (dataBase + 256 * i) 256)

/-- A lane that is resynchronised copies one line of the source lane, which is clean from then on (R283). -/
def takeLine (i : Nat) (src : LaneId) (l : LaneId) (s : State) : State :=
  modLane l (fun x => { x with mem := copyLine i (s.lanes.get src).mem x.mem, dirty := x.dirty.clean i }) s

/-- The lane control copies one line for a lane, in the steps of R285: 1 the code, 2 the whole data partition, 3 dirty lines. -/
def resyncLine (l : LaneId) (s : State) : State :=
  let x := s.lanes.get l
  match sourceLane s with
  | some src =>
    if x.state ≠ .resync ∨ x.finalDone then s
    else if x.step = 1 then
      if x.copied < codeLines s then modLane l (fun x => { x with copied := x.copied + 1 }) s
      else if storeIntact s then modLane l (fun x => { x with step := 2, copied := 0, dirty := .every }) s
      else s
    else if x.step = 2 then
      if x.copied < lineCount then modLane l (fun x => { x with copied := x.copied + 1 }) (takeLine x.copied src l s)
      else modLane l (fun x => { x with step := 3 }) s
    else if x.step = 3 then
      match x.dirty.first with
      | some i => takeLine i src l s
      | none => s
    else s
  | none => s

/-- At 4 GB/s a line of 256 bytes is copied in 64 ns (R282). -/
def resyncTick (s : State) : State := if s.clk.now % 64 = 0 then (allFin 3).foldl (fun s l => resyncLine l s) s else s

/-- RESYNC_FINAL_COPY (R282, R285): once the whole partition has been copied, every data line and context of the source lane, with its
digest; the read corrects `fixed` single-bit errors of the source (R35). The lines count as dirty until the lane rejoins, for a final
copy may be abandoned. -/
def execResyncFinalCopy (l : LaneId) (fixed : Nat) (s : State) : Host.Outcome State Fault Refusal :=
  let d := (s.lanes.get l).dirty.count
  let t := finalCopyNs s d
  match sourceLane s with
  | some src =>
    if (s.lanes.get l).state = .resync ∧ (s.lanes.get l).step = 3 ∧ !(s.lanes.get l).finalDone ∧ windowFits s t ∧ !s.fwu.pausing ∧ storeIntact s then
      let y := s.lanes.get src
      ok (modLane l (fun x =>
        { x with mem := y.mem, ctx := y.ctx, snaps := y.snaps, step := 4, finalDirty := d, finalDone := true, finalT := s.clk.ct + t })
        (correctedIn src fixed s))
    else ok s
  | none => ok s

/-- The time a lane has been resynchronising while RUNNING, in ns (R286). -/
def resyncElapsed (s : State) (l : LaneId) : Nat :=
  (s.lanes.get l).resyncNs + if runsProgram s then s.clk.now - (s.lanes.get l).resyncAt else 0

/-- RESYNC_STARVED (R286). -/
def execResyncStarved (l : LaneId) (s : State) : Host.Outcome State Fault Refusal :=
  if (s.lanes.get l).state = .resync ∧ 10000000000 ≤ resyncElapsed s l then
    ok (eventAt 0x010D (laneSource l) 0 (det [(1, 1), (1, (s.lanes.get l).abandoned.toNat)]) s.clk.ct
      (closeRecovery (some l) (modLane l (fun x => { x with state := .starved, step := 0, finalDone := false }) s)))
  else ok s

/-- A lane rejoins at the release with CT `ct` (R285, step 6): the mode rises by one step, and the return to
two-out-of-three restores the allowance (R292). -/
def rejoin (l : LaneId) (s : State) : State :=
  let x := s.lanes.get l
  let s1 := modLane l (fun x =>
    { x with state := .inService, step := 0, dirty := .clear, copied := 0, finalDone := false, rejoins := satInc x.rejoins 1, buffer := [], queue := [], owed := [] }) s
  let src := sourceLane s
  let s2 := closeRecovery (some l) (setMode (s.vot.mode - 1) (s1.modTsk fun k =>
    { k with run := k.run.map fun x => { x with ends := vmod x.ends l fun _ => (src.map x.ends.get).getD none } }))
  let s3 := if s.vot.mode = 1 then s2.modVot fun v => { v with singleLeft := fullAllowance s }
    else s2.modVot fun v => { v with singleLeft := singleLeft s }
  eventAt 0x010C (laneSource l) 0 (det [(4, x.finalDirty), (4, finalCopyNs s x.finalDirty)]) s.clk.ct s3

/-- The lanes in the order in which their faults were detected, lane A first at one CT (R298). -/
def rejoinOrder (s : State) : List LaneId :=
  (allFin 3).foldl (fun ls l =>
    ls.takeWhile (fun x => (s.lanes.get x).exclCt ≤ (s.lanes.get l).exclCt) ++ l ::
      ls.dropWhile (fun x => (s.lanes.get x).exclCt ≤ (s.lanes.get l).exclCt)) []

/-- The lanes whose final copy is complete at a release with CT `ct` rejoin; a release that falls while a final copy runs
abandons it (R285, steps 5 and 6). -/
def rejoinLanes (ct : Nat) (s : State) : State :=
  (rejoinOrder s).foldl (fun s l =>
    let x := s.lanes.get l
    if x.state == .resync && x.finalDone then
      if x.finalT ≤ ct then keepPromises s (rejoin l s)
      else modLane l (fun x => { x with finalDone := false, step := 3, abandoned := satInc x.abandoned 1 }) s
    else s) s

/-- ONE_LANE_HOURLY (R293). -/
def execOneLaneHourly (s : State) : Host.Outcome State Fault Refusal :=
  if s.vot.mode = 2 ∧ s.vot.hourAt + 3600000000000 ≤ s.clk.opNs then
    ok (allowanceEvent 1 (s.modVot fun v => { v with hourAt := v.hourAt + 3600000000000 }))
  else ok s

/-- ONE_LANE_EXPIRED (R293). -/
def execOneLaneExpired (s : State) : Host.Outcome State Fault Refusal :=
  if s.vot.mode = 2 ∧ singleLeft s = 0 then ok (enterSafeTalk 5 (allowanceEvent 2 s)) else ok s

/-- ONE_LANE_ALLOWANCE_SAVE (R292). -/
def execOneLaneAllowanceSave (s : State) : Host.Outcome State Fault Refusal :=
  if s.vot.mode = 2 ∧ s.vot.savedAt + 60000000000 ≤ s.clk.opNs then
    ok (saveTimePage (s.modVot fun v => { v with savedAt := s.clk.opNs }))
  else ok s

/-! ## Registers and descriptors (R303) -/

/-- A lane as two bits, 3 for none. -/
def laneCode (l : Option LaneId) : Nat := (l.map fun x => x.val).getD 3

/-- A VOT register by its offset from 0x0001_0000. -/
def votWord (s : State) (off : Nat) : Nat :=
  let v := s.vot
  match off with
  | 0x00 => v.mode + lanesMask s * 16 + openCount s * 256
  | 0x04 => s.rws.votCfg.toNat
  | 0x08 => singleLeft s
  | 0x0C => (v.mismatches.get 0).toNat + (v.exclusions.get 0).toNat * 65536
  | 0x10 => (v.mismatches.get 1).toNat + (v.exclusions.get 1).toNat * 65536
  | 0x14 => (v.mismatches.get 2).toNat + (v.exclusions.get 2).toNat * 65536
  | 0x18 => v.lastCt % 4294967296
  | 0x1C => v.lastCt / 4294967296 % 4294967296
  | 0x20 => laneCode v.lastLane + v.lastTask.toNat * 256 + v.lastClass.toNat * 65536
  | 0x24 => voteRate s + v.ratePeak.toNat * 65536
  | 0x28 => bit v.injRan + 2 * bit v.injPass + v.injFirst.toNat * 65536
  | 0x2C => 0
  | _ =>
    let r := v.nest.get (finOr ((off - 0x30) / 4))
    laneCode r.lane + 256 * bit r.opened + r.cls.toNat * 65536

/-- LANE_x_RESYNC: once the final copy is complete no line is dirty and the lane is at step 6 (R285). -/
def resyncWord (s : State) (x : Lane) : Nat :=
  x.abandoned.toNat * 16777216 +
    (if x.step = 0 then 0 else if x.finalDone && decide (x.finalT ≤ s.clk.ct) then 6 * 65536 else x.step * 65536 + x.dirty.count)

/-- A LANE register by its offset from the lane's base. -/
def laneWord (s : State) (l : LaneId) (off : Nat) : Nat :=
  let x := s.lanes.get l
  match off with
  | 0x00 => x.state.code + x.cause.toNat * 256 + x.rejoins.toNat * 65536
  | 0x04 => x.khz.toNat
  | 0x08 => x.mv.toNat + x.supplyFaults.toNat * 65536
  | 0x0C => x.corr.toNat + x.uncorr.toNat * 65536
  | 0x10 => bit x.testDone + 2 * bit x.testPass + x.testPart.toNat * 256 + x.testMicros.toNat * 65536
  | 0x14 => resyncWord s x
  | 0x18 => x.exclCt % 4294967296
  | 0x1C => x.exclCt / 4294967296 % 4294967296
  | 0x20 => x.outFaults.toNat
  | _ => 0

/-- Consecutive registers as bytes. -/
def regBytes (f : Nat → Nat) (off : Nat) : Nat → List Byte
  | 0 => []
  | n + 1 => leBytes 4 (f off) ++ regBytes f (off + 4) n

/-- LANE_STATUS (R303). -/
def doLaneStatus (e : Outst) (s : State) : State × Work :=
  if e.desc.len < 208 then (s, .finish (doneWith stBadDescriptor 0))
  else
    let bs := regBytes (votWord s) 0 16 ++ (allFin 3).flatMap fun l => fitTo 48 (regBytes (laneWord s l) 0 9)
    (bufWrite e.desc 0 bs s, .finish (doneOk (fields [(1, s.vot.mode), (1, lanesMask s)])))

/-- LANE_STATUS. -/
def execLaneStatus (q : RingId) (s : State) : Host.Outcome State Fault Refusal := ok (serve q 0x80 s doLaneStatus)

/-- LANE_RETEST (R281): the self-test of a FAILED lane, in any mode except none. -/
def doLaneRetest (q : RingId) (e : Outst) (s : State) : State × Work :=
  match fin? 3 (e.desc.par 24 1) with
  | none => (s, .finish (doneWith stBadDescriptor 0))
  | some l =>
    if s.vot.mode = 3 ∨ (s.lanes.get l).state ≠ .failed then (s, .finish (doneWith stBadState 0))
    else
      (awaitVerdict l (modLane l (fun x => { x with state := .selfTest, verdict := none, retest := some (q, e.num) }) s),
        .wait e.bound)

/-- LANE_RETEST. -/
def execLaneRetest (q : RingId) (s : State) : Host.Outcome State Fault Refusal := ok (serve q 0x81 s (doLaneRetest q))

/-- LANE_EXCLUDE (R294, R302): in two-out-of-three mode alone. -/
def doLaneExclude (e : Outst) (s : State) : State × Work :=
  match fin? 3 (e.desc.par 24 1) with
  | none => (s, .finish (doneWith stBadDescriptor 0))
  | some l =>
    if s.vot.mode ≠ 0 then (s, .finish (doneWith stBadState 0))
    else
      let s1 := releaseUnit l (stopLane .hostOut 0 l s)
      let s2 := s1.modVot fun v => { v with exclusions := vmod v.exclusions l fun n => satInc n 1 }
      (judgeAll (restartResync 2 (setMode 1 s2)), .finish (doneOk []))

/-- LANE_EXCLUDE. -/
def execLaneExclude (q : RingId) (s : State) : Host.Outcome State Fault Refusal := ok (serve q 0x82 s doLaneExclude)

/-- LANE_REJOIN (R286, R302). -/
def doLaneRejoin (e : Outst) (s : State) : State × Work :=
  match fin? 3 (e.desc.par 24 1) with
  | none => (s, .finish (doneWith stBadDescriptor 0))
  | some l =>
    let st := (s.lanes.get l).state
    if (st = .wait ∨ st = .starved ∨ st = .hostOut) ∧ (sourceLane s).isSome then
      (startResync true l s, .finish (doneOk []))
    else (s, .finish (doneWith stBadState 0))

/-- LANE_REJOIN. -/
def execLaneRejoin (q : RingId) (s : State) : Host.Outcome State Fault Refusal := ok (serve q 0x83 s doLaneRejoin)

/-- The injection test (R295, R296), with class 0x0113. -/
def injectTest (failed : Option (Fin 778)) (s : State) : State :=
  let f := (failed.map fun x => x.val).getD 0xFFFF
  event 0x0113 (det [(1, bit failed.isSome), (1, 0), (2, f)]) (s.modVot fun v =>
    { v with injRan := true, injPass := failed.isNone, injFirst := BitVec.ofNat 16 f })

/-- VOT_INJECT (R295): while STOPPED alone. -/
def doVotInject (failed : Option (Fin 778)) (_ : Outst) (s : State) : State × Work :=
  if s.sys.run ≠ .stopped then (s, .finish (doneWith stBadState 0))
  else
    let s1 := injectTest failed s
    (s1, .finish (doneOk (fields [(4, votWord s1 0x28)])))

/-- VOT_INJECT. -/
def execVotInject (q : RingId) (failed : Option (Fin 778)) (s : State) : Host.Outcome State Fault Refusal :=
  ok (serve q 0x84 s (doVotInject failed))

end Sys2Proof.Machine
end

