-- ==== Sys2Proof/Machine/Store.lean ====
section
/-! DEFINITION. The persistent store: pages and their copies, groups and the journal, the RWP ring, recovery, passwords and the retentive
save (R507 to R532). -/

namespace Sys2Proof.Machine

/-! ## Pages (R507 to R511, R521, R522) -/

/-- A copy of a page that nothing has written (log entry 19). -/
def PageCopy.blank : PageCopy :=
  { body := List.replicate 256 0, seq := 0, kind := 0, group := 0, writes := 0, ct := 0, bad := false }

/-- A page of the store. -/
def pstPage (s : State) (n : Nat) : PstPage :=
  (s.pst.pages.find? fun p => p.num == n).getD { num := n, c0 := .blank, c1 := .blank }

/-- Put a page into the list of pages. -/
def putPage (p : PstPage) : List PstPage → List PstPage
  | [] => [p]
  | x :: r => if x.num = p.num then p :: r else x :: putPage p r

/-- The two journal slots of a group kind. -/
def journalOf (s : State) (kind : Nat) : Journal × Journal :=
  (s.pst.journal.get (finOr (2 * (kind - 1))), s.pst.journal.get (finOr (2 * (kind - 1) + 1)))

/-- A group is open and not committed (R509). -/
def groupOpen (s : State) (kind group : Nat) : Bool :=
  let j := journalOf s kind
  kind != 0 && ((j.1.state == 1 && j.1.group == group) || (j.2.state == 1 && j.2.group == group))

/-- A copy is readable (R509). -/
def copyReadable (s : State) (c : PageCopy) : Bool := !c.bad && !groupOpen s c.kind c.group

/-- The copy that a read returns: `some false` for copy 0, `some true` for copy 1 (R510). -/
def readChoice (s : State) (p : PstPage) : Option Bool :=
  match copyReadable s p.c0, copyReadable s p.c1 with
  | false, false => none
  | true, false => some false
  | false, true => some true
  | true, true => if p.c0.seq = p.c1.seq then some false else some (decide (0 < serialDiff p.c1.seq p.c0.seq))

/-- What a page reads as, without the records of a read. -/
def peekPage (s : State) (n : Nat) : Option (List Byte) :=
  let p := pstPage s n
  (readChoice s p).map fun c => if c then p.c1.body else p.c0.body

/-- Read a page (R510): classes 0x0703 and 0x0704, and the count of unreadable copies. -/
def readPage (n : Nat) (s : State) : Option (List Byte) × State :=
  let p := pstPage s n
  let bad := bit (!copyReadable s p.c0) + bit (!copyReadable s p.c1)
  let s1 := s.modPst fun x => { x with eccBad := satInc x.eccBad bad }
  match readChoice s p with
  | none => (none, event 0x0704 (det [(4, n), (1, 3)]) s1)
  | some c =>
    if copyReadable s p.c0 && copyReadable s p.c1 && p.c0.seq == p.c1.seq && p.c0.body != p.c1.body then
      (some p.c0.body, event 0x0703 (det [(4, n)]) s1)
    else (some (if c then p.c1.body else p.c0.body), s1)

/-- The larger readable WRITES of a page. -/
def pageWrites (s : State) (p : PstPage) : Nat :=
  max (if copyReadable s p.c0 then p.c0.writes else 0) (if copyReadable s p.c1 then p.c1.writes else 0)

/-- The copy that a write targets: `true` for copy 1 (R511, step 1). -/
def writeTarget (s : State) (p : PstPage) : Bool :=
  match readChoice s p with
  | none => false
  | some c => !c

/-- A write was counted against a page: the wear warning of R521. -/
def wearWarn (n writes : Nat) (s : State) : State :=
  if 9000000000 ≤ writes ∧ !s.pst.warned.contains n then
    event 0x0705 (det [(4, n)]) (s.modPst fun x => { x with warned := x.warned ++ [n] })
  else s

/-- A write refused because the page is worn (R522), recorded once. -/
def wornPage (n : Nat) (s : State) : State :=
  if s.pst.wornPages.contains n then s
  else event 0x0706 (det [(4, n)]) (s.modPst fun x => { x with wornPages := x.wornPages ++ [n] })

/-- Write a page (R511), of which `fails` comparisons fail; the answer says whether the page was written. -/
def writePage (n : Nat) (body : List Byte) (kind group fails : Nat) (s : State) : Bool × State :=
  let p := pstPage s n
  let w := pageWrites s p
  if 10000000000 ≤ w then (false, wornPage n s)
  else
    let t := writeTarget s p
    let other := if t then p.c0 else p.c1
    let c : PageCopy :=
      { body := fitTo 256 body, seq := if copyReadable s other then other.seq + 1 else 0, kind := kind, group := group,
        writes := w + 1, ct := s.clk.ct, bad := decide (2 ≤ fails) }
    let p1 : PstPage := if t then { p with c1 := c } else { p with c0 := c }
    let s1 := s.modPst fun x => { x with pages := putPage p1 x.pages }
    if 2 ≤ fails then (false, event 0x0702 (det [(4, n)]) s1) else (true, wearWarn n (w + 1) s1)

/-! ## Groups (R515) -/

/-- The newer of two journal slots is the second. -/
def newerSecond (a b : Journal) : Bool :=
  if b.state = 0 then false else if a.state = 0 then true else decide (0 < serialDiff b.seq a.seq)

/-- The newer journal slot of a kind. -/
def newerSlot (s : State) (kind : Nat) : Journal :=
  let j := journalOf s kind
  if newerSecond j.1 j.2 then j.2 else j.1

/-- The index of the older journal slot of a kind. -/
def olderIdx (s : State) (kind : Nat) : Fin 4 :=
  let j := journalOf s kind
  finOr (2 * (kind - 1) + (if newerSecond j.1 j.2 then 0 else 1))

/-- Change a journal slot. -/
def modJournal (i : Fin 4) (f : Journal → Journal) (s : State) : State :=
  s.modPst fun x => { x with journal := vmod x.journal i f }

/-- Write the pages of a group in order; the answer says whether every page was written. -/
def writeGroup (kind group : Nat) : Nat → List (List Byte) → State → Bool × State
  | _, [], s => (true, s)
  | n, b :: bs, s =>
    let r := writePage n b kind group 0 s
    if r.1 then writeGroup kind group (n + 1) bs r.2 else (false, r.2)

/-- The copies of a group, and how many there are. -/
def groupCopies (s : State) (kind group : Nat) : Nat :=
  (s.pst.pages.map fun p =>
    bit (!p.c0.bad && p.c0.kind == kind && p.c0.group == group) + bit (!p.c1.bad && p.c1.kind == kind && p.c1.group == group)).sum

/-- Roll a group back: its copies become unreadable, and its slot state 3 (R516, step 2). -/
def rollBack (i : Fin 4) (kind : Nat) (s : State) : State :=
  let g := (s.pst.journal.get i).group
  modJournal i (fun j => { j with state := 3 }) (s.modPst fun x =>
    { x with pages := x.pages.map fun p =>
        { p with
          c0 := if p.c0.kind = kind ∧ p.c0.group = g then { p.c0 with bad := true } else p.c0,
          c1 := if p.c1.kind = kind ∧ p.c1.group = g then { p.c1 with bad := true } else p.c1 } })

/-- Write a group (R515) from page `first`; `cut` is the number of pages written when power fails, `none` where it does not.
A group one of whose pages cannot be written is rolled back (log entry 27). The answer says whether it was committed. -/
def saveGroup (kind : Nat) (tag : W64) (first bytes : Nat) (bodies : List (List Byte)) (cut : Option Nat) (s : State) :
    Bool × State :=
  let i := olderIdx s kind
  let new := newerSlot s kind
  let g := (new.group + 1) % 268435456
  let s1 := modJournal i (fun _ =>
    { seq := new.seq + 1, group := g, state := 1, tag := tag, first := first, count := bodies.length, ct := s.clk.ct, bytes := bytes }) s
  match cut with
  | some n => (false, (writeGroup kind g first (bodies.take n) s1).2)
  | none =>
    let r := writeGroup kind g first bodies s1
    if r.1 then (true, modJournal i (fun j => { j with state := 2 }) r.2) else (false, rollBack i kind r.2)

/-- The committed group of a kind with the latest sequence. -/
def committedGroup (s : State) (kind : Nat) : Option Journal :=
  let j := journalOf s kind
  if newerSecond j.1 j.2 then (if j.2.state = 2 then some j.2 else if j.1.state = 2 then some j.1 else none)
  else if j.1.state = 2 then some j.1 else if j.2.state = 2 then some j.2 else none

/-- Consecutive pages as bytes, `none` where one is unreadable. -/
def readPages : Nat → Nat → State → Option (List Byte) × State
  | _, 0, s => (some [], s)
  | n, k + 1, s =>
    let r := readPage n s
    match r.1 with
    | none => (none, r.2)
    | some b =>
      let q := readPages (n + 1) k r.2
      (q.1.map fun x => b ++ x, q.2)

/-- Bytes cut into page bodies. -/
def pagesOf : Nat → List Byte → List (List Byte)
  | 0, _ => []
  | n + 1, bs => if bs.isEmpty then [] else fitTo 256 (bs.take 256) :: pagesOf n (bs.drop 256)

/-! ## The RWP ring (R519, R520, R522) -/

/-- The RWP values in ascending BAR0 offset (R519). -/
def Rwp.words (r : Rwp) : List W32 :=
  [r.runCfg, r.taiUtc, r.rtcSync, r.rtcTrim, r.wdgCfg, r.pairCfg] ++
    ((allFin 8).flatMap fun p => [r.mtrCalV.get p, r.mtrCalI.get p, r.mtrPhase.get p]) ++ [r.fwuCfg]

/-- The 256 bytes of a ring record. -/
def RwpRec.bytes (r : RwpRec) : List Byte :=
  let b := fields [(4, r.seq.toNat), (8, r.ct), (4, 0)] ++ fitTo 236 (r.vals.words.flatMap fun w => leBytes 4 w.toNat)
  b ++ leBytes 4 (crc32c b).toNat

/-- The ring records still usable. -/
def usableRecs (s : State) : List (Fin 64) := (allFin 64).filter fun i => decide (s.pst.rwpCount.get i < 10000000000)

/-- The next usable record from the place of the ring's writer on. -/
def nextRec (s : State) : Option (Fin 64) :=
  match (usableRecs s).find? fun i => decide (s.pst.ringNext ≤ i.val) with
  | some i => some i
  | none => (usableRecs s).head?

/-- The page number of a ring record. -/
def ringPage (i : Fin 64) : Nat := 0xE000 + i.val

/-- After a ring record write: wear (R521), and too few usable records (R522). -/
def ringWear (i : Fin 64) (s : State) : State :=
  let n := s.pst.rwpCount.get i
  let s1 := wearWarn (ringPage i) n s
  let s2 := if 10000000000 ≤ n then wornPage (ringPage i) s1 else s1
  if (usableRecs s2).length < 2 ∧ !s2.pst.rwpBad then s2.modPst fun x => { x with rwpBad := true } else s2

/-- Write a record of the RWP values as they stand (R519). -/
def writeRwp (s : State) : State :=
  match nextRec s with
  | none => s
  | some i =>
    let r : RwpRec := { seq := s.pst.ringSeq, ct := s.clk.ct, vals := { s.rwp with changed := false } }
    let s1 := s.modPst fun x =>
      { x with
        ring := vmod x.ring i fun _ => some r, ringNext := (i.val + 1) % 64, ringSeq := x.ringSeq + 1,
        rwpCount := vmod x.rwpCount i (· + 1), records := satInc x.records 1 }
    ringWear i (s1.modRwp fun r => { r with changed := false })

/-- The ring record with the latest sequence. -/
def latestRec (s : State) : Option RwpRec :=
  s.pst.ring.toList.foldl (fun b r =>
    match b, r with
    | some x, some y => if 0 < serialDiff y.seq x.seq then some y else some x
    | none, y => y
    | x, none => x) none

/-! ## Recovery (R516) -/

/-- Roll back the open group of a kind, if its newer slot holds one; the answer gives the copies made unreadable. -/
def recoverKind (kind : Nat) (s : State) : Nat × State :=
  let j := journalOf s kind
  let second := newerSecond j.1 j.2
  let x := if second then j.2 else j.1
  if x.state = 1 then (groupCopies s kind x.group, rollBack (finOr (2 * (kind - 1) + bit second)) kind s) else (0, s)

/-- The kinds whose newer slot is in a state, bit k − 1. -/
def kindsIn (s : State) (st : Nat) : Nat := bit ((newerSlot s 1).state == st) + 2 * bit ((newerSlot s 2).state == st)

/-- The RWP values as first shipped; on the -ES the watchdog is enabled (R520, R573). -/
def shippedRwp (s : State) : Rwp :=
  { State.resetRwp with wdgCfg := if safetyOption s then 0x10064 else 100 }

/-- The RWP values that the store holds: those of the last whole ring record, else those first shipped (R14, R519). -/
def storedRwp (s : State) : Rwp :=
  match latestRec s with
  | some r => r.vals
  | none => shippedRwp s

/-- Step 3 of R516: load the RWP registers, or take the values first shipped with class 0x0704 where no ring record
is readable. A store in which no record was ever written is as first shipped and records nothing (log entry 28). -/
def loadRwp (s : State) : State :=
  match latestRec s with
  | some r => s.modRwp fun _ => if safetyOption s then { r.vals with wdgCfg := r.vals.wdgCfg ||| 0x10000#32 } else r.vals
  | none =>
    let s1 := s.modRwp fun _ => shippedRwp s
    if s.pst.ringSeq = 0 then s1 else event 0x0704 (det [(4, 0xFFFFFFFF), (1, 0)]) s1

/-- Recovery of the store at power-up (R516): class 0x0701, and class 0x0709 for a save made as power failed. -/
def recoverStore (s : State) : State :=
  let back := kindsIn s 1
  let done := kindsIn s 2
  let r1 := recoverKind 1 s
  let r2 := recoverKind 2 r1.2
  let s1 := loadRwp r2.2
  let s2 := event 0x0701 (det [(1, back), (1, done), (2, r1.1 + r2.1)]) s1
  let s3 := s2.modPst fun x => { x with ready := true, recovering := false, queue := [], retSaving := false, records := 0, eccBad := 0, eccFixed := 0 }
  match s3.pst.retDone with
  | some (pages, us) => event 0x0709 (det [(1, 0), (2, pages), (1, 0), (4, us)]) (s3.modPst fun x => { x with retDone := none })
  | none => s3

/-! ## Passwords (R524 to R526) -/

/-- The number of the password page. -/
def passwordPage : Nat := 0xE044

/-- The body of the password page; its layout is the model's (log entry 20). -/
def passwordBody (s : State) : List Byte :=
  s.pst.pwd.toList.flatMap fun r =>
    fitTo 16 r.read ++ fitTo 16 r.write ++ fields [(8, r.fails), (8, (r.until_.map fun u => u - s.clk.opNs).getD 0), (8, r.next)]

/-- Change a region's passwords and write the password page. -/
def modPwd (r : Fin 3) (f : PwdRegion → PwdRegion) (s : State) : State :=
  let s1 := s.modPst fun x => { x with pwd := vmod x.pwd r f }
  queuePage 4 passwordPage (passwordBody s1) .nothing s1

/-- A region is in back-off. -/
def backedOff (s : State) (r : Fin 3) : Bool := (s.pst.pwd.get r).until_.isSome

/-- A failed attempt (R525): the eighth and each later one starts a back-off. -/
def failedAttempt (r : Fin 3) (kind : Nat) (s : State) : State :=
  let x := s.pst.pwd.get r
  let n := x.fails + 1
  let s1 := event 0x0707 (det [(1, r.val), (1, kind), (1, n % 256)]) s
  if 8 ≤ n then
    event 0x0708 (det [(1, r.val), (4, x.next)])
      (modPwd r (fun x => { x with fails := n, until_ := some (s.clk.opNs + x.next * 1000000000), next := min 131072 (x.next * 2) }) s1)
  else modPwd r (fun x => { x with fails := n }) s1

/-- Check a password of a region, the read one or the write one; one that is not set accepts every attempt. -/
def checkPwd (r : Fin 3) (write : Bool) (given : List Byte) (s : State) : Bool × State :=
  let x := s.pst.pwd.get r
  let want := if write then x.write else x.read
  if want = List.replicate 16 0 then (true, s)
  else if backedOff s r then (false, s)
  else if given = want then
    (true, if x.fails = 0 ∧ x.next = 1 then s else modPwd r (fun x => { x with fails := 0, next := 1 }) s)
  else (false, failedAttempt r (bit write) s)

/-- The region that guards reads of a page: image slots, firmware slots or the parameter region (R44, R524). -/
def regionOf (page : Nat) : Option (Fin 3) :=
  if page < 0x8000 then some 0 else if page < 0xC000 then some 1
  else if 0xE000 ≤ page ∧ page < 0xF000 then some 2 else none

/-! ## Retentive data (R527 to R532) -/

/-- The active image has retentive symbols. -/
def hasRetentive (s : State) : Bool := ((activeImage s).map fun i => !i.retentive.isEmpty).getD false

/-- The bytes of retentive data that are saved. -/
def retBytesNow (s : State) : Nat := ((activeImage s).map Image.retUsed).getD 0

/-- A retentive save (R530) for a reason: 0 warning, 1 restart, 2 host. The answer says whether it was committed; a shadow error
cancels it (R528). Class 0x0709 of a save made as power fails waits for the next power-up; its duration is a
free value. -/
def retentiveSave (why : Nat) (cut : Option Nat) (s : State) : Bool × State :=
  if hasRetentive s then
    if s.pst.shadowBad then (false, s.modPst fun x => { x with shadowBad := false })
    else
      let n := retBytesNow s
      let bodies := pagesOf 128 (memRead s.pst.shadow 0 n)
      let tag := ((activeImage s).map fun i => i.id).getD 0
      let r := saveGroup 1 tag 0xE080 n bodies cut s
      if r.1 then
        let us := (freeValue r.2).1.toNat % 4294967296
        let s1 := (freeValue r.2).2
        if why = 0 then (true, s1.modPst fun x => { x with retDone := some (bodies.length, us) })
        else (true, event 0x0709 (det [(1, why), (2, bodies.length), (1, 0), (4, us)]) s1)
      else r
  else (false, s)

/-- Restore the retentive data of an image from the committed save with its tag (R261, R532), into a data partition; the
answer says whether a save with another tag was met. -/
def restoreRetentive (i : Image) (s : State) (m : Memory) : Memory × Bool × State :=
  match committedGroup s 1 with
  | none => (m, false, s)
  | some j =>
    if j.tag ≠ i.id then (m, true, s)
    else
      let r := readPages j.first j.count s
      match r.1 with
      | none => (m, false, r.2)
      | some bs =>
        ((retPlaces 0 i.retentive).foldl (fun m x => x.1.writeTo [] (slice bs x.2 x.1.size) m) m, false, r.2)

end Sys2Proof.Machine
end

