-- ==== Sys2Proof/Machine/Recorder.lean ====
section
/-! DEFINITION. The event recorder: records and their pages, writing, recovery and reading (R537 to R553). -/

namespace Sys2Proof.Machine

/-- The page of a record (R539). -/
def evrPage (i : Nat) : Nat := 49152 + i / 4

/-- Bytes 0 to 55 of a record. -/
def EvItem.head (i : Nat) (e : EvItem) : List Byte :=
  fields [(4, i), (2, e.cls.toNat), (2, e.source.toNat), (8, e.ct), (2, e.base.toNat), (1, e.flags.toNat), (1, 0),
    (4, e.opSeconds.toNat), (4, e.pcycles.toNat), (8, e.detail.toNat), (4, e.traceSeq.toNat), (16, 0)]

/-- The 64 bytes of a record. -/
def EvItem.record (i : Nat) (valid : Bool) (e : EvItem) : List Byte :=
  let h := e.head i
  h ++ leBytes 4 (crc32c h).toNat ++ leBytes 4 (if valid then 0xA5 else 0)

/-- The slot of a record as the store holds it. -/
def evrSlot (s : State) (i : Nat) : List Byte :=
  slice ((peekPage s (evrPage i)).getD (List.replicate 256 0)) (64 * (i % 4)) 64

/-- Write the bytes of a slot (one page write). -/
def writeSlot (i : Nat) (bs : List Byte) (fails : Nat) (s : State) : Bool × State :=
  let b := (peekPage s (evrPage i)).getD (List.replicate 256 0)
  writePage (evrPage i) (putBytes b (64 * (i % 4)) bs) 0 0 fails s

/-- The stamp of a record is behind the last of its source (R540, R552). -/
def behindLast (s : State) (e : EvItem) : Bool :=
  match assoc? e.key s.evr.last with
  | some (b, ct) =>
    let d := (e.base - b).toInt
    decide (d < 0) || (decide (d = 0) && decide (e.ct < ct))
  | none => false

/-- The recorder stops storing: what waits is counted (R544, R546). -/
def Evr.stopStoring (e : Evr) : Evr := { e with overflow := satInc e.overflow e.queue.length, queue := [] }

/-- The record at the front of the queue is complete in its slot (R542, R546, R552). -/
def recordDone (i : EvItem) (rest : List EvItem) (s : State) : State :=
  let n := s.evr.next
  let behind := behindLast s i
  let s1 := s.modEvr fun e =>
    { e with queue := rest, body := false, tries := 0, retryAt := none, last := assocSet i.key (i.base, i.ct) e.last }
  let s2 :=
    if behind then
      let d := det [(1, i.cls.toNat / 256), (2, i.source.toNat)]
      let x := evItem 0x0713 0xFFFF 0 d s.clk.ct (traceSeqNow s1 5) s1
      (traceGen 5 0 0xFFFF (fields [(2, 0x0713), (2, 0), (8, d.toNat)]) s.clk.ct s1).modEvr fun e => { e with queue := x :: e.queue }
    else s1
  if n = 32767 then
    event 0x0712 (det [(4, s.sys.pcycles.toNat)]) (raise 39 (s2.modEvr fun e => Evr.stopStoring { e with full := true }))
  else s2.modEvr fun e => { e with next := n + 1 }

/-- Once the queue has room, the number discarded is queued as class 0x0710 (R543). -/
def noteDropped (s : State) : State :=
  if s.evr.dropCount = 0 ∨ 256 ≤ s.evr.queue.length ∨ s.evr.full ∨ s.evr.fault then s
  else
    let d := det [(4, s.evr.dropCount), (4, s.evr.dropFirst % 4294967296)]
    event 0x0710 d (s.modEvr fun e => { e with dropCount := 0, dropFirst := 0 })

/-- A failed attempt (R544): it is repeated after 10 ms; after the third repetition the recorder stops. -/
def recordFailed (s : State) : State :=
  if 3 ≤ s.evr.tries then
    event 0x0714 (det [(4, s.evr.next)]) (raise 39 (s.modEvr fun e => Evr.stopStoring { e with fault := true, retryAt := none }))
  else s.modEvr fun e => { e with tries := e.tries + 1, retryAt := some (s.clk.now + 10000000) }

/-- Write the record at the front of the queue (R542). -/
def writeRecord (fails1 fails2 : Nat) (cut : Bool) (s : State) : State :=
  match s.evr.queue with
  | [] => s
  | i :: rest =>
    let n := s.evr.next
    let r1 := writeSlot n (i.record n false) fails1 s
    if !r1.1 then recordFailed r1.2
    else if cut then r1.2.modEvr fun e => { e with body := true }
    else
      let r2 := writeSlot n (i.record n true) fails2 r1.2
      if r2.1 then noteDropped (recordDone i rest r2.2) else recordFailed r2.2

/-- The recorder may write: ready, neither full nor stopped, and no service pause runs (R544, R546, R548, R620). -/
def mayRecord (s : State) : Bool := s.evr.ready && !s.evr.full && !s.evr.fault && !s.fwu.pausing

/-- EVR_RECORD_WRITE (R542). -/
def execEvrRecordWrite (f1 f2 : Fin 3) (cut : Bool) (s : State) : Host.Outcome State Fault Refusal :=
  if mayRecord s && s.evr.retryAt.isNone then ok (writeRecord f1.val f2.val cut s) else ok s

/-- EVR_WRITE_REPEAT (R544). -/
def execEvrWriteRepeat (f1 f2 : Fin 3) (s : State) : Host.Outcome State Fault Refusal :=
  match s.evr.retryAt with
  | some t => if mayRecord s && decide (t ≤ s.clk.now) then ok (writeRecord f1.val f2.val false s) else ok s
  | none => ok s

/-- Write up to `n` queued records, as before a chip restart (R549). -/
def flushRecords : Nat → State → State
  | 0, s => s
  | n + 1, s => if s.evr.queue.isEmpty || !mayRecord s then s else flushRecords n (writeRecord 0 0 false s)

/-- The records that 20 ms allow at 240 µs each (R542, R549; log entry 29). -/
def flushLimit : Nat := 83

/-- The first slot whose VALID is 0, from slot `i` on. -/
def firstInvalid (s : State) : Nat → Nat → Option Nat
  | 0, _ => none
  | n + 1, i => if rd (evrSlot s i) 60 4 = 0 then some i else firstInvalid s n (i + 1)

/-- The recovery of the recorder (R548). -/
def recoverEvr (s : State) : State :=
  match firstInvalid s 32768 0 with
  | none => s.modEvr fun e => { e with full := true, next := 32767, ready := true }
  | some i =>
    let b := evrSlot s i
    let good := rd b 56 4 == (crc32c (b.take 56)).toNat && rd b 0 4 == i
    let void : EvItem :=
      { cls := 0x0711, source := 0xFFFF, ct := 0, base := s.tim.base, flags := 0, opSeconds := BitVec.ofNat 32 (s.clk.opNs / 1000000000),
        pcycles := s.sys.pcycles, detail := det [(4, i)], traceSeq := 0xFFFFFFFF, arrived := s.clk.now }
    let s1 := if good then (writeSlot i (putBytes b 60 (leBytes 4 0xA5)) 0 s).2
      else (writeSlot i (void.record i true) 0 (writeSlot i (void.record i false) 0 s).2).2
    if i = 32767 then
      event 0x0712 (det [(4, s.sys.pcycles.toNat)]) (raise 39 (s1.modEvr fun e => Evr.stopStoring { e with full := true, next := 32767, ready := true }))
    else s1.modEvr fun e => { e with next := i + 1, ready := true }

/-- EVR_STATUS as a word. -/
def evrStatus (s : State) : Nat :=
  bit (s.evr.ready) + 2 * bit s.evr.full + 4 * bit s.evr.body + 8 * bit s.evr.fault + 65536 * s.evr.queue.length

/-- EVR_READ (R550): MEDIA_ERROR where a page is unreadable. -/
def doEvrRead (e : Outst) (s : State) : State × Work :=
  let a := e.desc.par 24 4
  if 32767 < a then (s, .finish (doneWith stBadDescriptor 0))
  else
    let n := min (e.desc.len / 64) (32768 - a)
    let first := a / 4
    let last := (a + n - 1) / 4
    let r := readPages (49152 + first) (if n = 0 then 0 else last + 1 - first) s
    match r.1 with
    | none => (r.2, .finish (doneWith stMediaError 0))
    | some bs =>
      (bufWrite e.desc 0 (slice bs (64 * (a % 4)) (64 * n)) r.2,
        .finish (doneOk (fields [(4, a), (4, n), (4, s.evr.next)])))

/-- EVR_READ. -/
def execEvrRead (q : RingId) (s : State) : Host.Outcome State Fault Refusal := ok (serve q 0x60 s doEvrRead)

/-- EVR_STATUS_READ (R550). -/
def doEvrStatus (_ : Outst) (s : State) : State × Work :=
  (s, .finish (doneOk (fields [(4, evrStatus s), (4, s.evr.next), (4, s.evr.overflow.toNat), (4, s.evr.dropped.toNat)])))

/-- EVR_STATUS_READ. -/
def execEvrStatusRead (q : RingId) (s : State) : Host.Outcome State Fault Refusal := ok (serve q 0x61 s doEvrStatus)

end Sys2Proof.Machine
end

