-- ==== Sys2Proof/Machine/Trace.lean ====
section
/-! DEFINITION. The Comet trace: the drain into its partition, losses, the freeze, and the trace descriptors (R73 to R90). -/

namespace Sys2Proof.Machine

/-- How many records the trace partition holds (R40, R75). -/
def traceCapacity (s : State) : Nat := s.part.trace * 1048576 / 32

/-- Count bytes written by the second (CMT_RATE.MBPS). -/
def Cmt.countRate (now bytes : Nat) (c : Cmt) : Cmt :=
  let w := now / 1000000000
  if w = c.rateWindow then { c with rateNow := c.rateNow + bytes }
  else { c with rateLast := if w = c.rateWindow + 1 then c.rateNow else 0, rateNow := bytes, rateWindow := w }

/-- The bytes written in the last complete second (CMT_RATE.MBPS). -/
def Cmt.rateRead (now : Nat) (c : Cmt) : Nat :=
  let w := now / 1000000000
  if w = c.rateWindow then c.rateLast else if w = c.rateWindow + 1 then c.rateNow else 0

/-- The sequence number of the oldest record kept; CMT_HEAD where none is. -/
def Cmt.oldest (c : Cmt) : W32 :=
  match c.recs with
  | r :: _ => r.seq
  | [] =>
    match c.stage with
    | r :: _ => r.seq
    | [] => c.head

/-- Copy one staged record into the partition (R74, R84): a full partition loses its oldest record, or stops the writer
where STOP_FULL is set. -/
def Cmt.drainOne (cap : Nat) (c : Cmt) : Cmt :=
  match c.stage with
  | [] => c
  | r :: st =>
    if c.full then c
    else if c.recs.length < cap then { c with recs := c.recs ++ [r], stage := st }
    else if c.stopFull then { c with full := true }
    else
      let rs := (c.recs ++ [r]).drop 1
      { c with recs := rs, stage := st, wrapped := true,
               tail := match rs with
                 | x :: _ => x.seq
                 | [] => c.tail }

/-- Copy up to `n` staged records. -/
def Cmt.drain (cap : Nat) : Nat → Cmt → Cmt
  | 0, c => c
  | n + 1, c => Cmt.drain cap n (c.drainOne cap)

/-- TRACE_DRAIN (R74): the bytes copied count towards CMT_RATE. -/
def execTraceDrain (n : Nat) (s : State) : Host.Outcome State Fault Refusal :=
  ok (s.modCmt fun c =>
    let c1 := c.drain (traceCapacity s) (min n c.stage.length)
    c1.countRate s.clk.now (32 * (c.stage.length - c1.stage.length)))

/-- A loss record (R77): the number lost and the chip time of the first. -/
def lossRecord (n first : Nat) (s : State) : State :=
  traceGen 8 0 0 (fields [(4, n), (8, first), (4, 0)]) s.clk.ct s

/-- TRACE_LOSS_RECORD (R73): one loss record once the staging buffer has space again. -/
def execTraceLossRecord (s : State) : Host.Outcome State Fault Refusal :=
  let c := s.cmt
  if 0 < c.dropCount ∧ c.stage.length < stageCapacity ∧ !c.silent ∧ c.enable then
    ok (lossRecord c.dropCount c.dropFirst (s.modCmt fun c => { c with dropCount := 0, dropFirst := 0 }))
  else ok s

/-- TRACE_FREEZE (R82): the records after the trigger are written; the writer freezes and raises vector 32. -/
def execTraceFreeze (s : State) : Host.Outcome State Fault Refusal :=
  if s.cmt.post = some 0 then
    ok (raise 32 (s.modCmt fun c => { c with frozen := true, trigArm := false, post := none }))
  else ok s

/-- CMT_STATUS as a word. -/
def Cmt.status (c : Cmt) : Nat := bit c.frozen + 2 * bit c.full + 4 * bit c.wrapped

/-- The 32 bytes of a trace record (R75). -/
def TraceRec.bytes (r : TraceRec) : List Byte :=
  fields [(8, r.ct), (1, r.typ.toNat), (1, r.flags.toNat), (2, r.source.toNat), (4, r.seq.toNat)] ++ r.body

/-- Every record kept, oldest first. -/
def Cmt.all (c : Cmt) : List TraceRec := c.recs ++ c.stage

/-- The records from sequence number `first` on, at most `n` of them. -/
def Cmt.from_ (c : Cmt) (first : W32) (n : Nat) : List TraceRec :=
  (c.all.filter fun r => 0 ≤ serialDiff r.seq first).take n

/-- CMT_READ (R88 to R90). -/
def doCmtRead (overtaken : Nat) (e : Outst) (s : State) : State × Work :=
  let want : W32 := BitVec.ofNat 32 (e.desc.par 24 4)
  let c := s.cmt
  if c.all.isEmpty || decide (0 ≤ serialDiff want c.head) then
    (s, .finish (doneOk (fields [(4, c.head.toNat), (4, 0), (4, c.tail.toNat)])))
  else
    let first := if serialDiff want c.tail < 0 then c.tail else want
    let rs := c.from_ first (e.desc.len / 32)
    let s1 := bufWrite e.desc 0 (rs.flatMap TraceRec.bytes) s
    let lost := if c.stopFull || c.silent then 0 else min overtaken c.recs.length
    let s2 := s1.modCmt fun c =>
      if lost = 0 then c
      else
        let c1 := { c with recs := c.recs.drop lost, wrapped := true }
        { c1 with tail := c1.oldest }
    (s2, .finish (doneOk (fields [(4, match rs with
      | r :: _ => r.seq.toNat
      | [] => first.toNat), (4, rs.length), (4, s2.cmt.tail.toNat)])))

/-- CMT_READ. -/
def execCmtRead (q : RingId) (overtaken : Nat) (s : State) : Host.Outcome State Fault Refusal :=
  ok (serve q 0x68 s (doCmtRead overtaken))

/-- CMT_MARK (R80, R88): a host mark with the 16 bytes of the descriptor, and its sequence number. -/
def doCmtMark (q : RingId) (e : Outst) (s : State) : State × Work :=
  let seq : W32 := if s.cmt.enable then s.cmt.head else 0xFFFFFFFF#32
  (traceGen 9 0 q.val (slice e.desc.param 0 16) s.clk.ct s, .finish (doneOk (fields [(4, seq.toNat)])))

/-- CMT_MARK. -/
def execCmtMark (q : RingId) (s : State) : Host.Outcome State Fault Refusal := ok (serve q 0x69 s (doCmtMark q))

/-- The trace emptied (R83, R43): CMT_TAIL at CMT_HEAD. -/
def Cmt.empty (c : Cmt) : Cmt := { c with recs := [], stage := [], tail := c.head }

/-- CMT_RESUME (R83). -/
def doCmtResume (_ : Outst) (s : State) : State × Work :=
  if s.cmt.frozen || s.cmt.full then
    let s1 := s.modCmt fun c =>
      let c1 := if c.full && c.stopFull then c.empty else c
      { c1 with frozen := false, full := false, stopCount := 0, stopFirst := 0 }
    if s.cmt.enable then
      let s2 := if s.cmt.stopCount = 0 then lossRecord 0 (freeValue s1).1.toNat (freeValue s1).2
        else lossRecord s.cmt.stopCount s.cmt.stopFirst s1
      (s2, .finish (doneOk (fields [(4, s1.cmt.head.toNat)])))
    else (s1, .finish (doneOk (fields [(4, 0xFFFFFFFF)])))
  else (s, .finish (doneWith stBadState 0))

/-- CMT_RESUME. -/
def execCmtResume (q : RingId) (s : State) : Host.Outcome State Fault Refusal := ok (serve q 0x6A s doCmtResume)

/-- CMT_STATUS_READ (R88). -/
def doCmtStatus (_ : Outst) (s : State) : State × Work :=
  (s, .finish (doneOk (fields [(4, s.cmt.head.toNat), (4, s.cmt.tail.toNat), (4, s.cmt.lost.toNat), (4, s.cmt.status)])))

/-- CMT_STATUS_READ. -/
def execCmtStatusRead (q : RingId) (s : State) : Host.Outcome State Fault Refusal := ok (serve q 0x6B s doCmtStatus)

end Sys2Proof.Machine
end

