-- ==== Sys2Proof/Machine/Boot.lean ====
section
/-! DEFINITION. The choice of firmware, restarts of the service island and of the chip, the ladder of the watchdog, and what a power-up
restores (R500, R572 to R587, R588 to R591, R623, R624). -/

namespace Sys2Proof.Machine

/-! ## Fuses (R595, R609) -/

/-- The watchdog fuses in use: the programmed ones or their defaults, those of the -ES after a fuse fault (R595, R609). -/
def fuseWdg (s : State) : FuseWdg :=
  if s.fuse.fault then { hw := true, opening := 4, n := 1 }
  else
    match s.fuse.wdg with
    | some f => { f with hw := f.hw || safetyOption s }
    | none => { hw := safetyOption s, opening := 4, n := 3 }

/-! ## Firmware (R623, R624) -/

/-- Change one firmware slot. -/
def modSlot (i : Fin 2) (f : FwSlot → FwSlot) (s : State) : State :=
  s.modFwu fun u => { u with slots := vmod u.slots i f }

/-- A firmware slot. -/
def fwSlot (s : State) (i : Fin 2) : FwSlot := s.fwu.slots.get i

/-- The other firmware slot. -/
def otherSlot (i : Fin 2) : Fin 2 := if i = 0 then 1 else 0

/-- The slot in a state, where there is one. -/
def slotIn (s : State) (st : SlotState) : Option (Fin 2) := (allFin 2).find? fun i => (fwSlot s i).state == st

/-- The slot may take the place of another that failed (R623). -/
def fallbackSlot (s : State) (i : Fin 2) : Bool := (fwSlot s i).state == .previous || (fwSlot s i).state == .confirmed

/-- Run the firmware of a slot; outside a trial it is CONFIRMED (R624). -/
def runSlot (i : Fin 2) (s : State) : State :=
  (modSlot i (fun x => if x.state == .previous then { x with state := .confirmed } else x) s).modFwu fun u => { u with running := i }

/-- A trial that did not confirm is marked FAILED, with class 0x0B07 (1 timeout, 2 interrupted). -/
def failTrial (i : Fin 2) (why : Nat) (s : State) : State :=
  event 0x0B07 (det [(1, i.val), (1, why)])
    ((modSlot i (fun x => { x with state := .failed }) s).modFwu fun u =>
      { u with trialAt := none, goodSince := none, hostConfirm := false, joinAfter := false })

/-- Load a slot, or the other one where it fails its digest or signature (R623); the answer says whether firmware runs. -/
def loadSlot (i : Fin 2) (s : State) : Bool × State :=
  if (fwSlot s i).good then (true, runSlot i s)
  else
    let s1 := event 0x0B08 (det [(1, i.val)]) s
    let j := otherSlot i
    if fallbackSlot s j && (fwSlot s j).good then
      (true, runSlot j (modSlot i (fun x => if x.state == .empty then x else { x with state := .failed }) s1))
    else (false, s1)

/-- The choice of the boot loader (R623). -/
def chooseFirmware (s : State) : Bool × State :=
  match slotIn s .trial with
  | some i =>
    if (fwSlot s i).tries = 0 then loadSlot i (modSlot i (fun x => { x with tries := 1 }) s)
    else
      let s1 := failTrial i 2 s
      if fallbackSlot s1 (otherSlot i) then loadSlot (otherSlot i) s1 else (false, s1)
  | none =>
    match slotIn s .confirmed with
    | some i => loadSlot i s
    | none => (false, s)

/-! ## The watchdog's period (R574 to R576) -/

/-- The tick of the watchdog (R572). -/
def wdgTick (s : State) : Nat := s.clk.now / 1000

/-- A start period begins (R574). -/
def startPeriod (s : State) : State := s.modWdg fun w => { w with start := true, since := wdgTick s, len := 2000000 }

/-- An ordinary period begins (R575). -/
def newPeriod (s : State) : State :=
  s.modWdg fun w => { w with start := false, since := wdgTick s, len := (s.rwp.wdgCfg &&& 0x3FF#32).toNat * 1000 }

/-- The question after a service or an expiry (R576). -/
def nextQuestion (q : W16) : W16 := if q.getLsbD 0 then (q >>> 1) ^^^ 0xB400#16 else q >>> 1

/-- The token for a question (R576). -/
def tokenOf (q : W16) : W16 := q.rotateLeft 5 ^^^ q ^^^ 0x5A3C#16

/-- A restart of the service island (R37, R574, R581): the boot loader chooses the firmware, and a start period begins. -/
def serviceRestart (s : State) : State :=
  let r := chooseFirmware (startPeriod s)
  if r.1 then r.2 else enterSafeTalk 9 (r.2.modSys fun y => { y with failedStep := 4 })

/-! ## A chip restart (R588, R589) -/

/-- The event recorder at a chip reset: after a chip restart the events that are left are counted (R549). -/
def resetEvr (kept : Bool) (e : Evr) : Evr :=
  { State.resetEvr with
    overflow := e.overflow, dropCount := if kept then e.dropCount + e.queue.length else 0,
    dropFirst := if !kept then 0 else if e.dropCount ≠ 0 then e.dropFirst else ((e.queue.head?).map fun x => x.ct).getD 0, last := e.last }

/-- The Comet trace at a chip reset (R85): kept with DRAM, or emptied. -/
def resetCmt (kept : Bool) (cap : Nat) (c : Cmt) : Cmt :=
  if kept then
    let d := c.drain cap c.stage.length
    { State.resetCmt with head := c.head, tail := c.tail, lost := c.lost, wrapped := d.wrapped, recs := d.recs }
  else State.resetCmt

/-- The store at a chip reset: what the persistent memory holds stays, the rest begins again. -/
def resetPst (p : Pst) : Pst :=
  { p with
    ready := false, recovering := true, retSaving := false, queue := [], records := 0, eccBad := 0, eccFixed := 0, shadow := [], shadowBad := false,
    refresh := [] }

/-- The firmware update at a chip reset: an open transfer is abandoned (R617), and every pause ends. -/
def resetFwu (u : Fwu) : Fwu :=
  { u with transfer := none, next := 0, activating := none, pauseSlot := none, fallback := false, hostConfirm := false, goodSince := none,
           trialAt := none }

/-- The field side at a chip reset (R451): the field die keeps its state; the field interface begins again. -/
def resetFio (f : Fio) : Fio :=
  { f with
    barrierOk := false, faulted := false, refreshAt := 0, echoAt := 0, realigned := false, delay := 0, errors := 0, edgesLost := 0, winStart := 0,
    winLost := 0, reported := [], sent := [], edges := [], changes := [] }

/-- The real-time clock at a chip reset: it runs on; RTC_CTRL.HALT returns to 0 (R558), as do the bits of RTC_STATUS that are no latches
of the always-on island (R16), and a frozen read ends. -/
def resetRtc (tick : Int) (r : Rtc) : Rtc :=
  { r with
    frozen := Vector.replicate 2 none, halt := false, secAt := if r.halt then tick else r.secAt, syncTo := none, badWrite := false,
    compFault := false, compLimit := false, vbatLow := false }

/-- The ticks of the 32.768 kHz crystal since the state after reset. -/
def crystalTick (s : State) : Nat := s.clk.now * 32768 / 1000000000

/-- The reset, power and start-up registers at a chip reset of a kind; SYS_RUN_STATE.STATE resets to 3 where AUTOSTART is set. -/
def resetSys (kind : Nat) (auto : Bool) (now : Nat) (y : Sys) : Sys :=
  { State.resetSys with
    run := if auto then .starting else .stopped, resetKind := kind, pcycles := if kind = 1 then y.pcycles + 1 else y.pcycles, releaseAt := now, vinPresent := y.vinPresent,
    powerLostAt := y.powerLostAt, hotStop := y.hotStop, warned := y.warned,
    pairId := y.pairId, nextKind := y.nextKind, vinMv := y.vinMv, lostEvent := y.lostEvent, forcesLost := y.forcesLost }

/-- The fuses at a chip reset: what was programmed takes effect at a power-on or an external reset (R609). -/
def resetFuse (kind : Nat) (f : Fuse) : Fuse :=
  let g := { f with readOk := false, fault := false }
  if kind ≤ 2 then
    { g with
      wdg := if f.wdg.isSome then f.wdg else f.pendingWdg, ident := if f.ident.isSome then f.ident else f.pendingIdent, pendingWdg := none,
      pendingIdent := none }
  else g

/-- The transfer that a chip reset abandons (R617), with class 0x0B09. -/
def abandonTransfer (why : Nat) (s : State) : State :=
  match s.fwu.transfer with
  | some i =>
    event 0x0B09 (det [(1, i.val), (1, why)])
      ((modSlot i (fun x => { x with state := .empty }) s).modFwu fun u => { u with transfer := none, next := 0 })
  | none => s

/-- The forces of a module alone that a reset takes are counted, for the event recorder at the next power-up (R212). -/
def noteForces (s : State) : State :=
  if pairMember s then s else s.modSys fun y => { y with forcesLost := y.forcesLost + s.tsk.forces.length }

/-- A chip reset of a kind of R588: the state from which the power-up sequence starts. The RWP fields read what the store holds (R14, R16). -/
def chipReset (kind : Nat) (s0 : State) : State :=
  let s := abandonTransfer 3 (noteForces s0)
  let kept := decide (4 ≤ kind)
  { State.reset with
    pending := s.pending, clk := { s.clk with ct := 0, frac := 0 }, fuse := resetFuse kind s.fuse, sys := resetSys kind ((storedRwp s).runCfg.getLsbD 0) s.clk.now s.sys,
    tim := { State.resetTim with base := s.tim.base }, cmt := resetCmt kept (traceCapacity s) s.cmt,
    hif := { State.resetHif with bulk := if kept then s.hif.bulk else [] }, evr := resetEvr kept s.evr, rwp := storedRwp s, out := s.out,
    free := s.free, mem := if kept then s.mem else State.resetMem, part := if kept then s.part else State.resetPart,
    vot := { State.resetVot with singleLeft := s.vot.singleLeft }, pst := resetPst s.pst,
    wdg := { State.resetWdg with stamps := s.wdg.stamps }, fwu := resetFwu s.fwu, fio := resetFio s.fio,
    rtc := resetRtc (crystalTick s) s.rtc }

/-- The part of the RWP ring that waits is written; a chip restart keeps VIN, so the write-through completes (R13). -/
def flushRwp (s : State) : State := if s.rwp.changed && !s.pst.rwpBad then writeRwp s else s

/-- A chip restart of codes 4 to 6 (R589): the retentive save, the recorder queue, then the reset that keeps DRAM. -/
def chipRestart (kind : Nat) (s : State) : State :=
  let s1 := flushRwp (retentiveSave 1 none s).2
  let s2 := flushRecords flushLimit (deliverMeter s1.clk.ct s1)
  chipReset kind (s2.modSys fun y => { y with powerLostAt := some (opTicks s2) })

/-! ## The ladder (R581 to R585) -/

/-- The stamps that lie within the last hour of operating time (R584). -/
def liveStamps (s : State) : List Nat := s.wdg.stamps.filter fun t => decide (s.clk.opNs < t + 3600000000000)

/-- Step 1 for a channel (R581). -/
def stepOne (chan : Option Nat) (s : State) : State :=
  let s1 := s.modWdg fun w =>
    { w with lastStep := 1, step1Count := satInc w.step1Count 1, step1 := (chan, s.clk.now) :: w.step1.filter fun x => x.1 != chan }
  let s2 := raise 33 (event 0x0906 (match chan with
    | some t => det [(1, 1), (1, t)]
    | none => det [(1, 0), (1, 0)]) s1)
  match chan with
  | some t => s2.modWdg fun w => { w with resets := if w.resets.contains t then w.resets else w.resets ++ [t] }
  | none => serviceRestart s2

/-- Step 3 (R581): SAFE_TALK. -/
def stepThree (s : State) : State :=
  let n := (fuseWdg s).n.toNat
  enterSafeTalk 8 (raise 33 (event 0x0908 (det [(1, n)]) (s.modWdg fun w => { w with lastStep := 3 })))

/-- Step 2 (R581, R583): a chip restart that keeps VIN. -/
def stepTwo (s : State) : State :=
  let live := liveStamps s
  let s1 := s.modWdg fun w => { w with lastStep := 2, stamps := (s.clk.opNs :: live).take 7 }
  chipRestart 4 (raise 33 (event 0x0907 (det [(1, live.length + 1)]) s1))

/-- A fault on a channel, none for the system channel, climbs the ladder (R581, R585). -/
def climb (chan : Option Nat) (s : State) : State :=
  let recent := s.wdg.step1.any fun x => x.1 == chan && decide (s.clk.now < x.2 + 10000000000)
  if !recent || s.sys.run == .safeTalk then stepOne chan s
  else if (fuseWdg s).n.toNat ≤ (liveStamps s).length then stepThree s
  else stepTwo s

/-! ## What a power-up restores -/

/-- The time page as it was last saved (R68, R292, R350, R517, R540, R547), where one was saved. -/
def savedTimePage (s : State) : Option (List Byte) :=
  if 0 < (pstPage s timePageNum).c0.writes + (pstPage s timePageNum).c1.writes then peekPage s timePageNum else none

/-- The allowance, the time base, the overflow count and the address epochs from the time page; after a loss of VBAT the two
counts too (R591). -/
def restoreTimePage (s : State) : State :=
  match savedTimePage s with
  | none => s
  | some b =>
    let s1 := (s.modVot fun v => { v with singleLeft := rd b 16 4 }).modTim fun t => { t with base := BitVec.ofNat 16 (rd b 8 2) }
    let s2 := (s1.modEvr fun e => { e with overflow := BitVec.ofNat 32 (rd b 44 4) }).modNet fun n =>
      { n with rings := Vector.ofFn fun r : Fin 4 => { n.rings.get r with aEpoch := BitVec.ofNat 16 (rd b (20 + 2 * r.val) 2) } }
    if s.sys.resetKind = 1 && s.rtc.lossDue && s.rtc.vbatLost then
      let p : W32 := BitVec.ofNat 32 (rd b 36 4) + 1
      let s3 := (s2.modClk fun c => { c with opNs := (rd b 28 8 + 60 * 32768) * 1000000000 / 32768 }).modSys fun y =>
        { y with pcycles := p }
      event 0x0A07 (det [(4, p.toNat)]) s3
    else s2

/-- The page number of a metering save page (R517). -/
def mtrPage (second : Bool) : Nat := 0xE041 + bit second

/-- The page holds a save with a correct CRC (R498). -/
def goodSave (s : State) (second : Bool) : Option (List Byte) :=
  if 0 < (pstPage s (mtrPage second)).c0.writes + (pstPage s (mtrPage second)).c1.writes then
    match peekPage s (mtrPage second) with
    | some b => if rd b 252 4 = (crc32c (b.take 252)).toNat then some b else none
    | none => none
  else none

/-- The save to restore: the valid page with the higher SAVES; the second answer says that both have the same (R500, R503). -/
def latestSave (s : State) : Option (Bool × List Byte) × Bool :=
  match goodSave s false, goodSave s true with
  | none, none => (none, false)
  | some a, none => (some (false, a), false)
  | none, some b => (some (true, b), false)
  | some a, some b =>
    let d := serialDiff (BitVec.ofNat 32 (rd b 16 4)) (BitVec.ofNat 32 (rd a 16 4))
    if 0 < d then (some (true, b), false) else (some (false, a), decide (d = 0))

/-- The bound on the energy lost of a point (R500), in mJ, rounded up. -/
def lossBound (s : State) (b : List Byte) (i : Nat) : Nat :=
  if s.sys.resetKind = 1 && s.rtc.lossDue && s.rtc.vbatLost then 0xFFFFFFFFFFFFFF
  else
    let t := s.sys.powerLostAt.getD (opTicks s) - rd b 8 8
    min 0xFFFFFFFFFFFFFF ((rd b (216 + 4 * i) 4 * t * 1000 + 32767) / 32768)

/-- The accumulators at a power-up (R500, R501, R503). -/
def restoreMeter (s : State) : State :=
  match latestSave s with
  | (none, _) => event 0x060D (det [(1, 0)]) s
  | (some (page, b), equal) =>
    let s1 := (if equal then event 0x060D (det [(1, 1)]) s else s).modMtr fun m =>
      { m with
        saves := BitVec.ofNat 32 (rd b 16 4), page := page,
        points := Vector.ofFn fun i : Fin 8 =>
          let p := m.points.get i
          { p with
            imp := rd b (24 + 24 * i.val) 8 * mjUnit, exp := rd b (32 + 24 * i.val) 8 * mjUnit,
            sel := (BitVec.ofNat 64 (rd b (40 + 24 * i.val) 8)).toInt * mjUnit,
            cfg := if rd b 20 1 / 2 ^ i.val % 2 = 1 then p.cfg ||| 8#32 else p.cfg } }
    let s2 := s1.modRws fun r =>
      { r with mtrCfg := Vector.ofFn fun i : Fin 8 =>
          if rd b 20 1 / 2 ^ i.val % 2 = 1 then r.mtrCfg.get i ||| 8#32 else r.mtrCfg.get i }
    (allFin 8).foldl (fun s i =>
      if rd b 21 1 / 2 ^ i.val % 2 = 1 then event 0x060C (det [(1, i.val), (7, lossBound s b i.val)]) s else s) s2

end Sys2Proof.Machine
end

