-- ==== Sys2Proof/Machine/Calendar.lean ====
section
/-! DEFINITION. The calendar of the real-time clock: its registers, its place in time, and the set a requester reads (R554 to R557). -/

namespace Sys2Proof.Machine

/-! ## The Gregorian calendar (R554) -/

/-- A leap year of the Gregorian calendar. -/
def leapYear (y : Nat) : Bool := y % 4 == 0 && (y % 100 != 0 || y % 400 == 0)

/-- The days of a year. -/
def yearDays (y : Nat) : Nat := if leapYear y then 366 else 365

/-- The days of a month; 0 for a month that does not exist. -/
def monthDays (y m : Nat) : Nat :=
  if m = 2 then (if leapYear y then 29 else 28)
  else if m = 4 ∨ m = 6 ∨ m = 9 ∨ m = 11 then 30
  else if 1 ≤ m ∧ m ≤ 12 then 31 else 0

/-- The days from 2000-01-01 to the first day of a year. -/
def daysToYear (y : Nat) : Nat :=
  let k := y - 2000
  365 * k + (k + 3) / 4 - (k + 99) / 100 + (k + 399) / 400

/-- The days from the first day of a year to the first day of a month. -/
def daysToMonth (y m : Nat) : Nat := ((List.range (m - 1)).map fun i => monthDays y (i + 1)).sum

/-- The days from 2000-01-01 to the day of the calendar. -/
def Calendar.days (c : Calendar) : Nat := daysToYear c.year + daysToMonth c.year c.month + (c.day - 1)

/-- The seconds from 2000-01-01 00:00:00 to the calendar. -/
def Calendar.seconds (c : Calendar) : Nat := c.days * 86400 + c.hour * 3600 + c.min * 60 + c.sec

/-- Find the year of a day count, among `n` years from `y` on. -/
def yearOfDay : Nat → Nat → Nat → Nat × Nat
  | 0, y, d => (y, d)
  | n + 1, y, d => if d < yearDays y then (y, d) else yearOfDay n (y + 1) (d - yearDays y)

/-- Find the month of a day of a year, among `n` months from `m` on. -/
def monthOfDay (y : Nat) : Nat → Nat → Nat → Nat × Nat
  | 0, m, d => (m, d)
  | n + 1, m, d => if d < monthDays y m then (m, d) else monthOfDay y n (m + 1) (d - monthDays y m)

/-- The seconds of the 400 years of the calendar. -/
def calendarSpan : Nat := 146097 * 86400

/-- The calendar a number of seconds after 2000-01-01 00:00:00, within its 400 years. -/
def Calendar.ofSeconds (n : Nat) : Calendar :=
  let d := n / 86400
  let t := n % 86400
  let y := yearOfDay 399 2000 d
  let m := monthOfDay y.1 11 1 y.2
  { year := y.1, month := m.1, day := m.2 + 1, hour := t / 3600, min := t / 60 % 60, sec := t % 60 }

/-- The first second of the calendar (R554, R569). -/
def Calendar.first : Calendar := { year := 2000, month := 1, day := 1, hour := 0, min := 0, sec := 0 }

/-- The calendar one second later; after the last second of 2399 it starts again (R555). -/
def Calendar.next (c : Calendar) : Calendar :=
  if c.sec < 59 then { c with sec := c.sec + 1 }
  else if c.min < 59 then { c with sec := 0, min := c.min + 1 }
  else if c.hour < 23 then { c with sec := 0, min := 0, hour := c.hour + 1 }
  else if c.day < monthDays c.year c.month then { c with sec := 0, min := 0, hour := 0, day := c.day + 1 }
  else if c.month < 12 then { c with sec := 0, min := 0, hour := 0, day := 1, month := c.month + 1 }
  else if c.year < 2399 then { Calendar.first with year := c.year + 1 }
  else Calendar.first

/-- The last second before the calendar wraps (R555). -/
def Calendar.last (c : Calendar) : Bool := c.next == Calendar.first

/-- Every field lies within its range, and the day exists in its month and year (R560). -/
def Calendar.valid (c : Calendar) : Bool :=
  decide (2000 ≤ c.year) && decide (c.year ≤ 2399) && decide (1 ≤ c.month) && decide (c.month ≤ 12) && decide (1 ≤ c.day) &&
    decide (c.day ≤ monthDays c.year c.month) && decide (c.hour ≤ 23) && decide (c.min ≤ 59) && decide (c.sec ≤ 59)

/-! ## The registers -/

/-- RTC_DATE, with the computed day of the week, 0 for Monday. -/
def Calendar.dateWord (c : Calendar) : W32 :=
  BitVec.ofNat 32 (c.year * 65536 + (c.days + 5) % 7 * 4096 + c.month * 256 + c.day)

/-- RTC_TIME. -/
def Calendar.timeWord (c : Calendar) : W32 := BitVec.ofNat 32 (c.hour * 65536 + c.min * 256 + c.sec)

/-- The calendar that words of RTC_DATE and RTC_TIME spell. -/
def Calendar.ofWords (d t : W32) : Calendar :=
  { year := (d.extractLsb' 16 16).toNat, month := (d.extractLsb' 8 4).toNat, day := (d.extractLsb' 0 5).toNat,
    hour := (t.extractLsb' 16 5).toNat, min := (t.extractLsb' 8 6).toNat, sec := (t.extractLsb' 0 6).toNat }

/-- Words of a date and a time as one number in calendar order, without the reserved bits and the day of the week. -/
def calendarKey (d t : W32) : Nat := (d &&& 0xFFFF0F1F#32).toNat * 4294967296 + (t &&& 0x1F3F3F#32).toNat

/-- The calendar as such a number. -/
def Calendar.key (c : Calendar) : Nat := calendarKey c.dateWord c.timeWord

/-- The prescaler: ticks into the present second (R554); held at 0 while counting is halted (R558). -/
def rtcTicks (s : State) : Nat := if s.rtc.halt then 0 else min 32767 (((crystalTick s : Nat) : Int) - s.rtc.secAt).toNat

/-- The calendar in ns since 1970-01-01 00:00:00 UTC. -/
def rtcUtcNs (s : State) : Nat := (946684800 + s.rtc.cal.seconds) * 1000000000 + rtcTicks s * 1000000000 / 32768

/-- RTC_STATUS as a word. -/
def rtcStatus (r : Rtc) : Nat :=
  bit r.valid + 2 * bit r.vbatLow + 4 * bit r.vbatLost + 8 * bit r.oscStop + 16 * bit r.compLimit + 32 * bit r.compFault + 64 * bit r.badWrite

/-- RTC_COMP as a word. -/
def rtcComp (r : Rtc) : Nat := signedNat 16 r.temp * 65536 + signedNat 16 r.corr

/-! ## The reading of service firmware (R557) -/

/-- The calendar a number of ticks from now. -/
def calendarIn (s : State) (ticks : Nat) : Calendar :=
  let n := s.rtc.cal.seconds + (rtcTicks s + ticks) / 32768
  if s.rtc.halt then s.rtc.cal else Calendar.ofSeconds (n % calendarSpan)

/-- Two sets agree: the same date, hour and minute, and the second one's seconds equal to or one above the first one's. -/
def setsAgree (a b : Calendar) : Bool :=
  a.dateWord == b.dateWord && a.hour == b.hour && a.min == b.min && (b.sec == a.sec || b.sec == a.sec + 1)

/-- The routine has found two consecutive sets that agree, of at most four; `gaps` are the ticks from each set to the next. -/
def setsFound (s : State) : Nat → Nat → List Nat → Bool
  | 0, _, _ => false
  | _, _, [] => false
  | n + 1, t, g :: r => setsAgree (calendarIn s t) (calendarIn s (t + g)) || setsFound s n (t + g) r

/-- Service firmware can read the calendar. The spec does not say how long its reads take: the ticks from each set to the next are free
(DESIGN CHOICE, log entry 144). -/
def calendarRead (s : State) : Bool := setsFound s 3 0 (Config.readGaps s.free).toList

/-! ## Frozen reads (R556) -/

/-- The set of a requester: 0 host software, 1 service firmware. -/
def requester (firmware : Bool) : Fin 2 := if firmware then 1 else 0

/-- The registers copied in one tick. -/
def rtcCopy (s : State) : RtcFreeze :=
  { sub := BitVec.ofNat 32 (rtcTicks s), date := s.rtc.cal.dateWord, time := s.rtc.cal.timeWord, since := s.clk.now }

/-- Start or end the freeze of a requester. -/
def setFreeze (r : Fin 2) (f : Option RtcFreeze) (s : State) : State := s.modRtc fun x => { x with frozen := vmod x.frozen r fun _ => f }

/-- RTC_DATE as a requester reads it. -/
def rtcDateSeen (s : State) (r : Fin 2) : W32 := ((s.rtc.frozen.get r).map fun f => f.date).getD s.rtc.cal.dateWord

/-- RTC_TIME as a requester reads it. -/
def rtcTimeSeen (s : State) (r : Fin 2) : W32 := ((s.rtc.frozen.get r).map fun f => f.time).getD s.rtc.cal.timeWord

end Sys2Proof.Machine
end

