-- ==== Sys2Proof/Machine/Send.lean ====
section
/-! DEFINITION. Sending Strait frames: ports, gates and the frame records of the trace (R77, R78, R304 to R309, R335, R352). -/

namespace Sys2Proof.Machine

/-- Change one station of a ring. -/
def modStation (r : StraitId) (n : Nat) (f : Station → Station) (s : State) : State :=
  modStrait r (fun x => { x with stations := vmod x.stations (finOr n) f }) s

/-- A station of a ring. -/
def stationOf (s : State) (r : StraitId) (n : Nat) : Station := (ringOf s r).stations.get (finOr n)

/-- The east port of a ring (R304). -/
def eastPort (r : StraitId) : PortId := ⟨2 * r.val, by omega⟩

/-- The west port of a ring (R304). -/
def westPort (r : StraitId) : PortId := ⟨2 * r.val + 1, by omega⟩

/-- A port is up: for a ring port, its link is up at 1,000 Mb/s full duplex (R305). -/
def portUp (s : State) (p : PortId) : Bool :=
  let x := s.net.ports.get p
  x.up && (decide (8 ≤ p.val) || (x.speed == 1000 && x.full))

/-- The VID of a ring's network schedule, 0 without one. -/
def ringVid (s : State) (r : StraitId) : Nat := ((ringOf s r).sched.map fun k => k.vid).getD 0

/-- A frame leaves by a port that is up. -/
def emitFrame (p : PortId) (bs : List Byte) (s : State) : State := if portUp s p then emit (.frame p bs) s else s

/-- The body of a frame record (R77); the length is that of the frame without its FCS. -/
def frameRecord (seed : W32) (f : Strait) (len : Nat) : List Byte :=
  fields [(2, f.stream), (1, f.gen), (1, (Config.frameClass f.typ).toNat), (4, f.seq), (2, f.aEpoch), (2, len), (4, (f.crc seed).toNat)]

/-- The Class A, mode-change and discovery frames sent in the present second (R59, R180). -/
def sentA (s : State) : Nat := if s.net.aSecond = s.clk.now / 1000000000 then s.net.aSent else 0

/-- Count such a frame. -/
def countA (s : State) : State := s.modNet fun n => { n with aSecond := s.clk.now / 1000000000, aSent := sentA s + 1 }

/-- The Class A load that the schedule declares is reached in the present second; a schedule that declares none bounds nothing (R59, DESIGN
CHOICE, log entry 139). -/
def loadReached (s : State) : Bool :=
  match s.tsk.sched with
  | some k => decide (0 < k.aFrames) && decide (k.aFrames ≤ sentA s)
  | none => false

/-- Frames wait for the gate of a ring, other than Class A requests of the module beyond its declared load. -/
def Ring.queued (x : Ring) : Bool := x.held.any fun h => h.port.isSome || (straitOf h.bytes).typ != 3

/-- A frame that is not sent now waits: the gate of the ring is closed, or opens just now with earlier frames still waiting (R335), or the
frame is a Class A request beyond the declared load (R59). -/
def mustWait (s : State) (r : StraitId) (typ : Nat) : Bool :=
  gateClosed s r || (ringOf s r).queued || (typ == 3 && loadReached s)

/-- The two copies of a frame leave at one instant, with one record of the trace (R78, R309), which names the east port (DESIGN
CHOICE, log entry 120: R77 does not say which of two ports a record names). -/
def sendNow (r : StraitId) (f : Strait) (s0 : State) : State :=
  let s := if f.typ ≤ 2 then s0 else countA s0
  let e := ({ f with west := false } : Strait).bytes s (eastPort r) r (ringVid s r)
  let w := ({ f with west := true } : Strait).bytes s (westPort r) r (ringVid s r)
  emitFrame (westPort r) w (emitFrame (eastPort r) e
    (traceGen 2 0 (eastPort r).val (frameRecord s.rws.netSeed f e.length) s.clk.ct s))

/-- Send a frame other than an OUT frame (R335). -/
def sendGated (r : StraitId) (f : Strait) (s : State) : State :=
  if mustWait s r f.typ then
    modStrait r (fun x => { x with held := x.held ++ [{ port := none, bytes := f.bytes s (eastPort r) r (ringVid s r) }] }) s
  else sendNow r f s

/-- The epochs of a ring as applied: those before the last mode change for an instant before its X (R352). -/
def Ring.appliedAt (x : Ring) (t : Nat) : Nat × Nat :=
  if t < x.epochAt then (x.prevA.toNat, x.prevM.toNat) else (x.aEpoch.toNat, x.mEpoch.toNat)

/-- The epochs of a ring in force at a chip time: those of a decided mode change from its X on (R352, R353). -/
def epochsAt (s : State) (r : StraitId) (t : Nat) : Nat × Nat :=
  let x := ringOf s r
  match x.mode with
  | some m => if m.decided = some true ∧ m.x ≤ t then (m.newA.toNat, m.newM.toNat) else x.appliedAt t
  | none => x.appliedAt t

/-- New epochs are in force from X on. -/
def Ring.setEpochs (m : ModeChange) (x : Ring) : Ring :=
  { x with prevA := x.aEpoch, prevM := x.mEpoch, epochAt := m.x, aEpoch := m.newA, mEpoch := m.newM, mode := none }

/-- FLAGS.SENDER of the module's frames (R314). -/
def senderBit (s : State) : Bool := s.sys.pairId

/-- A frame of the module's Class A stream on a ring, of types 0x3 to 0xD, with the next SEQ (R326). -/
def nodeFrame (s : State) (r : StraitId) (typ stream gen dst : Nat) (payload : List Byte) : Strait :=
  let e := epochsAt s r s.clk.ct
  { typ := typ, west := false, sender := senderBit s, hops := 0, stream := stream, gen := gen, aEpoch := e.1, mEpoch := e.2,
    seq := (ringOf s r).seqA.toNat, src := domainAddr r.val, dst := dst, time := s.clk.ct, payload := payload }

/-- Send a frame of the module's Class A stream (R326). -/
def sendNode (r : StraitId) (typ stream gen dst : Nat) (payload : List Byte) (s : State) : State :=
  sendGated r (nodeFrame s r typ stream gen dst payload) (modStrait r (fun x => { x with seqA := x.seqA + 1 }) s)

end Sys2Proof.Machine
end

