-- ==== Sys2Proof/Machine/Engine.lean ====
section
/-! DEFINITION. The engines at work: scheduling on an engine, the issue of bundles and single moves, the end of a release, faults and error
tasks (R113 to R121, R174, R186 to R192, R201 to R205). -/

namespace Sys2Proof.Machine

/-! ## Contexts and the release that holds an engine -/

/-- Change the context of a task in a lane. -/
def modCtx (l : LaneId) (t : Nat) (f : Ctx → Ctx) (s : State) : State :=
  modLane l (fun x =>
    match fin? 256 t with
    | some i => { x with ctx := vmod x.ctx i f }
    | none => x) s

/-- The context of a task in a lane. -/
def ctxOf (s : State) (l : LaneId) (t : Nat) : Ctx := (s.lanes.get l).ctx.get (finOr t)

/-- The release of a task that may run in a lane. -/
def readyRel (s : State) (l : LaneId) (t : Nat) : Option Release :=
  s.tsk.rels.find? fun r => r.task == t && r.lanes.get l && r.ready.get l && !r.ended.get l

/-- The entry whose code runs in the owner's place: the error task's where it runs. -/
def runningEntry (s : State) (l : LaneId) (r : Release) : TaskEntry :=
  if (ctxOf s l r.task).inErr then r.err.getD r.entry else r.entry

/-- The release that holds an engine. -/
def running (s : State) (l : LaneId) (e : Fin 4) : Option Release :=
  ((s.lanes.get l).run.get e).bind fun t => readyRel s l t

/-- Release `a` goes before release `b` on an engine (R174, R175). -/
def goesBefore (a b : Release) : Bool :=
  if a.entry.priority ≠ b.entry.priority then decide (a.entry.priority < b.entry.priority)
  else if a.ct ≠ b.ct then decide (a.ct < b.ct)
  else decide (a.task < b.task)

/-- The ready release that an engine runs first (R174, R175). -/
def bestRel (s : State) (l : LaneId) (e : Fin 4) : Option Release :=
  (s.tsk.rels.filter fun r => r.entry.engine == e && r.lanes.get l && r.ready.get l && !r.ended.get l).foldl
    (fun b r =>
      match b with
      | some x => if goesBefore r x then some r else b
      | none => some r) none

/-- Write bytes into the data partition of a lane, past the force filter. -/
def laneWrite (l : LaneId) (off : Nat) (bs : List Byte) (s : State) : State :=
  markLines l (linesOf off bs.length) (modLane l (fun x => { x with mem := dataWrite x.mem off bs }) s)

/-- The write-backs of a context that issues no further bundle for now reach the data partition (R136). -/
def timersDone (l : LaneId) (t : Nat) (s : State) : State :=
  (ctxOf s l t).timerWb.foldl (fun s x => laneWrite l x.2.1 x.2.2 s) (modCtx l t (fun c => { c with timerWb := [] }) s)

/-- Give an engine to the release that R174 chooses, at a bundle boundary outside a branch and its delay bundle
(R118, R119): a release preempts only one of less urgent priority. -/
def schedule (l : LaneId) (e : Fin 4) (s : State) : State :=
  match bestRel s l e with
  | none => modLane l (fun x => { x with run := vmod x.run e fun _ => none }) s
  | some b =>
    match running s l e with
    | some r =>
      if (ctxOf s l (runningEntry s l r).task).delay.isSome || decide (r.entry.priority ≤ b.entry.priority) then s
      else modLane l (fun x => { x with run := vmod x.run e fun _ => some b.task }) (timersDone l (runningEntry s l r).task s)
    | none => modLane l (fun x => { x with run := vmod x.run e fun _ => some b.task }) s

/-- A context at the start of a release, or of a run of an error task (R113, R114, R134, R155, R186). -/
def Ctx.startAt (entry : Nat) (c : Ctx) : Ctx :=
  { c with
    pc := entry, delay := none, branch := none, ending := false, stack := [], bitDepth := c.bitDepth.push c.cyc 0 0,
    slots := Vector.replicate 4 { status := 0, value := 0, flight := none }, start := c.cyc, blk := none,
    started := [], resv := [], phase := .ready }

/-- The lookups still pending in a context are cancelled (R155). -/
def Ctx.cancelLookups (c : Ctx) : Ctx :=
  { c with slots := c.slots.map fun x => if (x.readAt c.cyc).1 = 1 then { status := 0, value := 0, flight := none } else x }

/-! ## Records of a release (R266 to R268) -/

/-- Emit a record of the owner's stream in a lane. -/
def emitOwner (l : LaneId) (r : Release) (kind : Nat) (value : W64) (s : State) : State :=
  let c := ctxOf s l r.task
  let g := emitRec r kind value 0
    { ctx := c, mem := [], start := [], wrote := [], index := c.index, effects := c.effects, digest := c.digest, recs := [], dmg := [] }
  modCtx l r.task (fun c => { c with index := g.index, digest := g.digest })
    (modLane l (fun x => { x with buffer := x.buffer ++ g.recs }) s)

/-- The CRC of the exchange slot that a release wrote (R196, R267). -/
def exchangeCrc (m : Memory) (r : Release) : Nat :=
  if r.entry.xsize = 0 then 0
  else (crc32c (memRead m (dataBase + r.entry.xout + r.cycle % 3 * r.entry.xsize) r.entry.xsize)).toNat

/-- The release has ended in a lane, normally or not; the engine goes to the next one. -/
def endInLane (l : LaneId) (r : Release) (normal : Bool) (s : State) : State :=
  let s1 := modRel r.task r.cycle (fun x => { x with ended := vmod x.ended l fun _ => true })
    (if normal then modRun r.task (fun x => { x with ends := vmod x.ends l fun _ => some r.cycle }) s else s)
  let s2 := modCtx l r.task (fun c => { c with phase := .idle, inErr := false, aborted := false }) s1
  schedule l r.entry.engine (modLane l (fun x => { x with run := vmod x.run r.entry.engine fun _ => none }) s2)

/-- The end record of the owner, with its context cycles and the exchange CRC (R267). -/
def emitEnd (l : LaneId) (r : Release) (cycles : Nat) (s : State) : State :=
  emitOwner l r 2 (BitVec.ofNat 64 (cycles % 4294967296 + exchangeCrc (s.lanes.get l).mem r * 4294967296)) s

/-! ## Error tasks (R201 to R205) -/

/-- The cause block (R202). -/
def causeBlock (r : Release) (fault : Option (Nat × Nat)) (cycles : Nat) : List Byte :=
  let bits := r.causes + match fault with
    | some (f, _) => if f = 0x20 then 2 else 1
    | none => 0
  fields [(8, if r.causes = 0 then Config.causeCt r.ct cycles else r.causeCt), (8, r.cycle), (1, (fault.map (·.1)).getD 0),
    (1, 0), (2, bits), (4, (fault.map (·.2)).getD 0), (4, (r.stations.head?.getD 0).toNat), (4, r.stations.length)]

/-- Start the error task of a release in a lane, its cause block written first (R201, R202). -/
def startError (l : LaneId) (r : Release) (err : TaskEntry) (fault : Option (Nat × Nat)) (cycles : Nat) (s : State) : State :=
  let s1 := laneWrite l err.cause (causeBlock r fault cycles) s
  let s2 := modCtx l r.task (fun c => { c with inErr := true, aborted := fault.isSome, ownerUsed := cycles }) s1
  modCtx l err.task (Ctx.startAt err.entry) s2

/-- The owner's release stops on a fault or overrun (R115, R170, R186, R192). -/
def ownerFault (l : LaneId) (r : Release) (f bundle : Nat) (s : State) : State :=
  let c := ctxOf s l r.task
  let s1 := emitOwner l r 3 (BitVec.ofNat 64 (f + bundle % 262144 * 256))
    (modCtx l r.task (fun c => { c.cancelLookups with blk := none, ownerUsed := c.usedCycles }) (timersDone l r.task s))
  match r.err with
  | some err => startError l r err (some (f, bundle)) c.usedCycles s1
  | none => endInLane l r false s1

/-- The error task stops on a fault, 0 for an overrun (R187, R204, R267). -/
def errorFault (l : LaneId) (r : Release) (err : TaskEntry) (f bundle : Nat) (s : State) : State :=
  let v := (if f = 0 then 0x21 else 0x23) + bundle % 262144 * 256 + f * 67108864
  endInLane l r false (emitOwner l r 5 (BitVec.ofNat 64 v) (modCtx l err.task (fun c => { c.cancelLookups with blk := none }) (timersDone l err.task s)))

/-- A fault in the code that runs for a release. -/
def codeFault (l : LaneId) (r : Release) (f bundle : Nat) (s : State) : State :=
  if (ctxOf s l r.task).inErr then errorFault l r (r.err.getD r.entry) f bundle s else ownerFault l r f bundle s

/-- TSK_END of the owner: the error task for a cause of R202, else the end record (R192, R201). -/
def ownerEnd (l : LaneId) (r : Release) (s : State) : State :=
  let used := (ctxOf s l r.task).usedCycles
  let s1 := modCtx l r.task Ctx.cancelLookups (timersDone l r.task s)
  match r.err with
  | some err => if r.causes = 0 then endInLane l r true (emitEnd l r used s1) else startError l r err none used s1
  | none => endInLane l r true (emitEnd l r used s1)

/-- TSK_END of the error task: the end record of the owner, or the error-task end after an abort (R267). -/
def errorEnd (l : LaneId) (r : Release) (err : TaskEntry) (s : State) : State :=
  let o := ctxOf s l r.task
  let used := (ctxOf s l err.task).usedCycles
  let s1 := modCtx l err.task Ctx.cancelLookups (timersDone l err.task s)
  endInLane l r (!o.aborted) (if o.aborted then emitOwner l r 4 (BitVec.ofNat 64 (used % 4294967296)) s1 else emitEnd l r o.ownerUsed s1)

/-- TSK_END of the code that runs for a release. -/
def codeEnd (l : LaneId) (r : Release) (s : State) : State :=
  if (ctxOf s l r.task).inErr then errorEnd l r (r.err.getD r.entry) s else ownerEnd l r s

/-! ## Issue -/

/-- What the units see of a release (R128, R149, R208). -/
def envOf (s : State) (l : LaneId) (r : Release) : EngEnv :=
  { rel := r, snap := (assoc? r.task (s.lanes.get l).snaps).getD [], entry := runningEntry s l r, forced := forcedOf s (fetchImage s) r.forces, tables := s.tbl }

/-- The working copy of an engine. -/
def engOf (s : State) (l : LaneId) (r : Release) : Eng :=
  let o := ctxOf s l r.task
  { ctx := ctxOf s l (runningEntry s l r).task, mem := (s.lanes.get l).mem, start := (s.lanes.get l).mem, wrote := [], index := o.index, effects := o.effects,
    digest := o.digest, recs := [], dmg := [] }

/-- Class 0x0121 for a damaged bucket met in a lane (R158, R301). -/
def damagedEvent (l : LaneId) (d : Nat × Nat × Nat) (s : State) : State :=
  eventAt 0x0121 (laneSource l) 0 (det [(1, d.1), (1, d.2.1), (2, 0), (4, d.2.2)]) s.clk.ct s

/-- Put the working copy back. -/
def commitEng (l : LaneId) (r : Release) (g : Eng) (s : State) : State :=
  let cur := (runningEntry s l r).task
  let s1 := modCtx l cur (fun _ => g.ctx) s
  let s2 := modCtx l r.task (fun c => { c with index := g.index, effects := g.effects, digest := g.digest }) s1
  let s3 := markLines l g.wrote (modLane l (fun x => { x with mem := g.mem, buffer := x.buffer ++ g.recs }) s2)
  g.dmg.foldl (fun s d => damagedEvent l d s) s3

/-- The bundle index at which a context stops, as 32 bits: that of a block operation in progress, else the program counter. A
record carries its low 18 bits (R267); an index below 0 is in two's complement. -/
def Ctx.stopIndex (c : Ctx) : Nat :=
  match c.blk with
  | some (_, _, i) => (i % 4294967296).toNat
  | none => (c.pc % 4294967296).toNat

/-- Go on after a bundle, or the fault it raised: the end of the release, or the engine's next choice. A bundle that holds both TSK_END and
a block trigger runs its elements within the budget before the release ends (DESIGN CHOICE, log entry 117). -/
def afterIssue (l : LaneId) (r : Release) (bundle : Nat) (out : Option Nat × Eng) (s : State) : State :=
  let s1 := commitEng l r out.2 s
  match out.1 with
  | some f => codeFault l r f bundle s1
  | none =>
    if out.2.ctx.ending && (out.2.ctx.blk.isNone || decide ((runningEntry s l r).budget ≤ out.2.ctx.usedCycles)) then codeEnd l r s1
    else schedule l r.entry.engine s1

/-- The code of the bank the engines fetch from. -/
def fetchCode (s : State) : List Byte := ((fetchImage s).map fun i => i.code).getD []

/-- The engine that a release holds does `act` within its budget (R186), with at most `elems` elements of a block operation, after each of
which another row may take its turn (R121). -/
def atEngine (l : LaneId) (e : Fin 4) (elems : Option Nat) (s : State) (act : EngEnv → Nat → Eng → Option Nat × Eng) : State :=
  match running s l e with
  | none => s
  | some r =>
    let g := engOf s l r
    let env := envOf s l r
    if env.entry.budget ≤ g.ctx.usedCycles then s
    else
      let room := env.entry.budget - g.ctx.usedCycles
      let most (n : Nat) : Nat := min n (elems.getD n)
      let out := if g.ctx.blk.isSome then blkRun env.forced (most room) g else act env (most (room - 1)) g
      afterIssue l r g.ctx.stopIndex out s

/-- A bundle with one unguarded move of a value to a trigger port, in the place of the bundle at the program counter. -/
def issueMove (p : Nat) (b : W64) (env : EngEnv) (room : Nat) (g : Eng) : Option Nat × Eng :=
  match issueMoves env [{ guard := 0, src := .imm b, dst := p }] g with
  | .error f => (some f, g)
  | .ok g' =>
    let g1 := endCycle g'
    match g1.ctx.blk with
    | some _ => blkRun env.forced room g1
    | none => (none, g1)

/-- A unit's own row: the bundle with that one move. -/
def issueUnit (p : Nat) (l : LaneId) (e : Fin 4) (b : W64) (elems : Option Nat) (s : State) : State :=
  atEngine l e elems s (issueMove p b)

/-- BUNDLE_ISSUE (R104, R115, R170): an uncorrectable error in the fetched bundle is a fault of the lane (R37). -/
def execBundleIssue (l : LaneId) (e : Fin 4) (x : Within Ecc) (s : State) : Host.Outcome State Fault Refusal :=
  if x.value = .bad then
    match running s l e with
    | some r =>
      let off := (ctxOf s l (runningEntry s l r).task).pc.toNat * 16 + s.prg.fetch.val * 0x400000
      ok (judgeAll (laneFault 0x0106 r.task l (det [(4, off)]) (modLane l (fun y => { y with uncorr := satInc y.uncorr 1 }) s)))
    | none => ok s
  else
    let s1 := if x.value = .corrected then countCorrected (.lane l) s else s
    ok (atEngine l e (some x.elems) s1 fun env room g => issueBundle env (fetchCode s) room g)

/-- ALU_ADD (R129). -/
def execAluAdd (l : LaneId) (e : Fin 4) (b : W64) (s : State) : Host.Outcome State Fault Refusal := ok (issueUnit 0x110 l e b none s)

/-- ALU_SUB (R129). -/
def execAluSub (l : LaneId) (e : Fin 4) (b : W64) (s : State) : Host.Outcome State Fault Refusal := ok (issueUnit 0x111 l e b none s)

/-- ALU_AND (R129). -/
def execAluAnd (l : LaneId) (e : Fin 4) (b : W64) (s : State) : Host.Outcome State Fault Refusal := ok (issueUnit 0x112 l e b none s)

/-- ALU_OR (R129). -/
def execAluOr (l : LaneId) (e : Fin 4) (b : W64) (s : State) : Host.Outcome State Fault Refusal := ok (issueUnit 0x113 l e b none s)

/-- ALU_XOR (R129). -/
def execAluXor (l : LaneId) (e : Fin 4) (b : W64) (s : State) : Host.Outcome State Fault Refusal := ok (issueUnit 0x114 l e b none s)

/-- ALU_SHL (R129). -/
def execAluShl (l : LaneId) (e : Fin 4) (b : W64) (s : State) : Host.Outcome State Fault Refusal := ok (issueUnit 0x115 l e b none s)

/-- ALU_SHR (R129). -/
def execAluShr (l : LaneId) (e : Fin 4) (b : W64) (s : State) : Host.Outcome State Fault Refusal := ok (issueUnit 0x116 l e b none s)

/-- ALU_SAR (R129). -/
def execAluSar (l : LaneId) (e : Fin 4) (b : W64) (s : State) : Host.Outcome State Fault Refusal := ok (issueUnit 0x117 l e b none s)

/-- ALU_MUL (R129). -/
def execAluMul (l : LaneId) (e : Fin 4) (b : W64) (s : State) : Host.Outcome State Fault Refusal := ok (issueUnit 0x118 l e b none s)

/-- ALU_EQ (R129). -/
def execAluEq (l : LaneId) (e : Fin 4) (b : W64) (s : State) : Host.Outcome State Fault Refusal := ok (issueUnit 0x119 l e b none s)

/-- ALU_NE (R129). -/
def execAluNe (l : LaneId) (e : Fin 4) (b : W64) (s : State) : Host.Outcome State Fault Refusal := ok (issueUnit 0x11A l e b none s)

/-- ALU_LT (R129). -/
def execAluLt (l : LaneId) (e : Fin 4) (b : W64) (s : State) : Host.Outcome State Fault Refusal := ok (issueUnit 0x11B l e b none s)

/-- ALU_LTU (R129). -/
def execAluLtu (l : LaneId) (e : Fin 4) (b : W64) (s : State) : Host.Outcome State Fault Refusal := ok (issueUnit 0x11C l e b none s)

/-- ALU_LE (R129). -/
def execAluLe (l : LaneId) (e : Fin 4) (b : W64) (s : State) : Host.Outcome State Fault Refusal := ok (issueUnit 0x11D l e b none s)

/-- ALU_LEU (R129). -/
def execAluLeu (l : LaneId) (e : Fin 4) (b : W64) (s : State) : Host.Outcome State Fault Refusal := ok (issueUnit 0x11E l e b none s)

/-- ALU_MIN (R129). -/
def execAluMin (l : LaneId) (e : Fin 4) (b : W64) (s : State) : Host.Outcome State Fault Refusal := ok (issueUnit 0x11F l e b none s)

/-- ALU_MAX (R129). -/
def execAluMax (l : LaneId) (e : Fin 4) (b : W64) (s : State) : Host.Outcome State Fault Refusal := ok (issueUnit 0x120 l e b none s)

/-- ALU_PASS (R129). -/
def execAluPass (l : LaneId) (e : Fin 4) (b : W64) (s : State) : Host.Outcome State Fault Refusal := ok (issueUnit 0x121 l e b none s)

/-- BIT_LD (R131). -/
def execBitLd (l : LaneId) (e : Fin 4) (b : W64) (s : State) : Host.Outcome State Fault Refusal := ok (issueUnit 0x150 l e b none s)

/-- BIT_AND (R131). -/
def execBitAnd (l : LaneId) (e : Fin 4) (b : W64) (s : State) : Host.Outcome State Fault Refusal := ok (issueUnit 0x151 l e b none s)

/-- BIT_OR (R131). -/
def execBitOr (l : LaneId) (e : Fin 4) (b : W64) (s : State) : Host.Outcome State Fault Refusal := ok (issueUnit 0x152 l e b none s)

/-- BIT_XOR (R131). -/
def execBitXor (l : LaneId) (e : Fin 4) (b : W64) (s : State) : Host.Outcome State Fault Refusal := ok (issueUnit 0x153 l e b none s)

/-- BIT_ANDN (R131). -/
def execBitAndn (l : LaneId) (e : Fin 4) (b : W64) (s : State) : Host.Outcome State Fault Refusal := ok (issueUnit 0x154 l e b none s)

/-- BIT_ORN (R131). -/
def execBitOrn (l : LaneId) (e : Fin 4) (b : W64) (s : State) : Host.Outcome State Fault Refusal := ok (issueUnit 0x155 l e b none s)

/-- BIT_OPEN (R131). -/
def execBitOpen (l : LaneId) (e : Fin 4) (b : W64) (s : State) : Host.Outcome State Fault Refusal := ok (issueUnit 0x156 l e b none s)

/-- BIT_CLOSE (R131). -/
def execBitClose (l : LaneId) (e : Fin 4) (b : W64) (s : State) : Host.Outcome State Fault Refusal := ok (issueUnit 0x157 l e b none s)

/-- BIT_ST (R131). -/
def execBitSt (l : LaneId) (e : Fin 4) (b : W64) (s : State) : Host.Outcome State Fault Refusal := ok (issueUnit 0x158 l e b none s)

/-- BIT_SET (R131). -/
def execBitSet (l : LaneId) (e : Fin 4) (b : W64) (s : State) : Host.Outcome State Fault Refusal := ok (issueUnit 0x159 l e b none s)

/-- BIT_RST (R131). -/
def execBitRst (l : LaneId) (e : Fin 4) (b : W64) (s : State) : Host.Outcome State Fault Refusal := ok (issueUnit 0x15A l e b none s)

/-- BIT_INV (R131). -/
def execBitInv (l : LaneId) (e : Fin 4) (b : W64) (s : State) : Host.Outcome State Fault Refusal := ok (issueUnit 0x15B l e b none s)

/-- BIT_LDV (R131). -/
def execBitLdv (l : LaneId) (e : Fin 4) (b : W64) (s : State) : Host.Outcome State Fault Refusal := ok (issueUnit 0x15C l e b none s)

/-- TMR_TON (R137). -/
def execTmrTon (l : LaneId) (e : Fin 4) (b : W64) (s : State) : Host.Outcome State Fault Refusal := ok (issueUnit 0x190 l e b none s)

/-- TMR_TOF (R137). -/
def execTmrTof (l : LaneId) (e : Fin 4) (b : W64) (s : State) : Host.Outcome State Fault Refusal := ok (issueUnit 0x191 l e b none s)

/-- TMR_TP (R137). -/
def execTmrTp (l : LaneId) (e : Fin 4) (b : W64) (s : State) : Host.Outcome State Fault Refusal := ok (issueUnit 0x192 l e b none s)

/-- TMR_TACC (R137). -/
def execTmrTacc (l : LaneId) (e : Fin 4) (b : W64) (s : State) : Host.Outcome State Fault Refusal := ok (issueUnit 0x193 l e b none s)

/-- TMR_TRST (R137). -/
def execTmrTrst (l : LaneId) (e : Fin 4) (b : W64) (s : State) : Host.Outcome State Fault Refusal := ok (issueUnit 0x194 l e b none s)

/-- EDG_RISE (R139). -/
def execEdgRise (l : LaneId) (e : Fin 4) (b : W64) (s : State) : Host.Outcome State Fault Refusal := ok (issueUnit 0x1D0 l e b none s)

/-- EDG_FALL (R139). -/
def execEdgFall (l : LaneId) (e : Fin 4) (b : W64) (s : State) : Host.Outcome State Fault Refusal := ok (issueUnit 0x1D1 l e b none s)

/-- BLK_MOVE (R141). -/
def execBlkMove (l : LaneId) (e : Fin 4) (b : Within W64) (s : State) : Host.Outcome State Fault Refusal :=
  ok (issueUnit 0x210 l e b.value (some b.elems) s)

/-- BLK_FILL (R141). -/
def execBlkFill (l : LaneId) (e : Fin 4) (b : Within W64) (s : State) : Host.Outcome State Fault Refusal :=
  ok (issueUnit 0x211 l e b.value (some b.elems) s)

/-- BLK_CMP (R141). -/
def execBlkCmp (l : LaneId) (e : Fin 4) (b : Within W64) (s : State) : Host.Outcome State Fault Refusal :=
  ok (issueUnit 0x212 l e b.value (some b.elems) s)

/-- BLK_SCAN (R141). -/
def execBlkScan (l : LaneId) (e : Fin 4) (b : Within W64) (s : State) : Host.Outcome State Fault Refusal :=
  ok (issueUnit 0x213 l e b.value (some b.elems) s)

/-- TBL_LOOKUP (R151 to R156). -/
def execTblLookup (l : LaneId) (e : Fin 4) (slot : Fin 4) (b : W64) (s : State) : Host.Outcome State Fault Refusal :=
  ok (issueUnit (0x250 + slot.val) l e b none s)

/-- A slot whose lookup has come to its context cycle takes its status and value (R153). -/
def TblSlot.settle (c : Nat) (x : TblSlot) : TblSlot :=
  match x.flight with
  | some (t, st, v) => if t ≤ c then { status := st, value := v, flight := none } else x
  | none => x

/-- TBL_LOOKUP_DONE (R120, R153): also in a context that has been switched out. -/
def execTblLookupDone (l : LaneId) (task : Fin 256) (slot : Fin 4) (s : State) : Host.Outcome State Fault Refusal :=
  ok (modCtx l task (fun c => { c with slots := vmod c.slots slot (TblSlot.settle c.cyc) }) s)

/-- IMG_RD (R165). -/
def execImgRd (l : LaneId) (e : Fin 4) (b : W64) (s : State) : Host.Outcome State Fault Refusal := ok (issueUnit 0x290 l e b none s)

/-- IMG_WR (R166). -/
def execImgWr (l : LaneId) (e : Fin 4) (b : W64) (s : State) : Host.Outcome State Fault Refusal := ok (issueUnit 0x291 l e b none s)

/-- LS_LD (R168, R169). -/
def execLsLd (l : LaneId) (e : Fin 4) (size : Fin 4) (b : W64) (s : State) : Host.Outcome State Fault Refusal :=
  ok (issueUnit (0x2D0 + size.val) l e b none s)

/-- LS_ST (R168, R169). -/
def execLsSt (l : LaneId) (e : Fin 4) (size : Fin 4) (b : W64) (s : State) : Host.Outcome State Fault Refusal :=
  ok (issueUnit (0x2D4 + size.val) l e b none s)

/-- BR_ABS (R111). -/
def execBrAbs (l : LaneId) (e : Fin 4) (b : W64) (s : State) : Host.Outcome State Fault Refusal := ok (issueUnit 0x300 l e b none s)

/-- BR_REL (R111). -/
def execBrRel (l : LaneId) (e : Fin 4) (b : W64) (s : State) : Host.Outcome State Fault Refusal := ok (issueUnit 0x301 l e b none s)

/-- BR_CALL (R111). -/
def execBrCall (l : LaneId) (e : Fin 4) (b : W64) (s : State) : Host.Outcome State Fault Refusal := ok (issueUnit 0x302 l e b none s)

/-- BR_RET (R111). -/
def execBrRet (l : LaneId) (e : Fin 4) (b : W64) (s : State) : Host.Outcome State Fault Refusal := ok (issueUnit 0x303 l e b none s)

/-- TSK_END (R113, R192, R201). -/
def execTskEnd (l : LaneId) (e : Fin 4) (s : State) : Host.Outcome State Fault Refusal := ok (issueUnit 0x348 l e 0 none s)

/-- BUDGET_OVERRUN (R186): the owner has used its budget without reaching TSK_END. -/
def execBudgetOverrun (l : LaneId) (e : Fin 4) (s : State) : Host.Outcome State Fault Refusal :=
  match running s l e with
  | none => ok s
  | some r =>
    let c := ctxOf s l r.task
    if !c.inErr && decide (r.entry.budget ≤ c.usedCycles) then ok (ownerFault l r 0x20 c.stopIndex s) else ok s

/-- ERROR_TASK_OVERRUN (R187). -/
def execErrorTaskOverrun (l : LaneId) (e : Fin 4) (s : State) : Host.Outcome State Fault Refusal :=
  match running s l e with
  | none => ok s
  | some r =>
    match r.err with
    | some err =>
      let c := ctxOf s l err.task
      if (ctxOf s l r.task).inErr && decide (err.budget ≤ c.usedCycles) then ok (errorFault l r err 0 c.stopIndex s) else ok s
    | none => ok s

/-- LANE_DEADLINE (R188, R270): the earliest release that is past its instant in the lane. -/
def execLaneDeadline (l : LaneId) (s : State) : Host.Outcome State Fault Refusal :=
  match s.tsk.rels.find? fun r => overdue s r l && decide (laneDeadline r l ≤ s.clk.ct) with
  | some r => ok (judgeAll (laneFault 0x0108 r.task l (det [(1, r.task), (3, 0), (4, r.cycle % 4294967296)]) s))
  | none => ok s

end Sys2Proof.Machine
end

