-- ==== Sys2Proof/Machine/Tasks.lean ====
section
/-! DEFINITION. Releases of tasks: the grid, events, the snapshot, the writes at the start of a release, delivery and copy, and the task
descriptors (R172 to R200, R214, R249, R382, R383). -/

namespace Sys2Proof.Machine

/-! ## Stations as the snapshot sees them -/

/-- The standing of a station. -/
def stationAt (s : State) (ring station : Nat) : Station := (s.net.rings.get (finOr ring)).stations.get (finOr station)

/-- The entry of a station in the applied network schedule of its ring. -/
def stationEntry (s : State) (ring station : Nat) : Option StationEntry :=
  ((s.net.rings.get (finOr ring)).sched).bind fun k => k.stations.find? fun e => e.station == station

/-- The event task that a stream of unsolicited messages releases (R178, R339). -/
def streamTask (s : State) (stream : Nat) : Option TaskEntry :=
  s.tsk.sched.bind fun k => k.tasks.find? fun t => t.kind == .event && t.eventSrc == 4 && t.eventArg.toNat == stream

/-- The input points that the I/O map assigns to the event stream of a station (log entry 23). -/
def eventPoints (s : State) (ring station : Nat) : List IoEntry :=
  match stationEntry s ring station with
  | some e =>
    if e.eventStream = 0 then []
    else
      match streamTask s e.eventStream with
      | some t => stationPoints (s.tsk.iomap.filter fun x => x.task == t.task) ring station false
      | none => []
  | none => []

/-- The points of a station's IN frame: all its mapped inputs (R318). -/
def cyclicIn (s : State) (ring station : Nat) : List IoEntry := stationPoints s.tsk.iomap ring station false

/-- SUBST of an entry, with quality substituted. -/
def IoEntry.substituted (e : IoEntry) : IoValue := { value := e.subst, quality := 1 }

/-- The snapshot of local points is taken at the release CT, in a pair 20 µs before it (R190, R382). -/
def localInstant (s : State) (ct : Nat) : Nat := if pairMember s then ct - 20000 else ct

/-- A point of the partner's field die (R382). -/
def partnerPoint (s : State) (e : IoEntry) (ct : Nat) : IoValue :=
  if s.pair.mark < localInstant s ct then e.substituted
  else
    match s.pair.points.find? fun c => c.point == addrPoint e.point && decide (c.ct ≤ localInstant s ct) with
    | some c => { value := c.value, quality := c.quality }
    | none => e.substituted

/-- A point of a Strait station (R190, R331, R339). A point of the event stream holds what the last unsolicited message wrote, and before the first
one what the IN frame carries (DESIGN CHOICE, log entry 23). -/
def stationPoint (s : State) (e : IoEntry) : IoValue :=
  let r := addrRing e.point
  let n := addrStation e.point
  let x := stationAt s r n
  if x.dropped || x.lagging then e.substituted
  else
    let ev := eventPoints s r n
    if !x.events.isEmpty && ev.any fun y => y.point == e.point then
      match unpackPoint ev x.events e.point with
      | some v => { v with quality := 0 }
      | none => e.substituted
    else
      match x.used with
      | some f => (unpackPoint (cyclicIn s r n) f.payload e.point).getD e.substituted
      | none => e.substituted

/-- The value of an input point before forcing (R190). -/
def inputValue (s : State) (e : IoEntry) (ct : Nat) : IoValue :=
  if addrRing e.point = 15 then
    if addrStation e.point = ownStation s then fieldPoint s (addrPoint e.point) (localInstant s ct)
    else if pairMember s then partnerPoint s e ct
    else e.substituted
  else stationPoint s e

/-! ## Forces (R206 to R210) -/

/-- An input as the snapshot delivers it: forced, else invalid where its word is damaged, else as it was obtained (R37,
R200, R207). -/
def snapValue (s : State) (fs : List Force) (bad : List W32) (e : IoEntry) (ct : Nat) : IoValue :=
  match forceOn (activeImage s) fs 3 e.point with
  | some f => f.forced
  | none =>
    let v := inputValue s e ct
    if bad.contains e.point then { v with quality := 3 } else v

/-! ## Causes for the error task (R202) -/

/-- Enter a cause at chip time `ct` into the standing figures of a task. -/
def TaskRun.addCause (b ct : Nat) (station : Option W32) (x : TaskRun) : TaskRun :=
  { x with
    causes := x.causes ||| (2 ^ b), causeCt := if x.causes = 0 then ct else x.causeCt,
    stations := match station with
      | some a => if x.stations.contains a then x.stations else x.stations ++ [a]
      | none => x.stations }

/-- A cause of a station, bit 2, 3 or 4, for every task that reads or writes it (R202). -/
def stationCause (b ring station : Nat) (s : State) : State :=
  let ts := ((s.tsk.iomap.filter fun e => addrRing e.point == ring && addrStation e.point == station).map (·.task)).dedup
  ts.foldl (fun s t => modRun t (TaskRun.addCause b s.clk.ct
    (some (BitVec.ofNat 32 (ring * 16777216 + station * 65536)))) s) s

/-- The partner's field die is lost or back as a snapshot at `ct` finds it (R382). -/
def checkPartner (ct : Nat) (s : State) : State :=
  if pairMember s then
    let lost := decide (s.pair.mark < localInstant s ct)
    if lost = s.pair.partnerLost then s
    else stationCause (if lost then 2 else 4) 15 (1 - ownStation s) (s.modPair fun p => { p with partnerLost := lost })
  else s

/-! ## Exchange versions (R195 to R198) -/

/-- A later release of the writer has been delivered that writes the same slot: release k+3 for version k (R196, R198). -/
def slotTaken (s : State) (writer cycle ct : Nat) : Bool :=
  s.tsk.rels.any fun r => r.task == writer && r.cycle % 3 == cycle % 3 && decide (ct < r.ct) && r.lanes.toList.any fun b => b

/-- The exchange version that the complete set of a release makes (R196, R253). -/
def Release.makes (s : State) (r : Release) : Option Version :=
  if r.set == .complete then
    r.version.map fun v =>
      { writer := v.1, cycle := r.cycle, instant := r.instant, readable := !slotTaken s v.1 r.cycle r.ct, xout := v.2.1, xsize := v.2.2 }
  else none

/-- The versions of a writer that are valid, those of releases whose output instants have come at this very chip time among
them (R196). -/
def validVersions (s : State) (writer ct : Nat) : List Version :=
  (s.tsk.versions ++ ((s.tsk.rels.filter fun r => !r.done).filterMap fun r => r.makes s)).filter fun v =>
    v.writer == writer && decide (v.instant ≤ ct)

/-- The newest valid version of a writer whose output instant is not later than `ct`; `none` where no version has become
valid or it is no longer readable (R197, R198). -/
def newestVersion (s : State) (writer ct : Nat) : Option Version :=
  ((validVersions s writer ct).foldl (fun (b : Option Version) v =>
      match b with
      | some x => if x.instant < v.instant then some v else b
      | none => some v) none).filter fun v => v.readable

/-- A release that a lane receives takes its slot from the version that holds it (R198). -/
def takeSlot (r : Release) (s : State) : State :=
  s.modTsk fun k =>
    { k with versions := k.versions.map fun v =>
        if v.writer == r.task && v.cycle % 3 == r.cycle % 3 then { v with readable := false } else v }

/-! ## The pair's join release (R377, R378) -/

/-- T_fin of R378 in ns. -/
def joinFinNs (s : State) : Nat := 20000 + 256 * s.pair.dirty + 1024 * occupied s

/-- The first release after the final copy is the join release (R377, step 5): class 0x0307; the stations that reported
divergence get a catch-up (R387). -/
def joinRelease (ct : Nat) (s : State) : State :=
  if s.pair.joinFinal ∧ s.pair.joinT ≤ ct ∧ (s.pair.state = .activeAlone ∨ s.pair.state = .standbyJoining) then
    let act := s.pair.state == .activeAlone
    let s1 := event 0x0307 (det [(4, s.pair.dirty), (4, joinFinNs s)]) s
    let s2 := setPairState (if act then .activeSynced else .standbySynced) s1
    let s3 := s2.modPair fun p => { p with joinFinal := false, joinStep := 0, dirty := 0, diverged := [] }
    let s4 := if act then s3 else s3.modSys fun y => { y with run := .running }
    if act then
      s.pair.diverged.foldl (fun s d => s.modNet fun n =>
        { n with rings := vmod n.rings d.1 fun r =>
          { r with stations := vmod r.stations (finOr d.2) fun x => { x with catchUp := some { sentAt := 0, x := 0, acked := false } } } }) s4
    else s4
  else s

/-- Tasks are released here: the program runs, alone or in a pair state that runs it, or the join release is due
(R217, R363, R377). -/
def mayRelease (s : State) : Bool :=
  commandsOutputs s || (pairMember s && s.pair.state == .standbyJoining && s.pair.joinFinal)

/-! ## A release -/

/-- The lanes due to receive a release (R264, R290). -/
def dueLanes (s : State) (ct : Nat) : Vector Bool 3 :=
  Vector.ofFn fun l => (s.lanes.get l).state == .inService && decide (s.tsk.resumeAt ≤ ct)

/-- What a snapshot at `ct` captures of a table (R149, R386): its generation with the number of its load above 64 bits, `none`
where it is not loaded then. -/
def Table.captured (t : Table) (ct : Nat) : Option Nat :=
  let at_ (g : Nat) : Option Nat := some (g + t.loads * 2 ^ 64)
  if t.from_ ≤ ct then (if t.loaded then at_ t.gen else none)
  else if t.loaded then (if t.gen = 1 then none else at_ (t.gen - 1))
  else if t.old.isEmpty then none
  else at_ t.gen

/-- The tables a release may look up, with the generation captured (R149). -/
def capturedTables (s : State) (ct : Nat) : List (Nat × Nat) :=
  (allFin 16).filterMap fun i => ((s.tbl.get i).captured ct).map fun g => (i.val, g)

/-- The release of a task at `ct` with its snapshot and its causes (R149, R189, R197, R202, R208). -/
def makeRelease (bad : List W32) (e : TaskEntry) (cycle ct : Nat) (s : State) : Release :=
  let fs := forcesAt s ct
  let x := taskRun s e.task
  let sel := e.xin.map fun i => (i, writerSize s i.writer, newestVersion s i.writer ct)
  let stale := sel.any fun y => y.2.2.isNone
  let causes := if stale then x.causes ||| 64 else x.causes
  { task := e.task, cycle := cycle, ct := ct, entry := e, err := e.errorTask.bind (taskEntry s),
    outs := s.tsk.iomap.filter fun y => y.out && y.task == e.task,
    snap := (s.tsk.iomap.filter fun y => !y.out && y.task == e.task).map fun y => (y.point, snapValue s fs bad y ct),
    forces := fs, tables := capturedTables s ct, xsel := sel, lanes := dueLanes s ct,
    delivered := Vector.ofFn fun l => l.val == 0 && (dueLanes s ct).get l, ready := Vector.replicate 3 false,
    ended := Vector.replicate 3 false, causes := causes, causeCt := if x.causes = 0 then ct else x.causeCt,
    stations := x.stations, version := if e.xsize = 0 then none else some (e.task, e.xout, e.xsize), effects := [], set := .collecting, instant := ct + e.offset,
    lead := (assoc? e.task s.tsk.leads).getD 0, resp := (assoc? e.task s.tsk.resp).getD 0, late := false, cut := false,
    image := [], sent := [], done := false }

/-- A previous release of the task that still runs in a lane is a fault of that lane (R176). -/
def stillRunning (task : Nat) (s : State) : State :=
  (allFin 3).foldl (fun s l =>
    match s.tsk.rels.find? fun r => r.task == task && r.lanes.get l && !r.ended.get l with
    | some r => judgeAll (laneFault 0x0108 task l (det [(1, task), (3, 0), (4, r.cycle % 4294967296)]) s)
    | none => s) s

/-! ## Writes at the start of a release (R209, R216, R249) -/

/-- The lines of the data partition that a symbol takes. -/
def Symbol.lines (y : Symbol) : List Nat := if y.isBit then linesOf (y.loc.toNat / 8) 1 else linesOf y.loc.toNat y.size

/-- Write a symbol's value in every lane due, through the force filter of the release. -/
def writeSym (r : Release) (y : Symbol) (v : List Byte) (s : State) : State :=
  let fs := forcedOf s (activeImage s) r.forces
  (allFin 3).foldl (fun s l =>
    if r.lanes.get l then markLines l y.lines (modLane l (fun x => { x with mem := y.writeTo fs v x.mem }) s) else s) s

/-- The forced values of the variables whose writer this is, at its first release since they took effect, or since the
last switch (R209, R251, R252); an exchange variable in each of its slots (R211). -/
def startForces (r : Release) (prev : Option Nat) (s : State) : State :=
  r.forces.foldl (fun s f =>
    match findSym s f.sym with
    | some y =>
      if (y.kind == 1 || y.kind == 2) && y.writer == r.task &&
          ((prev.map fun p => decide (p < max f.at_ s.prg.lastX)).getD true) then
        (places s y).foldl (fun s a => writeSym r { y with loc := BitVec.ofNat 32 a } f.value s) s
      else s
    | none => s) s

/-- Two places of the data partition overlap: bits [a, a+n) and [b, b+m). -/
def bitsOverlap (a n b m : Nat) : Bool := decide (a < b + m) && decide (b < a + n)

/-- The bits of the data partition that a variable takes. -/
def Symbol.bits (y : Symbol) : Nat × Nat := if y.isBit then (y.loc.toNat, 1) else (y.loc.toNat * 8, y.size * 8)

/-- A force of the release overlaps the variable (R211). -/
def overridden (s : State) (r : Release) (y : Symbol) : Bool :=
  r.forces.any fun f =>
    match findSym s f.sym with
    | some z => (z.kind == 1 || z.kind == 2) && bitsOverlap z.bits.1 z.bits.2 y.bits.1 y.bits.2
    | none => false

/-- Write the symbols of one VAR_WRITE whose writer this release is of. -/
def writeItems (r : Release) (w : VarWrite) (s : State) : VarWrite × State :=
  w.items.foldl (fun (acc : VarWrite × State) i =>
    match findSym s i.sym with
    | some y =>
      if !i.written && y.writer == r.task then
        ({ acc.1 with overridden := acc.1.overridden + bit (overridden s r y),
                      items := updFirst (fun j => j.sym == i.sym && !j.written) (fun j => { j with written := true }) acc.1.items },
          writeSym r y i.value acc.2)
      else acc
    | none => acc) (w, s)

/-- Complete a VAR_WRITE whose last symbol is written at a release with CT `ct` (R214, R216). -/
def endWrite (w : VarWrite) (ct : Nat) (s : State) : State :=
  let s1 := s.modTsk fun k =>
    { k with floor := vmod k.floor w.ring fun _ => ct, writes := k.writes.filter fun x => !(x.ring == w.ring && x.num == w.num) }
  let res := fields [(8, w.p)]
  endDesc w.ring w.num
    (if w.overridden = 0 then doneOk res else { status := stOverridden, detail := BitVec.ofNat 32 w.overridden, result := res }) s1

/-- Releases at or after the stop instant and at or after the X of a committed transaction are not made under the present
schedule (R218, R221). -/
def releaseOpen (s : State) (ct : Nat) : Bool :=
  ((s.tsk.stopAt.map fun t => decide (ct < t)).getD true) && (s.txn.phase != .committed || decide (ct < s.txn.x))

/-- A release of the task with this CT is still to be made, under the present schedule. -/
def releaseToCome (s : State) (task ct : Nat) : Bool :=
  match taskEntry s task with
  | some e => releaseOpen s ct && ((e.kind == .periodic && gridCt s e == ct) || (taskRun s task).due == some ct)
  | none => false

/-- A VAR_WRITE writes its last symbol at releases with CT `ct`: its apply instant and floor are reached, and every symbol
not yet written has its writer's release there, this one or one to come (R216). -/
def completesAt (s : State) (r : Release) (w : VarWrite) : Bool :=
  decide (w.p ≤ r.ct) && decide (s.tsk.floor.get w.ring ≤ r.ct) &&
    w.items.all fun i => i.written ||
      ((findSym s i.sym).map fun y => y.writer == r.task || releaseToCome s y.writer r.ct).getD false

/-- The writes of R216 due at a release, in the order they were fetched. A write goes ahead once the earlier ones of its
ring pair have written their last symbols, or write them at this same release CT. -/
def startWrites (r : Release) : List VarWrite → State → State
  | [], s => s
  | w :: ws, s =>
    let before := (s.tsk.writes.filter fun x => x.ring == w.ring).takeWhile fun x => x.num != w.num
    if before.all (completesAt s r) && decide (w.p ≤ r.ct) && decide (s.tsk.floor.get w.ring ≤ r.ct) then
      let (w1, s1) := writeItems r w s
      startWrites r ws
        (s1.modTsk fun k => { k with writes := updFirst (fun x => x.ring == w.ring && x.num == w.num) (fun _ => w1) k.writes })
    else startWrites r ws s

/-- Complete the writes whose last symbols are written, each ring pair's in order (R216). -/
def endWrites (ct : Nat) : List VarWrite → State → State
  | [], s => s
  | w :: ws, s =>
    match s.tsk.writes.find? fun x => x.ring == w.ring with
    | some x => endWrites ct ws (if x.num = w.num && x.items.all (fun i => i.written) then endWrite x ct s else s)
    | none => endWrites ct ws s

/-- The memory bits of new edge detectors at their task's first release (R249). -/
def startEdges (r : Release) (s : State) : State :=
  let es := s.prg.edges.filter fun e => e.task == r.task
  let s1 := s.modPrg fun p => { p with edges := p.edges.filter fun e => e.task != r.task }
  es.foldl (fun s e =>
    (allFin 3).foldl (fun s l =>
      if r.lanes.get l then
        markLines l (linesOf (e.new / 8) 1) (modLane l (fun x =>
          let v := if e.kind = 5 then ((assoc? (BitVec.ofNat 32 e.arg) r.snap).map fun v => v.value != 0).getD false
            else dataBit x.mem e.arg
          { x with mem := writeBit [] x.mem e.new v }) s)
      else s) s) s1

/-- The contexts of a task and its error task that the watchdog reset before this release (R247, R581). -/
def resetContexts (e : TaskEntry) (s : State) : State :=
  if s.wdg.resets.contains e.task then
    let ts := e.task :: e.errorTask.toList
    let s1 := s.modWdg fun w => { w with resets := w.resets.filter fun t => t != e.task }
    ts.foldl (fun s t => (allFin 3).foldl (fun s l => modCtx l t (fun c => { Ctx.reset with digest := c.digest }) s) s) s1
  else s

/-- The image unit of a lane copies the snapshot of a release into its buffer (R164). -/
def takeSnap (l : LaneId) (r : Release) (s : State) : State := modLane l (fun x => { x with snaps := assocSet r.task r.snap x.snaps }) s

/-- What a release does in the lanes that receive it, before its first bundle: the slot it takes (R198), forced values and host writes
(R209, R216), new edge detectors (R249), and the snapshot for lane A (R191). -/
def startRelease (r : Release) (prev : Option Nat) (s : State) : State :=
  let s1 := startForces r prev (takeSlot r s)
  let s2 := startEdges r (endWrites r.ct s1.tsk.writes (startWrites r s1.tsk.writes s1))
  if r.lanes.get 0 then takeSnap 0 r s2 else s2

/-- Release a task at `ct` (R176 to R178, R189 to R198). A release that no lane is due to receive does nothing in the lanes: writes and
forced values wait for the next one (R209, R216, R300). -/
def release (bad : List W32) (e : TaskEntry) (cycle ct : Nat) (s : State) : State :=
  let s1 := stillRunning e.task (joinRelease ct (rejoinLanes ct s))
  if runsProgram s1 then
    let s2 := resetContexts e (checkPartner ct s1)
    let r := makeRelease bad e cycle ct s2
    let was := taskRun s2 e.task
    let due := r.lanes.toList.any fun b => b
    let s3 := s2.modTsk fun k => { k with rels := k.rels ++ [r] }
    let s4 := modRun e.task (fun x =>
      { x with
        cycle := some cycle, lastCt := ct, lastInstant := r.instant, causes := 0, causeCt := 0, stations := [],
        ran := if due then some (cycle, ct) else x.ran }) s3
    let s5 := traceGen 6 0 e.task (fields [(8, cycle), (4, e.offset), (4, was.used)]) ct s4
    if due then startRelease r (was.ran.map fun x => x.2) s5 else s5
  else s1

/-! ## Which releases are due (R175, R176, R179, R218, R221, R242) -/

/-- X and the window of a switch that is under way, from its APPLY on (R239, R242). -/
def switchPending (s : State) : Option (Nat × Nat) :=
  match s.prg.sw with
  | some w => some (w.x, w.w)
  | none => if (s.txn.phase == .applying || s.txn.phase == .committed) && s.txn.switch.isSome then some (s.txn.x, s.txn.w) else none

/-- Old event tasks are not released from hold(i) onwards (R239, R242). -/
def eventHeld (s : State) (task ct : Nat) : Bool :=
  match switchPending s with
  | some (x, w) => decide (x - w - 4000 - (assoc? task s.tsk.resp).getD 0 * 1000 / 960 ≤ ct) && decide (ct < x)
  | none => false

/-- Insert a pair of release CT and entry by CT, priority and task number (R175). -/
def insertDue (x : Nat × TaskEntry) : List (Nat × TaskEntry) → List (Nat × TaskEntry)
  | [] => [x]
  | y :: r =>
    if keysBefore [x.1, x.2.priority, x.2.task] [y.1, y.2.priority, y.2.task] then x :: y :: r else y :: insertDue x r

/-- The tasks of the applied schedule. -/
def schedTasks (s : State) : List TaskEntry := (s.tsk.sched.map fun k => k.tasks).getD []

/-- The periodic releases that are due, in the order of R175. -/
def duePeriodic (s : State) : List (Nat × TaskEntry) :=
  ((schedTasks s).filter fun e =>
    e.kind == .periodic && decide (gridCt s e ≤ s.clk.ct) && releaseOpen s (gridCt s e)).foldl
    (fun l e => insertDue (gridCt s e, e) l) []

/-- The event releases that are due. -/
def dueEvents (s : State) : List (Nat × TaskEntry) :=
  (schedTasks s).foldl (fun l e =>
    match e.kind, (taskRun s e.task).due with
    | .event, some ct => if ct ≤ s.clk.ct ∧ releaseOpen s ct ∧ !eventHeld s e.task ct then insertDue (ct, e) l else l
    | _, _ => l) []

/-- The periodic release of an entry at its present grid index (R176, R177). -/
def releasePeriodic (bad : List W32) (x : Nat × TaskEntry) (s : State) : State :=
  let t := taskRun s x.2.task
  release bad x.2 (t.k0 + (t.next - t.first)) x.1 (modRun x.2.task (fun y => { y with next := y.next + 1 }) s)

/-- TASK_RELEASE (R176, R189): every periodic release of the earliest CT that is due. -/
def execTaskRelease (bad : List W32) (s : State) : Host.Outcome State Fault Refusal :=
  if mayRelease s then
    match duePeriodic s with
    | [] => ok s
    | x :: r => ok (clearLostEdges ((x :: r.filter fun y => y.1 == x.1).foldl (fun s y => releasePeriodic bad y s) s))
  else ok s

/-! ## Events (R178, R179, R383) -/

/-- The release CT of an event recognised now. -/
def eventCt (s : State) (e : TaskEntry) (at_ : Nat) : Nat :=
  let t := roundUp (if pairMember s then at_ + 30000 else at_) 1000
  let x := taskRun s e.task
  if x.cycle.isSome then max t (x.lastCt + e.period * 1000) else t

/-- Recognise an event of a task at chip time `at_`: it becomes pending, or is coalesced with the pending one. -/
def recognise (e : TaskEntry) (at_ stamp : Nat) (trigger : Option (RingId × Nat)) (s : State) : State :=
  let x := taskRun s e.task
  match x.due with
  | some _ =>
    modRun e.task (fun x =>
      { TaskRun.addCause 7 stamp none x with
        coalesced := satAdd 4294967295 x.coalesced 1, triggers := x.triggers ++ (trigger.toList.map fun t => (t, true)) }) s
  | none =>
    modRun e.task (fun x =>
      { x with due := some (eventCt s e at_), triggers := trigger.toList.map fun t => (t, false) }) s

/-- EVENT_RECOGNISED (R178, R179, R383): in a pair the recogniser sends the recognition, and events of sources 4 and 5 are
recognised by the active module alone. -/
def execEventRecognised (s : State) : Host.Outcome State Fault Refusal :=
  match s.tsk.raw with
  | [] => ok s
  | v :: rest =>
    let s1 := s.modTsk fun k => { k with raw := rest }
    match taskEntry s v.task with
    | some e =>
      if runsProgram s && (decide (e.eventSrc ≤ 3) || hasAuthority s) then
        ok (recognise e s.clk.ct v.stamp v.trigger
          (if mirrors s || s.pair.state == .standbySynced then pairSend (.recognised v.task s.clk.ct) s1 else s1))
      else ok s1
    | none => ok s1

/-- Complete the host triggers of an event release (R214). -/
def endTrigger (ct : Nat) (t : (RingId × Nat) × Bool) (s : State) : State :=
  endDesc t.1.1 t.1.2 (doneOk (fields [(8, ct), (1, bit t.2)])) s

/-- EVENT_TASK_RELEASE (R178, R179). -/
def execEventTaskRelease (bad : List W32) (s : State) : Host.Outcome State Fault Refusal :=
  if mayRelease s then
    match dueEvents s with
    | [] => ok s
    | (ct, e) :: _ =>
      let x := taskRun s e.task
      let cycle := (x.cycle.map fun c => c + 1).getD x.k0
      let s1 := modRun e.task (fun x => { x with due := none, triggers := [] }) s
      ok (clearLostEdges (x.triggers.foldl (fun s t => endTrigger ct t s) (release bad e cycle ct s1)))
  else ok s

/-! ## Delivery and copy (R191, R197, R198) -/

/-- The first of some releases in the order of R175: by CT, priority and task number. -/
def firstRel (rs : List Release) : Option Release :=
  rs.foldl (fun (b : Option Release) r =>
    match b with
    | some x => if keysBefore [r.ct, r.entry.priority, r.task] [x.ct, x.entry.priority, x.task] then some r else b
    | none => some r) none

/-- SNAPSHOT_DELIVERY (R164, R175, R191): to lane B 2 µs and to lane C 4 µs after the release CT. -/
def execSnapshotDelivery (l : LaneId) (s : State) : Host.Outcome State Fault Refusal :=
  match firstRel (s.tsk.rels.filter fun r => r.lanes.get l && !r.delivered.get l && decide (r.ct + stagger l ≤ s.clk.ct)) with
  | some r => ok (takeSnap l r (modRel r.task r.cycle (fun r => { r with delivered := vmod r.delivered l fun _ => true }) s))
  | none => ok s

/-- What is written to an in-area (R197, R198): header and block of the selected version, or the stale mark. -/
def inArea (m : Memory) (x : XIn × Nat × Option Version) : List Byte :=
  match x.2.2 with
  | some v => fields [(8, v.cycle), (8, v.instant)] ++ memRead m (dataBase + v.xout + v.cycle % 3 * v.xsize) (min v.xsize x.2.1)
  | none => List.replicate 8 0xFF

/-- Copy one in-area in a lane. -/
def copyIn (l : LaneId) (x : XIn × Nat × Option Version) (s : State) : State :=
  laneWrite l x.1.area (inArea (s.lanes.get l).mem x) s

/-- SNAPSHOT_COPY_DONE (R175, R191, R117, R118): the release becomes ready, its context at the entry. -/
def execSnapshotCopyDone (l : LaneId) (s : State) : Host.Outcome State Fault Refusal :=
  match firstRel (s.tsk.rels.filter fun r => r.lanes.get l && r.delivered.get l && !r.ready.get l) with
  | some r =>
    let s1 := r.xsel.foldl (fun s i => copyIn l i s) s
    let s2 := modCtx l r.task (fun c => { c.startAt r.entry.entry with index := 0, effects := 0, inErr := false, aborted := false }) s1
    let s3 := modRel r.task r.cycle (fun r => { r with ready := vmod r.ready l fun _ => true }) s2
    ok (schedule l r.entry.engine s3)
  | none => ok s

/-! ## Descriptors (R214, R215) -/

/-- TASK_TRIGGER (R178, R214): completes at the release CT. -/
def doTaskTrigger (q : RingId) (e : Outst) (s : State) : State × Work :=
  let t := e.desc.par 24 1
  match taskEntry s t with
  | none => (s, .finish (doneWith stNotFound 0))
  | some x =>
    if !(x.kind == .event && x.eventSrc == 5) then (s, .finish (doneRefused 1 t 0 0))
    else if !runsProgram s then (s, .finish (doneWith stBadState 0))
    else (rawEvent t e.fetchCt (some (q, e.num)) s, .wait none)

/-- TASK_TRIGGER. -/
def execTaskTrigger (q : RingId) (s : State) : Host.Outcome State Fault Refusal :=
  ok (serveMirrored q 0x2A [] (fun e _ => .trigger (e.desc.par 24 1)) (doTaskTrigger q) s)

/-- The 48 bytes of a task in TASK_STATUS; a task that was never released has cycle number all ones (log entry 24). -/
def taskStatusBytes (s : State) (e : TaskEntry) : List Byte :=
  let x := taskRun s e.task
  fields [(8, x.cycle.getD 0xFFFFFFFFFFFFFFFF), (8, x.lastCt), (4, x.maxUsed), (4, x.overruns), (4, x.faults), (4, x.lates),
    (4, x.coalesced), (1, e.task), (1, match e.kind with
      | .periodic => 0
      | .event => 1
      | .error => 2), (10, 0)]

/-- TASK_STATUS (R214): the tasks of the applied schedule in the range named. -/
def doTaskStatus (e : Outst) (s : State) : State × Work :=
  let a := e.desc.par 24 1
  let n := if e.desc.par 25 1 = 0 then 256 else e.desc.par 25 1
  if 256 < a + n then (s, .finish (doneWith stBadDescriptor 0))
  else
    let ts := (schedTasks s).filter fun t => decide (a ≤ t.task) && decide (t.task < a + n)
    let fit := ts.take (e.desc.len / 48)
    let s1 := bufWrite e.desc 0 (fit.flatMap (taskStatusBytes s)) s
    (s1, .finish { status := if fit.length = ts.length then stOk else stNoSpace, detail := 0, result := fields [(1, fit.length)] })

/-- TASK_STATUS. -/
def execTaskStatus (q : RingId) (s : State) : Host.Outcome State Fault Refusal := ok (serve q 0x2B s doTaskStatus)

/-- The lane that reads of symbols take: the lowest in service, or lane A where none is (R215). -/
def readLane (s : State) : LaneId := (sourceLane s).getD 0

/-- The entry of a symbol read from the data partition (R214, R215). -/
def readEntry (s : State) (y : Symbol) : List Byte :=
  let v := y.readFrom (s.lanes.get (readLane s)).mem
  fields [(4, y.sym.toNat), (2, y.size), (1, 0), (1, 0), (8, ((taskRun s y.writer).ran.map fun x => x.1).getD 0xFFFFFFFFFFFFFFFF)] ++
    fitTo (roundUp y.size 8) v

/-- The head of a symbol that gives no value: 1 not found, 2 not readable. -/
def noEntry (sym : W32) (why : Nat) : List Byte := fields [(4, sym.toNat), (2, 0), (1, why), (1, 0), (8, 0)]

/-- The writer of a symbol has no next release (R215). -/
def neverReleased (s : State) (y : Symbol) : Bool := !runsProgram s || (taskEntry s y.writer).isNone

/-- The writer's latest release has ended normally in the lane that is read. -/
def endedThere (s : State) (y : Symbol) : Bool :=
  let x := taskRun s y.writer
  x.cycle.isSome && x.ends.get (readLane s) == x.cycle

/-- The least release CT whose release a read made now waits for to end normally: a release that is still running counts as the
next one to end (log entry 25). -/
def readAfter (s : State) (y : Symbol) : Nat := (taskRun s y.writer).lastCt + bit (endedThere s y)

/-- A symbol of a VAR_READ as it is first looked at. -/
def startGet (s : State) (sym : W32) : VarGet :=
  match findSym s sym with
  | none => { sym := sym, after := 0, entry := some (noEntry sym 1) }
  | some y =>
    if y.kind = 3 ∨ y.kind = 4 then { sym := sym, after := 0, entry := some (noEntry sym 2) }
    else if neverReleased s y then { sym := sym, after := 0, entry := some (readEntry s y) }
    else { sym := sym, after := readAfter s y, entry := none }

/-- A waiting symbol is read where its writer's latest release has ended normally and no later one has begun. -/
def captureGet (s : State) (g : VarGet) : VarGet :=
  match g.entry with
  | some _ => g
  | none =>
    match findSym s g.sym with
    | none => { g with entry := some (noEntry g.sym 1) }
    | some y =>
      if neverReleased s y then { g with entry := some (readEntry s y) }
      else if endedThere s y && decide (g.after ≤ (taskRun s y.writer).lastCt) then
        { g with entry := some (readEntry s y) }
      else g

/-- The whole entries that fit in `n` bytes. -/
def fitEntries : Nat → List (List Byte) → List (List Byte)
  | _, [] => []
  | n, e :: r => if e.length ≤ n then e :: fitEntries (n - e.length) r else []

/-- Complete a VAR_READ whose symbols are all read. -/
def finishRead (r : VarRead) (s : State) : State :=
  let s1 := s.modTsk fun k => { k with reads := k.reads.filter fun x => !(x.ring == r.ring && x.num == r.num) }
  match findDesc r.ring r.num s with
  | none => s1
  | some e =>
    let off := roundUp (4 * r.gets.length) 8
    let es := r.gets.map fun g => g.entry.getD []
    let fit := fitEntries (e.desc.len - off) es
    let bs := fit.flatten
    endDesc r.ring r.num
      { status := if fit.length = es.length then stOk else stNoSpace, detail := 0, result := fields [(4, bs.length)] }
      (bufWrite e.desc off bs s1)

/-- Go on with the reads: those whose symbols are all read complete. -/
def runReads (s : State) : State :=
  let s1 := s.modTsk fun k => { k with reads := k.reads.map fun r => { r with gets := r.gets.map (captureGet s) } }
  s1.tsk.reads.foldl (fun s r => if r.gets.all fun g => g.entry.isSome then finishRead r s else s) s1

/-- VAR_READ (R214, R215): it waits outside the order of the service cores (log entry 26). -/
def doVarRead (q : RingId) (dma : List Byte) (e : Outst) (s : State) : State × Work :=
  let n := e.desc.par 24 1
  if n < 1 ∨ 64 < n ∨ e.desc.len < roundUp (4 * n) 8 then (s, .finish (doneWith stBadDescriptor 0))
  else
    let ids := bufRead e.desc dma s
    let gets := (List.range n).map fun i => startGet s (BitVec.ofNat 32 (rd ids (4 * i) 4))
    (leaveService q e.num (s.modTsk fun k => { k with reads := k.reads ++ [{ ring := q, num := e.num, gets := gets }] }), .wait e.bound)

/-- VAR_READ. -/
def execVarRead (q : RingId) (dma : List Byte) (s : State) : Host.Outcome State Fault Refusal :=
  ok (runReads (serve q 0x30 s (doVarRead q dma)))

/-- VAR_READ_CAPTURE (R215). -/
def execVarReadCapture (s : State) : Host.Outcome State Fault Refusal := ok (runReads s)

/-- A refused VAR_WRITE: reason and position (R216). -/
def refusedAt (reason pos : Nat) : Done := doneRefused reason 0 pos 0

/-- Parse and check the symbols of a VAR_WRITE from position `i` on; `off` is the place in the buffer (R214, R216). -/
def parseWrites (s : State) (bs : List Byte) : Nat → Nat → Nat → Except Done (List VarItem)
  | 0, _, _ => .ok []
  | n + 1, i, off =>
    let sym : W32 := BitVec.ofNat 32 (rd bs off 4)
    let len := rd bs (off + 4) 2
    let v := slice bs (off + 8) len
    match findSym s sym with
    | none => .error (doneWith stNotFound 0)
    | some y =>
      if y.kind ≠ 1 ∧ y.kind ≠ 2 then .error (refusedAt 1 i)
      else if len ≠ y.size ∨ v.length ≠ len ∨ (y.kind = 1 ∧ 1 < leNat v) then .error (refusedAt 2 i)
      else (parseWrites s bs n (i + 1) (off + 8 + roundUp len 8)).map fun r => { sym := sym, value := v, written := false } :: r

/-- The apply instant of a VAR_WRITE fetched at `ct` from ring pair `q` (R216). -/
def applyInstant (s : State) (q : RingId) (ct : Nat) : Nat := max (ct + 10000) (s.tsk.lastWriteP.get q)

/-- Insert a VAR_WRITE in the order of fetch (R54, R216). -/
def insertWrite (w : VarWrite) : List VarWrite → List VarWrite
  | [] => [w]
  | x :: r => if w.ct < x.ct then w :: x :: r else x :: insertWrite w r

/-- Enter a VAR_WRITE. -/
def enterWrite (q : RingId) (num ct : Nat) (items : List VarItem) (s : State) : State :=
  let p := applyInstant s q ct
  s.modTsk fun k =>
    { k with
      lastWriteP := vmod k.lastWriteP q fun _ => p,
      writes := insertWrite { ring := q, num := num, ct := ct, p := p, items := items, overridden := 0 } k.writes }

/-- VAR_WRITE (R214, R216). -/
def doVarWrite (q : RingId) (dma : List Byte) (e : Outst) (s : State) : State × Work :=
  let n := e.desc.par 24 1
  if n < 1 ∨ 64 < n then (s, .finish (doneWith stBadDescriptor 0))
  else
    match parseWrites s (bufRead e.desc dma s) n 0 0 with
    | .error d => (s, .finish d)
    | .ok items => (enterWrite q e.num e.fetchCt items s, .wait e.bound)

/-- The symbols of a VAR_WRITE as its MIRROR cell carries them. -/
def mirrorWrite (q : RingId) (dma : List Byte) (e : Outst) (s : State) : MirrorItem :=
  match parseWrites s (bufRead e.desc dma s) (e.desc.par 24 1) 0 0 with
  | .ok items => .varWrite q (items.map fun i => (i.sym, i.value))
  | .error _ => .varWrite q []

/-- VAR_WRITE. -/
def execVarWrite (q : RingId) (dma : List Byte) (s : State) : Host.Outcome State Fault Refusal :=
  ok (serveMirrored q 0x31 dma (mirrorWrite q dma) (doVarWrite q dma) s)

/-- A write whose writer was not released in time (R216): TIMEOUT, and the floor of the next one. -/
def timeoutWrite (w : VarWrite) (s : State) : State :=
  let s1 := s.modTsk fun k =>
    { k with
      floor := vmod k.floor w.ring fun _ => w.p + 10000000000,
      writes := k.writes.filter fun x => !(x.ring == w.ring && x.num == w.num) }
  endDesc w.ring w.num (doneWith stTimeout 0) s1

/-- VAR_WRITE_TIMEOUT (R216): 10 s after the later of P and F, for the oldest write of its ring pair. -/
def execVarWriteTimeout (s : State) : Host.Outcome State Fault Refusal :=
  match s.tsk.writes.find? fun w =>
      ((s.tsk.writes.find? fun x => x.ring == w.ring).map fun x => x.num) == some w.num &&
        decide (max w.p (s.tsk.floor.get w.ring) + 10000000000 ≤ s.clk.ct) with
  | some w => ok (timeoutWrite w s)
  | none => ok s

/-! ## The force descriptors (R206, R208, R214) -/

/-- The value of a force as its descriptor carries it. -/
def forceValue (d : Desc) (dma : List Byte) (s : State) : List Byte :=
  let n := d.par 28 2
  if n ≤ 8 then slice d.param 8 n else (bufRead d dma s).take n

/-- The symbol is one bit: a bit variable, or a point that the I/O map gives one bit. -/
def Symbol.oneBit (s : State) (y : Symbol) : Bool :=
  y.kind == 1 || ((y.kind == 3 || y.kind == 4) && s.tsk.iomap.any fun e => e.point == y.loc && e.width == 0)

/-- Another force overlaps the variable (R206). -/
def forceClash (s : State) (y : Symbol) : Bool :=
  (y.kind == 1 || y.kind == 2) && s.tsk.planned.any fun f =>
    f.sym != y.sym &&
      match findSym s f.sym with
      | some z => (z.kind == 1 || z.kind == 2) && bitsOverlap z.bits.1 z.bits.2 y.bits.1 y.bits.2
      | none => false

/-- The checks of R206 in their order; `none` where the force is accepted. -/
def forceCheck (s : State) (sym : W32) (v : List Byte) : Option Done :=
  if 1024 ≤ s.tsk.planned.length && !(s.tsk.planned.any fun f => f.sym == sym) then some (doneWith stNoSpace 0)
  else
    match findSym s sym with
    | none => some (doneWith stNotFound 0)
    | some y =>
      if 5 ≤ y.kind then some (doneRefused 1 0 0 0)
      else if v.length ≠ y.size ∨ (y.oneBit s ∧ 1 < leNat v) then some (doneRefused 2 0 0 0)
      else if forceClash s y then some (doneRefused 3 0 0 0)
      else none

/-- The force instant of a change fetched at `ct` (R208). -/
def forceInstantAt (s : State) (q : RingId) (ct : Nat) : Nat := max (ct + 10000) (s.tsk.lastForceAt.get q)

/-- The place of a force in the table: the one it has, or the lowest free one. -/
def forcePlace (s : State) (sym : W32) : Nat :=
  match s.tsk.planned.find? fun f => f.sym == sym with
  | some f => f.place
  | none => ((List.range 1025).find? fun i => !(s.tsk.planned.any fun f => f.place == i)).getD 0

/-- Enter a change of the force table. -/
def enterForce (q : RingId) (num at_ : Nat) (a : ForceAct) (s : State) : State :=
  s.modTsk fun k =>
    { k with
      lastForceAt := vmod k.lastForceAt q fun _ => at_, planned := a.make k.planned,
      changes := k.changes ++ [{ act := a, at_ := at_, ring := q, num := num }] }

/-- The force that a FORCE_SET makes. -/
def forceOf (s : State) (q : RingId) (ct : Nat) (sym : W32) (v : List Byte) : Force :=
  { sym := sym, value := v, at_ := forceInstantAt s q ct, place := forcePlace s sym }

/-- FORCE_SET. -/
def doForceSet (q : RingId) (dma : List Byte) (e : Outst) (s : State) : State × Work :=
  let sym : W32 := BitVec.ofNat 32 (e.desc.par 24 4)
  let v := forceValue e.desc dma s
  if e.desc.par 28 2 < 1 ∨ 4096 < e.desc.par 28 2 then (s, .finish (doneWith stBadDescriptor 0))
  else
    match forceCheck s sym v with
    | some d => (s, .finish d)
    | none =>
      let f := forceOf s q e.fetchCt sym v
      (enterForce q e.num f.at_ (.set f) s, .wait (some f.at_))

/-- FORCE_SET. -/
def execForceSet (q : RingId) (dma : List Byte) (s : State) : Host.Outcome State Fault Refusal :=
  ok (serveMirrored q 0x34 dma (fun e s => .forceSet q (BitVec.ofNat 32 (e.desc.par 24 4)) (forceValue e.desc dma s)) (doForceSet q dma) s)

/-- FORCE_CLEAR: NOT_FOUND where no force has the symbol. -/
def doForceClear (q : RingId) (e : Outst) (s : State) : State × Work :=
  let sym : W32 := BitVec.ofNat 32 (e.desc.par 24 4)
  if s.tsk.planned.any fun f => f.sym == sym then
    let at_ := forceInstantAt s q e.fetchCt
    (enterForce q e.num at_ (.clear sym) s, .wait (some at_))
  else (s, .finish (doneWith stNotFound 0))

/-- FORCE_CLEAR. -/
def execForceClear (q : RingId) (s : State) : Host.Outcome State Fault Refusal :=
  ok (serveMirrored q 0x35 [] (fun e _ => .forceClear q (BitVec.ofNat 32 (e.desc.par 24 4))) (doForceClear q) s)

/-- FORCE_CLEAR_ALL. -/
def doForceClearAll (q : RingId) (e : Outst) (s : State) : State × Work :=
  let at_ := forceInstantAt s q e.fetchCt
  (enterForce q e.num at_ .clearAll s, .wait (some at_))

/-- FORCE_CLEAR_ALL. -/
def execForceClearAll (q : RingId) (s : State) : Host.Outcome State Fault Refusal :=
  ok (serveMirrored q 0x37 [] (fun _ _ => .forceClearAll q) (doForceClearAll q) s)

/-- Insert a force by its place. -/
def insertForce (f : Force) : List Force → List Force
  | [] => [f]
  | g :: r => if f.place < g.place then f :: g :: r else g :: insertForce f r

/-- The 24 bytes of a force in FORCE_LIST (R214). -/
def forceBytes (s : State) (f : Force) : List Byte :=
  let k := ((findSym s f.sym).map fun y => if y.kind = 3 then 1 else if y.kind = 4 then 3 else 2).getD 2
  fields [(4, f.sym.toNat), (2, f.value.length), (1, k), (1, 0), (8, f.at_)] ++ fitTo 8 f.value

/-- FORCE_LIST (R214). -/
def doForceList (e : Outst) (s : State) : State × Work :=
  let fs := s.tsk.forces.foldl (fun l f => insertForce f l) []
  let fit := fs.take (e.desc.len / 24)
  (bufWrite e.desc 0 (fit.flatMap (forceBytes s)) s,
    .finish { status := if fit.length = fs.length then stOk else stNoSpace, detail := 0,
              result := fields [(4, fit.length), (4, fs.length)] })

/-- FORCE_LIST. -/
def execForceList (q : RingId) (s : State) : Host.Outcome State Fault Refusal := ok (serve q 0x36 s doForceList)

/-- What a force change answers when it takes effect (R214). -/
def forceResult (c : ForceChange) : List Byte :=
  match c.act with
  | .set f => fields [(8, c.at_), (2, f.place)]
  | _ => fields [(8, c.at_)]

/-- FORCE_INSTANT (R208): the changes whose force instant has come are made, and their descriptors complete. -/
def execForceInstant (s : State) : Host.Outcome State Fault Refusal :=
  let cs := s.tsk.changes.filter (forceDue s s.clk.ct)
  let fs := forcesAt s s.clk.ct
  let s1 := s.modTsk fun k => { k with forces := fs, changes := k.changes.filter fun c => !forceDue s s.clk.ct c }
  ok (cs.foldl (fun s c => endDesc c.ring c.num (doneOk (forceResult c)) s) s1)

end Sys2Proof.Machine
end

