-- ==== Sys2Proof/Machine/Watchdog.lean ====
section
/-! DEFINITION. The watchdog's start, its system channel and its restart stamps (R573 to R577, R584). -/

namespace Sys2Proof.Machine

/-- Start the watchdog, with class 0x0909. -/
def startWatchdog (hw : Bool) (s : State) : State :=
  event 0x0909 (det [(1, bit (!hw))]) (startPeriod (s.modWdg fun w => { w with running := true }))

/-- WATCHDOG_START (R573): hardware start at the release of PORST_N, software start when the built-in self-test has ended. -/
def execWatchdogStart (s : State) : Host.Outcome State Fault Refusal :=
  if s.wdg.running || s.sys.inReset then ok s
  else if (fuseWdg s).hw then ok (startWatchdog true s)
  else if s.rwp.wdgCfg.getLsbD 16 && s.sys.selfTestEnded then ok (startWatchdog false s)
  else ok s

/-- The opening tick of the present period, counted from its start (R575). -/
def wdgOpening (s : State) : Nat := if s.wdg.start then 0 else s.wdg.len * (fuseWdg s).opening.toNat / 8

/-- Ticks since the present period began. -/
def wdgElapsed (s : State) : Nat := wdgTick s - s.wdg.since

/-- A fault of the system channel: an ordinary period begins at its tick, and the ladder is climbed (R575, R581). -/
def systemFault (s : State) : State :=
  climb none ((newPeriod s).modFwu fun u => { u with goodSince := if u.trialAt.isSome then some s.clk.now else u.goodSince })

/-- The question goes on by one step (R576). -/
def advanceQuestion (s : State) : State := s.modWdg fun w => { w with question := nextQuestion w.question }

/-- The service on the system channel judged at its tick (R575, R586). -/
def judgeService (a : W32) (s : State) : State :=
  let q := s.wdg.question
  let given : W16 := a.extractLsb' 16 16
  let token : W16 := a.extractLsb' 0 16
  let t := wdgElapsed s
  if t < wdgOpening s then
    systemFault (advanceQuestion (event 0x0901 (det [(2, wdgOpening s - t), (2, q.toNat)]) s))
  else if s.wdg.len ≤ t then systemFault (advanceQuestion (event 0x0902 (det [(2, q.toNat), (2, 0), (1, 1)]) s))
  else if given = q ∧ token = tokenOf q then newPeriod (advanceQuestion s)
  else systemFault (advanceQuestion (event 0x0903 (det [(2, q.toNat), (2, given.toNat), (2, token.toNat)]) s))

/-- WDG_SERVICE (R575, R576). -/
def execWdgService (a : W32) (s : State) : Host.Outcome State Fault Refusal :=
  let s1 := s.modWdg fun w => { w with answer := a }
  if s.wdg.running then ok (judgeService a s1) else ok s1

/-- WDG_EXPIRY (R575): a period that ends without a valid service. -/
def execWdgExpiry (s : State) : Host.Outcome State Fault Refusal :=
  if s.wdg.running && decide (s.wdg.len ≤ wdgElapsed s) then
    ok (systemFault (advanceQuestion (event 0x0902 (det [(2, s.wdg.question.toNat), (2, 0), (1, 0)]) s)))
  else ok s

/-- RESTART_STAMP_EXPIRY (R584). -/
def execRestartStampExpiry (s : State) : Host.Outcome State Fault Refusal :=
  ok (s.modWdg fun w => { w with stamps := liveStamps s })

end Sys2Proof.Machine
end

