-- ==== Sys2Proof/Machine/Output.lean ====
section
/-! DEFINITION. Output images: the cut-off, the output instant, and the stop of a program (R192 to R194, R196, R204, R217, R218, R328, R579, R621). -/

namespace Sys2Proof.Machine

/-! ## The output image of a release (R193, R194, R204, R621) -/

/-- An image that has been applied, newest first for each point: put a point's value in. -/
def putImage (img : List (W32 × IoValue)) (m : List (W32 × IoValue)) : List (W32 × IoValue) :=
  img.foldl (fun m x => assocSet x.1 x.2 m) m

/-- The image of the task's release with the latest output instant before `instant` that is past its cut-off. -/
def lastFormed (s : State) (task instant : Nat) : Option Release :=
  (s.tsk.rels.filter fun r => r.task == task && r.cut && decide (r.instant < instant)).foldl
    (fun (b : Option Release) r =>
      match b with
      | some x => if x.instant < r.instant then some r else b
      | none => some r) none

/-- The value of a point in the previous output image (R204): that of the task's latest image formed, else what was last
applied; zero where nothing has been applied. -/
def previousValue (s : State) (r : Release) (pt : W32) : W64 :=
  let formed := (lastFormed s r.task r.instant).bind fun x => assoc? pt (forcedImage s x.instant x.image)
  ((formed.orElse fun _ => assoc? pt s.tsk.image).map fun v => v.value).getD 0

/-- The fault action of an output point (R204). -/
def faultAction (s : State) (r : Release) (e : IoEntry) : IoValue :=
  if e.substitute then e.substituted else { value := previousValue s r e.point, quality := 1 }

/-- The last effect to a point in issue order (R193). -/
def lastEffect (r : Release) (pt : W32) : Option W64 := assoc? pt r.effects.reverse

/-- The set of a release is complete (R192). -/
def Release.setComplete (r : Release) : Bool := r.set == .complete || r.set == .errorComplete

/-- The set has not closed: the release is late (R194). -/
def Release.open_ (r : Release) : Bool := r.set == .collecting || r.set == .aborted

/-- The value of one output point at the cut-off (R193, R194, R204, R621); a point without an effect keeps its previous
value (log entry 22). -/
def outputValue (s : State) (r : Release) (e : IoEntry) : IoValue :=
  if s.fwu.pausing then { value := previousValue s r e.point, quality := 1 }
  else if r.setComplete then
    match lastEffect r e.point with
    | some v => { value := v, quality := 0 }
    | none => { value := previousValue s r e.point, quality := 0 }
  else faultAction s r e

/-- The late-release fault (R194): code 0x22, and cause bit 5 for the next release. -/
def lateRelease (r : Release) (s : State) : State :=
  let s1 := modRun r.task (fun x => { TaskRun.addCause 5 s.clk.ct none x with lates := x.lates + 1 }) s
  eventAt 0x0120 0xFFFF 1 (det [(1, 0x22), (1, r.task), (4, 0)]) s.clk.ct s1

/-- The cut-off of a release: its image is formed. -/
def cutRelease (r : Release) (s : State) : State :=
  let img := r.outs.map fun e => (e.point, outputValue s r e)
  let s1 := modRel r.task r.cycle (fun x => { x with cut := true, image := img, late := x.open_ }) s
  if r.open_ then lateRelease r s1 else s1

/-! ## Stop images and cut-offs (R193, R218) -/

/-- The output points of a task in the applied I/O map. -/
def taskOuts (s : State) (task : Nat) : List IoEntry := s.tsk.iomap.filter fun e => e.out && e.task == task

/-- The image of a stop: every output point of the task at SUBST (R218). -/
def stopImage (s : State) (task : Nat) : List (W32 × IoValue) := (taskOuts s task).map fun e => (e.point, e.substituted)

/-- Change the stop frames of a task. -/
def modTail (task : Nat) (f : StopTail → StopTail) (s : State) : State :=
  s.modTsk fun k => { k with tails := updWhere (fun t => t.task == task) f k.tails }

/-- The lead of a task's present releases. -/
def taskLead (s : State) (task : Nat) : Nat := (assoc? task s.tsk.leads).getD 0

/-- Form the images of the releases whose cut-off has come (R193). -/
def cutDue (s : State) : State :=
  (s.tsk.rels.filter fun r => !r.cut && decide (r.instant ≤ s.clk.ct + r.lead)).foldl (fun s r => cutRelease r s) s

/-- The SUBST images whose cut-off has come (R218). -/
def cutTails (s : State) : State :=
  (s.tsk.tails.filter fun t => !t.cut && decide (t.instant ≤ s.clk.ct + taskLead s t.task)).foldl
    (fun s t => modTail t.task (fun x => { x with cut := true }) s) s

/-! ## Output instants (R193, R196, R579) -/

/-- The exchange version that becomes valid at the output instant (R196); older ones stay while their slots hold them (R198). -/
def validVersion (r : Release) (s : State) : State :=
  match r.makes s with
  | some n => s.modTsk fun k => { k with versions := (k.versions.filter fun v => v.writer != n.writer || v.readable) ++ [n] }
  | none => s

/-- The watchdog closes the window of a task channel and judges it (R579, R580). -/
def judgeWindow (r : Release) (s : State) : State :=
  match s.wdg.chans.find? fun c => c.task == r.task with
  | some c =>
    if s.wdg.running && ((s.tsk.stopAt.map fun t => decide (r.instant < t)).getD true) then
      let s1 := s.modWdg fun w => { w with chans := updWhere (fun x => x.task == r.task) (fun x => { x with checkIns := 0 }) w.chans }
      if c.checkIns = 1 then s1
      else
        let s2 := s1.modWdg fun w => { w with faults := vmod w.faults (finOr (r.task / 32)) fun x => x ||| (1#32 <<< (r.task % 32)) }
        climb (some r.task)
          (if c.checkIns = 0 then event 0x0904 (det [(1, r.task), (3, 0), (4, r.cycle % 4294967296)]) s2
           else event 0x0905 (det [(1, r.task), (1, min 255 c.checkIns), (2, 0), (4, r.cycle % 4294967296)]) s2)
    else s
  | none => s

/-- Apply the image of a release at its output instant. -/
def applyRelease (r : Release) (s : State) : State :=
  let img := forcedImage s r.instant r.image
  judgeWindow r (validVersion r
    (modRel r.task r.cycle (fun x => { x with done := true }) (s.modTsk fun k => { k with image := putImage img k.image })))

/-- Apply the SUBST image of a stop at O_s. -/
def applyTail (t : StopTail) (s : State) : State :=
  modTail t.task (fun x => { x with done := true }) (s.modTsk fun k => { k with image := putImage (stopImage s t.task) k.image })

/-- A release that is over in every lane, applied, and with no record of it left at the voter. -/
def Release.over (s : State) (r : Release) : Bool :=
  r.done && ((allFin 3).all fun l => !r.lanes.get l || r.ended.get l || (s.lanes.get l).state != .inService) &&
    !((allFin 3).any fun l =>
      ((s.lanes.get l).buffer ++ (s.lanes.get l).queue).any fun x => x.task.toNat == r.task && x.cycle.toNat == r.cycle)

/-- Releases that are over are forgotten. -/
def forgetReleases (s : State) : State := s.modTsk fun k => { k with rels := k.rels.filter fun r => !r.over s }

/-- The output instants that have come: of releases past their cut-off and of the SUBST images of a stop. -/
def dueInstants (s : State) : List Nat :=
  ((s.tsk.rels.filter fun r => r.cut && !r.done && decide (r.instant ≤ s.clk.ct)).map fun r => r.instant) ++
    ((s.tsk.tails.filter fun t => t.cut && !t.done && decide (t.instant ≤ s.clk.ct)).map fun t => t.instant)

/-- OUTPUT_INSTANT (R193, R196, R218, R579): the earliest output instant that has come. -/
def execOutputInstant (s : State) : Host.Outcome State Fault Refusal :=
  match (dueInstants s).min? with
  | none => ok (forgetReleases s)
  | some o =>
    let s1 := (s.tsk.tails.filter fun t => t.cut && !t.done && t.instant == o).foldl (fun s t => applyTail t s) s
    ok (forgetReleases ((s.tsk.rels.filter fun r => r.cut && !r.done && r.instant == o).foldl (fun s r => applyRelease r s) s1))

/-! ## STOP (R218) -/

/-- The first grid instant of a periodic task at or after a chip time. -/
def firstGrid (s : State) (e : TaskEntry) (t : Nat) : Nat :=
  let base := s.tsk.anchor + e.phase * 1000
  let p := e.period * 1000
  max (gridCt s e) (if t ≤ base then base else base + roundUp (t - base) p)

/-- The stop of a program at `at_`: O_s of every periodic task with output points (R218). -/
def beginStop (at_ : Nat) (stopper : Option (RingId × Nat)) (s : State) : State :=
  let ts := ((schedTasks s).filter fun e => e.kind == .periodic && !(taskOuts s e.task).isEmpty).map fun e =>
    ({ task := e.task, instant := firstGrid s e at_ + e.offset, cut := false, sent := [], done := false } : StopTail)
  s.modTsk fun k => { k with stopAt := some at_, stopper := stopper, tails := ts }

/-- STOP: only in RUNNING, and while no stop is under way. -/
def doStop (q : RingId) (e : Outst) (s : State) : State × Work :=
  if !runsProgram s || s.tsk.stopAt.isSome then (s, .finish (doneWith stBadState 0))
  else (beginStop (e.fetchCt + 10000) (some (q, e.num)) s, .wait none)

/-- STOP (R218). -/
def execStop (q : RingId) (s : State) : Host.Outcome State Fault Refusal := ok (serveMirrored q 0x29 [] (fun _ _ => .stop) (doStop q) s)

/-- The time of lanes that are resynchronising stands still outside RUNNING (R286). -/
def pauseResync (s : State) : State :=
  s.modLanes fun v => v.map fun x =>
    match x.state with
    | .resync => { x with resyncNs := x.resyncNs + (s.clk.now - x.resyncAt), resyncAt := s.clk.now }
    | _ => x

/-- A lane that is resynchronising goes on counting from now (R286). -/
def resumeResync (s : State) : State :=
  s.modLanes fun v => v.map fun x =>
    match x.state with
    | .resync => { x with resyncAt := s.clk.now }
    | _ => x

/-- Enter STOPPED (R217, R473): nothing runs, the local channels go to their safe state. -/
def enterStopped (reason : Nat) (s : State) : State :=
  let s1 := if runsProgram s then pauseResync s else s
  runReads (dropReleases (endTriggers stBadState (allSafe (s1.modSys fun y => { y with run := .stopped, stopReason := reason }))))

/-- The stop has come to its end: the stop instant has passed, every release and every O_s is over. -/
def stopOver (s : State) (t : Nat) : Bool :=
  decide (t ≤ s.clk.ct) && (s.tsk.rels.all fun r => r.done) && (s.tsk.tails.all fun x => x.done)

/-- STOP_COMPLETE (R217, R218): STOPPED is entered and the STOP descriptor completes with the stop instant. -/
def execStopComplete (s : State) : Host.Outcome State Fault Refusal :=
  match s.tsk.stopAt with
  | some t =>
    if stopOver s t then
      let s1 := enterStopped 1 s
      match s.tsk.stopper with
      | some (q, n) => ok (endDesc q n (doneOk (fields [(8, t)])) s1)
      | none => ok s1
    else ok s
  | none => ok s

end Sys2Proof.Machine
end

