-- ==== Sys2Proof/Machine/Objects.lean ====
section
/-! DEFINITION. Program images and state maps: their layouts and the checks of a load (R116, R225 to R239). -/

namespace Sys2Proof.Machine

/-! ## Program images (R225 to R228) -/

/-- The size of a program image slot and of a bank (R33, R226). -/
def imageMax : Nat := 4194304

/-- A byte list of zeros. -/
def allZero (bs : List Byte) : Bool := bs.all fun b => b == 0

/-- The length that the header fields of an image give (R225). -/
def imageTotal (bs : List Byte) : Nat := 64 + rd bs 12 4 + rd bs 24 4 + 32 * rd bs 28 4 + 48 + rd bs 32 4

/-- Reason 0x01 of R228: the header is not as R225 lays it down. -/
def badHeader (bs : List Byte) : Bool :=
  let code := rd bs 12 4
  let data := rd bs 24 4
  let syms := rd bs 28 4
  let sig := rd bs 32 4
  rd bs 0 4 != 0x4750564E || rd bs 4 2 != 1 || rd bs 60 4 != (crc32c (bs.take 60)).toNat || rd bs 36 4 != imageTotal bs ||
    decide (imageMax < imageTotal bs) || decide (bs.length < imageTotal bs) || code % 16 != 0 || decide (code < 16) ||
    decide (imageMax < code) || data % 16 != 0 || decide (imageMax < data) || decide (syms < 1) || decide (65536 < syms) ||
    (sig != 0 && sig != 96) || rd bs 16 8 == 0 || !allZero (slice bs 40 20)

/-- Reason 0x02 of R228: the instruction-set level or the features are not those of FEAT0 and FEAT7. -/
def badLevel (bs : List Byte) : Bool :=
  let f := (featWord 0).toNat
  rd bs 6 1 != f / 16777216 || decide (f / 65536 % 256 < rd bs 7 1) ||
    (BitVec.ofNat 32 (rd bs 8 4) &&& ~~~ featWord 7) != 0

/-- What the digest of an image covers. -/
def digested (bs : List Byte) : List Byte := bs.take (imageTotal bs - 48 - rd bs 32 4)

/-- The digest that an image carries. -/
def carriedDigest (bs : List Byte) : List Byte := slice bs (imageTotal bs - 48 - rd bs 32 4) 48

/-- Reason 0x04 of R228: a key is installed and the image has no signature that verifies. -/
def badSignature (key : Option (List Byte)) (bs : List Byte) : Bool :=
  match key with
  | some k => rd bs 32 4 == 0 || !p384Verify k (carriedDigest bs) (slice bs (imageTotal bs - 96) 96)
  | none => false

/-- The first bundle from index `i` on with a slot that breaks R116, among `n` bundles. -/
def badBundle (code : List Byte) : Nat → Nat → Option Nat
  | 0, _ => none
  | n + 1, i =>
    match decodeSlots (bundleSlots (slice code (16 * i) 16)) with
    | .ok _ => badBundle code n (i + 1)
    | .error _ => some i

/-- A symbol entry (R227). -/
def symbolOf (bs : List Byte) (off : Nat) : Symbol :=
  { sym := BitVec.ofNat 32 (rd bs off 4), kind := rd bs (off + 4) 1, writer := rd bs (off + 5) 1, width := rd bs (off + 6) 2,
    loc := BitVec.ofNat 32 (rd bs (off + 8) 4), retentive := rd bs (off + 12) 1 % 2 == 1, exchange := rd bs (off + 12) 1 / 2 % 2 == 1 }

/-- The symbol has a place in the data partition. -/
def Symbol.inData (y : Symbol) : Bool := y.kind != 3 && y.kind != 4

/-- The width of a symbol entry is outside its range under R227. -/
def Symbol.badWidth (y : Symbol) : Bool :=
  if y.kind = 2 then decide (y.width < 1) || decide (4096 < y.width)
  else if y.kind = 3 ∨ y.kind = 4 then !([1, 2, 4, 8].contains y.width)
  else y.width != 0

/-- Two of the intervals, first bit and length, have a bit in common. -/
def anyOverlap : List (Nat × Nat) → Bool
  | [] => false
  | x :: r => (r.any fun y => bitsOverlap x.1 x.2 y.1 y.2) || anyOverlap r

/-- An element occurs twice. -/
def anyTwice {α : Type} [DecidableEq α] : List α → Bool
  | [] => false
  | x :: r => r.contains x || anyTwice r

/-- Reason 0x06 of R228: the symbol table. Every symbol with a place in the data partition counts as a variable that may not overlap
another (log entry 61). -/
def badSymbols (bs : List Byte) (off : Nat) (ys : List Symbol) : Bool :=
  (ys.any fun y => y.sym == 0) || anyTwice (ys.map fun y => y.sym) ||
    (ys.any fun y => y.inData && decide (dataSize * 8 < y.bits.1 + y.bits.2)) ||
    (ys.any fun y => decide (5 ≤ y.kind) && decide (y.kind ≤ 8) && y.loc.toNat % 16 != 0) ||
    anyOverlap ((ys.filter fun y => y.inData).map Symbol.bits) ||
    (ys.any fun y => decide (y.kind < 1) || decide (9 < y.kind) || y.badWidth) ||
    ((List.range ys.length).any fun i => decide (4 ≤ rd bs (off + 32 * i + 12) 1) || !allZero (slice bs (off + 32 * i + 13) 19))

/-- The image that well-formed bytes hold. -/
def imageOf (bs : List Byte) : Image :=
  let code := rd bs 12 4
  let data := rd bs 24 4
  { id := BitVec.ofNat 64 (rd bs 16 8), code := slice bs 64 code, data := slice bs (64 + code) data,
    syms := (List.range (rd bs 28 4)).map fun i => symbolOf bs (64 + code + data + 32 * i), raw := bs.take (imageTotal bs), damaged := false }

/-- The checks of R228 that concern the image alone, in order: the reason with the bundle index, or the image. -/
def checkImage (key : Option (List Byte)) (bs : List Byte) : Except (Nat × Nat) Image :=
  if badHeader bs then .error (1, 0)
  else if badLevel bs then .error (2, 0)
  else if carriedDigest bs ≠ sha384 (digested bs) then .error (3, 0)
  else if badSignature key bs then .error (4, 0)
  else
    let i := imageOf bs
    match badBundle i.code (i.code.length / 16) 0 with
    | some b => .error (5, b)
    | none => if badSymbols bs (64 + i.code.length + i.data.length) i.syms then .error (6, 0) else .ok i

/-! ## Schedules and I/O maps as objects (R180 to R182) -/

/-- An in-area word of an entry; writer 0xFF is none. -/
def xinOf (bs : List Byte) (off : Nat) : Option XIn :=
  let w := rd bs off 4
  if w / 16777216 = 0xFF then none else some { writer := w / 16777216, area := w % 4194304 }

/-- An entry of the schedule table. -/
def taskOf (bs : List Byte) (o : Nat) : TaskEntry :=
  { task := rd bs o 1, kind := if rd bs (o + 1) 1 = 0 then .periodic else if rd bs (o + 1) 1 = 1 then .event else .error,
    priority := rd bs (o + 2) 1, engine := finOr (rd bs (o + 3) 1), entry := rd bs (o + 4) 4, period := rd bs (o + 8) 4,
    phase := rd bs (o + 12) 4, offset := rd bs (o + 16) 4, budget := rd bs (o + 20) 4,
    errorTask := if rd bs (o + 24) 1 = 0xFF then none else some (rd bs (o + 24) 1), eventSrc := rd bs (o + 25) 1,
    maxEffects := rd bs (o + 26) 2, eventArg := BitVec.ofNat 32 (rd bs (o + 28) 4), cause := rd bs (o + 32) 4, xout := rd bs (o + 36) 4,
    xsize := rd bs (o + 40) 2, tbl := rd bs (o + 42) 1 % 2 == 1,
    xin := [xinOf bs (o + 44), xinOf bs (o + 48), xinOf bs (o + 52), xinOf bs (o + 56)].filterMap id }

/-- The number of entries of a schedule table. -/
def taskCount (bs : List Byte) : Nat := rd bs 2 2

/-- The schedule that well-formed bytes hold. -/
def scheduleOf (bs : List Byte) : Schedule :=
  { align := rd bs 4 4, imageId := BitVec.ofNat 64 (rd bs 8 8), aFrames := rd bs 16 4, edges := rd bs 20 4,
    tasks := (List.range (taskCount bs)).map fun i => taskOf bs (64 + 64 * i) }

/-- An entry of the I/O map. -/
def ioEntryOf (bs : List Byte) (o : Nat) : IoEntry :=
  { point := BitVec.ofNat 32 (rd bs o 4), out := rd bs (o + 4) 1 == 1, task := rd bs (o + 5) 1, substitute := rd bs (o + 6) 1 == 1,
    width := rd bs (o + 7) 1, subst := BitVec.ofNat 64 (rd bs (o + 8) 8), symbol := BitVec.ofNat 32 (rd bs (o + 16) 4) }

/-- The I/O map that bytes hold. -/
def ioMapOf (bs : List Byte) : List IoEntry := (List.range (bs.length / 24)).map fun i => ioEntryOf bs (24 * i)

/-- A staged or applied object of a kind, for kind 3 of a ring. -/
def objOf (l : List StagedObj) (kind ring : Nat) : Option (List Byte) :=
  (l.find? fun o => o.kind == kind && (kind != 3 || o.ring == ring)).map fun o => o.bytes

/-! ## State maps (R232 to R237) -/

/-- The old task that a new task continues (R237), by the TASK entries of a switch. -/
def continues (es : List MapEntry) (t : Nat) : Nat :=
  match es.find? fun e => e.kind == 8 && e.new == t with
  | some e => e.old
  | none => t

/-- An entry of a state map (R233). -/
def mapEntryOf (bs : List Byte) (off : Nat) : MapEntry :=
  { kind := rd bs off 1, flags := rd bs (off + 1) 1, task := rd bs (off + 2) 1, old := rd bs (off + 4) 4, new := rd bs (off + 8) 4,
    arg := rd bs (off + 12) 4 }

/-- Reason 0x10 of R235: the header of a state map, or an entry of a kind that R233 does not list. -/
def badMapHeader (bs : List Byte) : Bool :=
  let n := rd bs 4 4
  let lit := rd bs 24 4
  let len := 64 + 16 * n + lit
  rd bs 0 2 != 1 || decide (262144 < n) || lit % 16 != 0 || decide (bs.length < len) ||
    rd bs 60 4 != (crc32c (bs.take 60 ++ slice bs 64 (16 * n + lit))).toNat ||
    ((List.range n).any fun i => decide (rd bs (64 + 16 * i) 1 < 1) || decide (8 < rd bs (64 + 16 * i) 1))

/-- The state map that well-formed bytes hold. -/
def mapOf (bs : List Byte) : StateMap :=
  let n := rd bs 4 4
  { oldId := BitVec.ofNat 64 (rd bs 8 8), newId := BitVec.ofNat 64 (rd bs 16 8), entries := (List.range n).map fun i => mapEntryOf bs (64 + 16 * i),
    literal := slice bs (64 + 16 * n) (rd bs 24 4), raw := bs, crc := BitVec.ofNat 32 (rd bs 60 4), len := 64 + 16 * n + rd bs 24 4 }

/-- The bits of the data partition that an entry writes (R233). -/
def MapEntry.writes (e : MapEntry) : List (Nat × Nat) :=
  match e.kind with
  | 1 => [(8 * e.new, 8 * e.arg)]
  | 2 => [(e.new, 1)]
  | 3 => [(8 * e.new, 8 * e.arg)]
  | 4 => [(8 * e.new, 128)]
  | 5 => [(e.new, 1)]
  | 6 => [(e.new, 1)]
  | _ => []

/-- The bits of the data partition that an entry reads within the switch window. -/
def MapEntry.reads (e : MapEntry) : List (Nat × Nat) :=
  match e.kind with
  | 1 => [(8 * e.old, 8 * e.arg)]
  | 2 => [(e.old, 1)]
  | 4 => if e.flags % 2 = 0 then [(8 * e.old, 128)] else []
  | _ => []

/-- Reason 0x13 of R235 for one entry. -/
def MapEntry.outside (lit : Nat) (e : MapEntry) : Bool :=
  ((e.writes ++ e.reads).any fun x => decide (dataSize * 8 < x.1 + x.2)) ||
    (e.kind == 1 && (decide (e.arg < 1) || decide (dataSize < e.arg))) ||
    (e.kind == 3 && (e.arg % 16 != 0 || decide (lit < e.old + e.arg))) ||
    (e.kind == 6 && decide (dataSize * 8 ≤ e.arg))

/-- Reason 0x14 of R235, over the entries in order, with the ranges already written. -/
def mapClash : List (Nat × Nat) → List MapEntry → Bool
  | _, [] => false
  | done, e :: r =>
    ((e.writes ++ e.reads).any fun x => done.any fun y => bitsOverlap x.1 x.2 y.1 y.2) || mapClash (done ++ e.writes) r

/-- The timer instance of an image at a data offset: its kind. -/
def Image.timerKind (i : Image) (off : Nat) : Option Nat :=
  (i.syms.find? fun y => decide (5 ≤ y.kind) && decide (y.kind ≤ 8) && y.loc.toNat == off).map fun y => y.kind

/-- Reason 0x15 of R235 for one entry. -/
def badTimer (old new : Image) (e : MapEntry) : Bool :=
  e.kind == 4 &&
    match old.timerKind e.old, new.timerKind e.new with
    | some a, some b => e.flags % 2 == 0 && a != b
    | _, _ => true

/-- The symbol of an edge memory bit at a bit address. -/
def Image.edgeAt (i : Image) (a : Nat) : Option Symbol := i.syms.find? fun y => y.kind == 9 && y.loc.toNat == a

/-- A point is an input of a task of the new schedule (R235): by the I/O map that is staged, else by the applied one, with the number of the
task that it continues; a point that the applied map does not hold yet is taken to be one (DEDUCED, log entry 138). -/
def inputOfTask (s : State) (es : List MapEntry) (point : W32) (t : Nat) : Bool :=
  match objOf s.txn.objs 2 0 with
  | some b => (ioMapOf b).any fun e => !e.out && e.point == point && e.task == t
  | none =>
    let is := s.tsk.iomap.filter fun e => !e.out && e.point == point
    is.isEmpty || is.any fun e => e.task == continues es t

/-- An EDGE entry that reason 0x16 refuses. -/
def badEdge (s : State) (new : Image) (es : List MapEntry) (e : MapEntry) : Bool :=
  (e.kind == 5 || e.kind == 6) &&
    (((new.edgeAt e.new).map fun y => y.writer == e.task) != some true ||
      !(new.syms.any fun y => y.kind == (if e.kind = 5 then 3 else 1) && y.loc.toNat == e.arg) ||
      (e.kind == 5 && !inputOfTask s es (BitVec.ofNat 32 e.arg) e.task))

/-- A new edge memory bit that no entry of the map sets (reason 0x16). -/
def unsetEdge (old new : Image) (es : List MapEntry) : Bool :=
  new.syms.any fun y =>
    y.kind == 9 && (old.find y.sym).isNone &&
      !(es.any fun e => e.kind != 4 && e.writes.any fun w => bitsOverlap w.1 w.2 y.loc.toNat 1)

/-- Reason 0x17 of R235. -/
def badSymbolMap (old new : Image) (es : List MapEntry) : Bool :=
  let ss := es.filter fun e => e.kind == 7
  anyTwice (ss.map fun e => e.old) ||
    ss.any fun e =>
      match old.find (BitVec.ofNat 32 e.old), new.find (BitVec.ofNat 32 e.new) with
      | some a, some b => a.kind != b.kind || a.width != b.width
      | _, _ => true

/-- A task of the new schedule is known: the staged schedule holds it, or none is staged yet and its number is at most 255 (DEDUCED, log entry
138). -/
def knownTask (s : State) (t : Nat) : Bool :=
  match objOf s.txn.objs 1 0 with
  | some b => (scheduleOf b).tasks.any fun e => e.task == t
  | none => decide (t ≤ 255)

/-- Reason 0x18 of R235: an old task that the applied schedule does not hold, or an unknown new one. -/
def badTaskMap (s : State) (es : List MapEntry) : Bool :=
  let ts := es.filter fun e => e.kind == 8
  anyTwice (ts.map fun e => e.old) || anyTwice (ts.map fun e => e.new) ||
    ts.any fun e => !knownTask s e.new || (taskEntry s e.old).isNone

/-- The bank that holds an image in a state that takes a map (R235). -/
def mapBank (s : State) (id : W64) : Option (Fin 2) :=
  (allFin 2).find? fun b =>
    ((s.prg.banks.get b).state == .loaded || (s.prg.banks.get b).state == .retained) &&
      ((s.prg.banks.get b).image.map fun i => i.id) == some id

/-- The image of a bank. -/
def bankImage (s : State) (b : Fin 2) : Option Image := (s.prg.banks.get b).image

/-- The checks of R235 after reason 0x11, on the two images. -/
def checkEntries (s : State) (m : StateMap) (old new : Image) : Option Nat :=
  if imageMax < new.code.length + m.len then some 0x12
  else if m.entries.any fun e => e.outside m.literal.length then some 0x13
  else if mapClash [] m.entries then some 0x14
  else if m.entries.any fun e => badTimer old new e then some 0x15
  else if (m.entries.any fun e => badEdge s new m.entries e) || unsetEdge old new m.entries then some 0x16
  else if badSymbolMap old new m.entries then some 0x17
  else if badTaskMap s m.entries then some 0x18
  else none

/-- The checks of R235: the reason, or the map and its bank. -/
def checkMap (s : State) (bs : List Byte) : Except Nat (StateMap × Fin 2) :=
  if badMapHeader bs then .error 0x10
  else
    let m := mapOf bs
    match activeImage s, mapBank s m.newId with
    | some old, some b =>
      if old.id ≠ m.oldId then .error 0x11
      else
        match bankImage s b with
        | some new =>
          match checkEntries s m old new with
          | some r => .error r
          | none => .ok (m, b)
        | none => .error 0x11
    | _, _ => .error 0x11

/-- The lane cycles of an entry in the switch window (R233). -/
def MapEntry.cycles (e : MapEntry) : Nat :=
  match e.kind with
  | 1 => 5 + (e.arg + 15) / 16
  | 2 => 4
  | 3 => 4 + e.arg / 16
  | 4 => 4
  | _ => 0

/-- The switch window W of a map in ns (R239). -/
def windowNs (m : StateMap) : Nat :=
  roundUp (20000 + ((m.entries.map MapEntry.cycles).sum * 1000 + 959) / 960) 1000

/-- The window of a switch to a bank: zero on a STOPPED module (R239, R246). -/
def switchWindow (s : State) (b : Fin 2) : Nat :=
  if runsProgram s then ((s.prg.banks.get b).map.map windowNs).getD 0 else 0

end Sys2Proof.Machine
end

