-- ==== Sys2Proof/Machine/Program.lean ====
section
/-! DEFINITION. Loading, keeping and switching programs (R222 to R263). -/

namespace Sys2Proof.Machine

/-- Change one program bank. -/
def modBank (b : Fin 2) (f : Bank → Bank) (s : State) : State := s.modPrg fun p => { p with banks := vmod p.banks b f }

/-- A program bank. -/
def bankOf (s : State) (b : Fin 2) : Bank := s.prg.banks.get b

/-- A lane is being resynchronised. -/
def resyncing (s : State) : Bool := (allFin 3).any fun l => (s.lanes.get l).state == .resync

/-! ## Ownership of the transaction (R432) -/

/-- The ring pair may use a transaction opcode: it owns the open transaction, which is not past its APPLY. -/
def ownsTxn (s : State) (q : RingId) : Bool := (s.txn.phase == .opened || s.txn.phase == .checked) && s.txn.owner == q

/-! ## PRG_LOAD and PRG_MAP_LOAD (R230, R235) -/

/-- The bytes of an image into a bank (R228, R230): the outcome, with the bank LOADED on success. Where a lane in `differ` reads back
another code the bank stays EMPTY and the load fails, with a status that the spec does not give: a free value among the failing
codes of R423 (log entry 119). -/
def loadBank (b : Nat) (bs : List Byte) (differ : List LaneId) (s : State) : State × Done :=
  match checkImage s.prg.key bs with
  | .error (r, at_) => (s, doneWith stRefused (r + at_ * 256))
  | .ok i =>
    match fin? 2 b with
    | none => (s, doneWith stNotFound 0)
    | some b =>
      if (bankOf s b).state ≠ .empty then (s, doneRefused 7 0 0 0)
      else if resyncing s then (s, doneRefused 8 0 0 0)
      else if (lanesIn s).any fun l => differ.contains l then ((freeValue s).2, doneWith (BitVec.ofNat 8 (2 + (freeValue s).1.toNat % 16)) 0)
      else (modBank b (fun _ => { state := .loaded, image := some i, map := none }) s, doneOk (fields [(8, i.id.toNat)]))

/-- PRG_LOAD. -/
def doPrgLoad (dma : List Byte) (differ : List LaneId) (e : Outst) (s : State) : State × Done :=
  loadBank (e.desc.par 24 1) (bufRead e.desc dma s) differ s

/-- PRG_LOAD (R230): in a pair it completes when both banks hold the image (R384). -/
def execPrgLoad (q : RingId) (x : LoadData) (s : State) : Host.Outcome State Fault Refusal :=
  ok (serveThenMirror q 0x20 (fun e s => .image (e.desc.par 24 1) (bufRead e.desc x.bytes s)) (doPrgLoad x.bytes x.differ) s)

/-- A state map into the bank that holds NEW_ID (R235). -/
def loadMap (bs : List Byte) (s : State) : State × Done :=
  match checkMap s bs with
  | .error r => (s, doneRefused r 0 0 0)
  | .ok (m, b) => (modBank b (fun x => { x with state := .mapped, map := some m }) s, doneOk (fields [(1, b.val)]))

/-- PRG_MAP_LOAD. -/
def doPrgMapLoad (dma : List Byte) (e : Outst) (s : State) : State × Done := loadMap (bufRead e.desc dma s) s

/-- PRG_MAP_LOAD (R235): in a pair it completes when both banks hold the map (R384). -/
def execPrgMapLoad (q : RingId) (dma : List Byte) (s : State) : Host.Outcome State Fault Refusal :=
  let target (e : Outst) (s : State) : MirrorItem :=
    let bs := bufRead e.desc dma s
    .map (((mapBank s (BitVec.ofNat 64 (rd bs 16 8))).map fun b => b.val).getD 2) bs
  ok (serveThenMirror q 0x21 target (doPrgMapLoad dma) s)

/-! ## PRG_SWITCH_STAGE, PRG_RELEASE, PRG_STATUS (R238, R259, R262, R263) -/

/-- The release CT of a periodic task of the applied schedule with a cycle number (R176, R177, R238). -/
def cycleCt (s : State) (task cycle : Nat) : Option Nat :=
  match taskEntry s task with
  | some e =>
    let x := taskRun s task
    if e.kind = .periodic ∧ x.k0 ≤ cycle then some (s.tsk.anchor + e.phase * 1000 + (x.first + (cycle - x.k0)) * (e.period * 1000))
    else none
  | none => none

/-- X as a descriptor gives it: a chip time, or the release of a task with a cycle number. -/
def namedInstant (s : State) (mode task value : Nat) : Option Nat :=
  match mode with
  | 0 => some value
  | 1 => cycleCt s task value
  | _ => none

/-- Stage a switch in the open transaction: it is unchecked from then on (R238, R434). -/
def stageSwitch (bank x : Nat) (s : State) : State :=
  s.modTxn fun t => { t with phase := .opened, switch := some { bank := bank, x := x }, lastOpAt := s.clk.now }

/-- PRG_SWITCH_STAGE. -/
def doPrgSwitchStage (q : RingId) (e : Outst) (s : State) : State × Work :=
  if !ownsTxn s q then (s, .finish (doneWith stTxnConflict 0))
  else if 1 < e.desc.par 25 1 then (s, .finish (doneWith stBadDescriptor 0))
  else
    match fin? 2 (e.desc.par 24 1), namedInstant s (e.desc.par 25 1) (e.desc.par 26 1) (e.desc.par 32 8) with
    | some b, some x => (mirror (.txnSwitch b.val x) (stageSwitch b.val x s), .finish (doneOk (fields [(8, x)])))
    | _, _ => (s, .finish (doneWith stNotFound 0))

/-- PRG_SWITCH_STAGE (R238). -/
def execPrgSwitchStage (q : RingId) (s : State) : Host.Outcome State Fault Refusal :=
  ok (serve q 0x22 s (doPrgSwitchStage q))

/-- The bank may not be released (R259). -/
def bankHeld (s : State) (b : Fin 2) : Bool :=
  (s.txn.phase != .none && (s.txn.switch.map fun w => w.bank == b.val) == some true) ||
    match (bankOf s b).state with
    | .loaded => false
    | .mapped => false
    | .retained => false
    | _ => true

/-- PRG_RELEASE. -/
def doPrgRelease (e : Outst) (s : State) : State × Work :=
  match fin? 2 (e.desc.par 24 1) with
  | none => (s, .finish (doneWith stNotFound 0))
  | some b =>
    if bankHeld s b then (s, .finish (doneWith stBadState 0))
    else (modBank b (fun _ => { state := .empty, image := none, map := none }) s, .finish (doneOk []))

/-- PRG_RELEASE (R259). -/
def execPrgRelease (q : RingId) (s : State) : Host.Outcome State Fault Refusal := ok (serve q 0x23 s doPrgRelease)

/-- The ACTIVE bank. -/
def activeBank (s : State) : Option (Fin 2) := (allFin 2).find? fun b => (bankOf s b).state == .active

/-- IMAGE_ID of a bank as the registers report it. -/
def bankId (s : State) (b : Fin 2) : Nat :=
  match (bankOf s b).state with
  | .empty => 0
  | .loading => 0
  | _ => ((bankImage s b).map fun i => i.id.toNat).getD 0

/-- W in ns and the commit point of the staged or committed switch (R239, R263). -/
def stagedWindow (s : State) : Nat × Nat :=
  match s.prg.sw, s.txn.switch with
  | some w, _ => (w.w, w.x - w.w)
  | none, some w => let n := switchWindow s (finOr w.bank); (n, w.x - n)
  | none, none => (0, 0)

/-- PRG_STATUS. -/
def doPrgStatus (e : Outst) (s : State) : State × Work :=
  let fit := s.prg.dropped.take (e.desc.len / 4)
  let w := stagedWindow s
  (bufWrite e.desc 0 (fit.flatMap fun y => leBytes 4 y.toNat) s,
    .finish (doneOk (fields [(1, (bankOf s 0).state.code), (1, (bankOf s 1).state.code), (1, ((activeBank s).map fun b => b.val).getD 0xFF),
      (1, min 255 s.prg.dropped.length), (4, w.1 / 1000), (8, bankId s 0), (8, bankId s 1), (8, w.2)])))

/-- PRG_STATUS (R262). -/
def execPrgStatus (q : RingId) (s : State) : Host.Outcome State Fault Refusal := ok (serve q 0x24 s doPrgStatus)

/-! ## PRG_SAVE and PRG_KEY_SET (R229, R260) -/

/-- The page at which a program image slot begins (R44). -/
def slotPage (slot : Nat) : Nat := slot * 16384

/-- Queue the pages of an image, one behind the other. -/
def queueImage (q : RingId) (num slot : Nat) (setActive : Bool) (bodies : List (List Byte)) (s : State) : State :=
  (bodies.zipIdx).foldl (fun s x =>
    mirror (.storePage (slotPage slot + x.2) x.1)
      (queuePage 6 (slotPage slot + x.2) x.1 (.prgSave q num slot setActive (decide (x.2 + 1 = bodies.length))) s)) s

/-- PRG_SAVE. -/
def doPrgSave (q : RingId) (e : Outst) (s : State) : State × Work :=
  match fin? 2 (e.desc.par 24 1), fin? 2 (e.desc.par 25 1) with
  | some b, some slot =>
    match bankImage s b with
    | none => (s, .finish (doneWith stBadState 0))
    | some i =>
      let (good, s1) := checkPwd 0 true (slice e.desc.param 16 16) s
      if good && i.damaged then (s1, .finish (doneWith stMediaError 0))
      else if good then
        (queueImage q e.num slot.val (e.desc.par 26 1 == 1) (pagesOf (i.raw.length / 256 + 1) i.raw) s1, .wait e.bound)
      else (s1, .finish (doneWith stAccessDenied 0))
  | _, _ => (s, .finish (doneWith stNotFound 0))

/-- PRG_SAVE (R260): the pages are written by PAGE_WRITE. -/
def execPrgSave (q : RingId) (s : State) : Host.Outcome State Fault Refusal := ok (serve q 0x25 s (doPrgSave q))

/-- The page of the program-signing key (R517). -/
def keyPage : Nat := 0xE045

/-- The body of that page: whether a key is installed, and the key (log entry 20). -/
def keyBody (k : Option (List Byte)) : List Byte :=
  match k with
  | some p => 1 :: fitTo 97 p
  | none => [0]

/-- PRG_KEY_SET: a key is installed only where none is, and replaced or removed only with the write password. -/
def doPrgKeySet (q : RingId) (dma : List Byte) (e : Outst) (s : State) : State × Work :=
  let act := e.desc.par 24 1
  if 2 < act ∨ e.desc.len ≠ (if act = 2 then 0 else 104) then (s, .finish (doneWith stBadDescriptor 0))
  else if s.prg.key.isSome = decide (act = 0) then (s, .finish (doneWith stBadState 0))
  else
    let (good, s1) := if act = 0 then (true, s) else checkPwd 2 true (slice e.desc.param 16 16) s
    if good then
      let k := if act = 2 then none else some ((bufRead e.desc dma s).take 97)
      (mirror (.storePage keyPage (keyBody k)) (queuePage 4 keyPage (keyBody k) (.keySet q e.num k) s1), .wait e.bound)
    else (s1, .finish (doneWith stAccessDenied 0))

/-- PRG_KEY_SET (R229). -/
def execPrgKeySet (q : RingId) (dma : List Byte) (s : State) : Host.Outcome State Fault Refusal := ok (serve q 0x26 s (doPrgKeySet q dma))

/-! ## The switch (R243 to R253) -/

/-- Apply one entry of a map to a data partition, past the force filter (R233, R234, R243). -/
def MapEntry.apply (lit : List Byte) (m : Memory) (e : MapEntry) : Memory :=
  match e.kind with
  | 1 => dataWrite m e.new (memRead m (dataBase + e.old) e.arg)
  | 2 => writeBit [] m e.new (dataBit m e.old)
  | 3 => dataWrite m e.new (slice lit e.old e.arg)
  | 4 => dataWrite m e.new (if e.flags % 2 = 0 then memRead m (dataBase + e.old) 16 else List.replicate 16 0)
  | _ => m

/-- The context of a task at the switch (R247): as after reset, but for G1 to G63 where the map carries them. -/
def switchCtx (es : List MapEntry) (v : Vector Ctx 256) (t : Nat) : Ctx :=
  match es.find? fun e => e.kind == 8 && e.new == t && e.flags % 2 == 1 with
  | some e => { Ctx.reset with g := (v.get (finOr e.old)).g }
  | none => Ctx.reset

/-- A lane applies the map and resets its contexts (R243, R247). -/
def switchLane (m : StateMap) (x : Lane) : Lane :=
  { x with mem := m.entries.foldl (fun w e => e.apply m.literal w) x.mem, ctx := Vector.ofFn fun t : Fin 256 => switchCtx m.entries x.ctx t.val }

/-- A release of the old schedule still runs in a lane at the commit point: a fault of that lane (R243, R254). -/
def confirmQuiet (s : State) : State :=
  (lanesIn s).foldl (fun s l =>
    match s.tsk.rels.find? fun r => r.lanes.get l && !r.ended.get l with
    | some r => judgeAll (laneFault 0x0108 r.task l (det [(1, r.task), (3, 0), (4, r.cycle % 4294967296)]) s)
    | none => s) s

/-- The map that a switch applies: that of the bank, none on a STOPPED module (R246). -/
def switchMapOf (s : State) (b : Fin 2) : StateMap :=
  let empty : StateMap := { oldId := 0, newId := 0, entries := [], literal := [], raw := [], crc := 0, len := 0 }
  if runsProgram s then (bankOf s b).map.getD empty else empty

/-- SWITCH_COMMIT (R243): at the commit point of a committed switch. -/
def execSwitchCommit (s : State) : Host.Outcome State Fault Refusal :=
  match s.prg.sw with
  | some w =>
    if !w.done && decide (w.x ≤ s.clk.ct + w.w) then
      let s1 := confirmQuiet (modBank w.bank (fun b => { b with state := .switching }) s)
      let s2 := s1.modPrg fun p => { p with sw := some { w with done := true }, fetch := w.bank }
      let m : StateMap := switchMapOf s w.bank
      let s3 := (lanesIn s2).foldl (fun s l => modLane l (switchLane m) s) s2
      ok (s3.modPrg fun p => { p with edges := m.entries.filter fun e => e.kind == 5 || e.kind == 6 })
    else ok s
  | none => ok s

/-- The new symbol that an old one corresponds to (R236). -/
def corresponds (es : List MapEntry) (old new : Option Image) (sym : W32) : Option W32 :=
  match es.find? fun e => e.kind == 7 && e.old == sym.toNat with
  | some e => some (BitVec.ofNat 32 e.new)
  | none =>
    match old.bind fun i => i.find sym, new.bind fun i => i.find sym with
    | some a, some b => if a.kind = b.kind ∧ a.width = b.width then some sym else none
    | _, _ => none

/-- A force on its new symbol. -/
def Force.rebind (f : W32 → Option W32) (x : Force) : Option Force := (f x.sym).map fun y => { x with sym := y }

/-- A force change on its new symbol. -/
def ForceChange.rebind (f : W32 → Option W32) (c : ForceChange) : Option ForceChange :=
  match c.act with
  | .set x => (x.rebind f).map fun y => { c with act := .set y }
  | .clear sym => some { c with act := .clear ((f sym).getD sym) }
  | .clearAll => some c

/-- Rebind the force table (R250): the forces dropped are recorded, listed and counted. -/
def rebindForces (f : W32 → Option W32) (s : State) : State :=
  let lost := (((s.tsk.forces ++ s.tsk.planned).filter fun x => (f x.sym).isNone).map fun x => x.sym).dedup
  let gone := s.tsk.changes.filter fun c => (c.rebind f).isNone
  let s1 := s.modTsk fun k =>
    { k with forces := k.forces.filterMap (Force.rebind f), planned := k.planned.filterMap (Force.rebind f),
             changes := k.changes.filterMap (ForceChange.rebind f) }
  let s2 := lost.foldl (fun s y => eventFree (det [(4, y.toNat)]) s) (s1.modPrg fun p => { p with dropped := lost })
  gone.foldl (fun s c => endDesc c.ring c.num (doneWith stNotFound 0) s) s2

/-- Rebind the pending host writes (R252): a write to a symbol that no longer exists ends with NOT_FOUND. -/
def rebindWrites (f : W32 → Option W32) (s : State) : State :=
  let ok_ (w : VarWrite) : Bool := w.items.all fun i => i.written || (f i.sym).isSome
  let gone := s.tsk.writes.filter fun w => !ok_ w
  let s1 := s.modTsk fun k =>
    { k with writes := (k.writes.filter ok_).map fun w => { w with items := w.items.map fun i => { i with sym := (f i.sym).getD i.sym } } }
  gone.foldl (fun s w => endDesc w.ring w.num (doneWith stNotFound 0) s) s1

/-- A symbol that is still to be read, across a switch at X: under its new identifier, from a release at or after X; one that has no new
symbol is not found (R215, R252). -/
def VarGet.rebind (f : W32 → Option W32) (x : Nat) (g : VarGet) : VarGet :=
  match g.entry, f g.sym with
  | some _, _ => g
  | none, some y => { sym := y, after := x, entry := none }
  | none, none => { g with entry := some (noEntry g.sym 1) }

/-- Rebind the pending reads (R252). -/
def rebindReads (f : W32 → Option W32) (x : Nat) (s : State) : State :=
  s.modTsk fun k => { k with reads := k.reads.map fun r => { r with gets := r.gets.map (VarGet.rebind f x) } }

/-- Class 0x070B: the retentive symbols of the active image need more than the retentive area (R527). -/
def retentiveFits (s : State) : State :=
  match activeImage s with
  | some i => if 32768 < i.retNeed then event 0x070B (det [(4, i.retNeed)]) s else s
  | none => s

/-- The banks at X (R243, R246): the old bank RETAINED, the new one ACTIVE without its map. -/
def swapBanks (b : Fin 2) (s : State) : State :=
  s.modPrg fun p =>
    { p with
      banks := Vector.ofFn fun i : Fin 2 =>
        let x := p.banks.get i
        if i = b then { x with state := .active, map := none }
        else if x.state = .active then { x with state := .retained } else x,
      fetch := b }

/-- The switch instant of a committed switch (R243, R244, R250 to R253). -/
def switchNow (w : SwitchRun) (s : State) : State :=
  let old := activeImage s
  let es := (switchMapOf s w.bank).entries
  let f := corresponds es old (bankImage s w.bank)
  let s1 := swapBanks w.bank s
  let s2 := rebindReads f w.x (rebindWrites f (rebindForces f s1))
  let s3 := if runsProgram s then shadowCopyAll s2 else s2
  retentiveFits (s3.modPrg fun p => { p with sw := none, entries := es, lastX := w.x, switches := satInc p.switches 1 })

/-- SWITCH_INSTANT (R243, R244): X of a committed switch whose window is over. -/
def execSwitchInstant (s : State) : Host.Outcome State Fault Refusal :=
  match s.prg.sw with
  | some w => if w.done && decide (w.x ≤ s.clk.ct) then ok (switchNow w s) else ok s
  | none => ok s

end Sys2Proof.Machine
end

