-- ==== Sys2Proof/Machine/Settings.lean ====
section
/-! DEFINITION. The registers with RWS fields: their values in force, what a staged word changes, and the ranges of CHECK (R13, R434, R436, R660). -/

namespace Sys2Proof.Machine

/-- The offset of a register of metering point `p`. -/
def mtrOff (p r : Nat) : Nat := 0x51000 + 0x100 * p + r

/-- The offsets of the registers that hold an RWS field, ascending. -/
def rwsOffsets : List Nat :=
  [0x400C, 0x4024, 0x4028, 0x402C] ++ ((List.range 8).map fun m => 0x7020 + 4 * m) ++ [0x10004, 0x20000, 0x20004, 0x50000] ++
    ((List.range 8).flatMap fun p => [mtrOff p 0, mtrOff p 4, mtrOff p 8]) ++ [0x80004]

/-- The bits of a register that are RWS and not reserved. -/
def rwsMask (off : Nat) : W32 :=
  if off = 0x400C then 0x3F
  else if off = 0x4024 then 0xFF0FFFFF
  else if off = 0x4028 then 0x3FF
  else if off = 0x402C then 0xFFF
  else if off = 0x10004 then 0x1FF01
  else if off = 0x20000 then 0xF
  else if off = 0x80004 then 0x3E
  else if 0x51000 ≤ off then
    (if off % 256 = 0 then 0xFFFF001F
     else if off % 256 = 8 ∧ mtrOff 2 0 ≤ off then 0xFFFF
     else 0xFFFFFFFF)
  else 0xFFFFFFFF

/-- The value in force of a register with RWS fields. -/
def rwsWord (r : Rws) (off : Nat) : W32 :=
  if off = 0x400C then r.timCtrl
  else if off = 0x4024 then r.timPtpCfg
  else if off = 0x4028 then r.timPortEn
  else if off = 0x402C then r.timHoldover
  else if off = 0x10004 then r.votCfg
  else if off = 0x20000 then r.netCtrl
  else if off = 0x20004 then r.netSeed
  else if off = 0x50000 then r.mtrPqCfg
  else if off = 0x80004 then r.cmtFilter
  else if off < 0x10000 then r.wdgTaskEn.get (finOr ((off - 0x7020) / 4))
  else
    let p : Fin 8 := finOr ((off - 0x51000) / 256)
    if off % 256 = 0 then r.mtrCfg.get p else if off % 256 = 4 then r.mtrScale.get p else r.mtrLimit.get p

/-- A word takes effect in a register with RWS fields; its reserved bits have no effect (R11). -/
def rwsPut (r : Rws) (off : Nat) (w : W32) : Rws :=
  let v := (w &&& rwsMask off) ||| (rwsWord r off &&& ~~~ rwsMask off)
  if off = 0x400C then { r with timCtrl := v }
  else if off = 0x4024 then { r with timPtpCfg := v }
  else if off = 0x4028 then { r with timPortEn := v }
  else if off = 0x402C then { r with timHoldover := v }
  else if off = 0x10004 then { r with votCfg := v }
  else if off = 0x20000 then { r with netCtrl := v }
  else if off = 0x20004 then { r with netSeed := v }
  else if off = 0x50000 then { r with mtrPqCfg := v }
  else if off = 0x80004 then { r with cmtFilter := v }
  else if off < 0x10000 then { r with wdgTaskEn := vmod r.wdgTaskEn (finOr ((off - 0x7020) / 4)) fun _ => v }
  else
    let p : Fin 8 := finOr ((off - 0x51000) / 256)
    if off % 256 = 0 then { r with mtrCfg := vmod r.mtrCfg p fun _ => v }
    else if off % 256 = 4 then { r with mtrScale := vmod r.mtrScale p fun _ => v }
    else { r with mtrLimit := vmod r.mtrLimit p fun _ => v }

/-- Bits `lo` up of a word, `n` of them, as a number. -/
def bitsOf (w : W32) (lo n : Nat) : Nat := w.toNat / 2 ^ lo % 2 ^ n

/-- `x` lies outside `lo` to `hi`. -/
def outRange (lo hi x : Nat) : Bool := decide (x < lo) || decide (hi < x)

/-- A value that CHECK refuses with reason 0x63 because a field lies outside its range (R436). -/
def rwsBad (off : Nat) (w : W32) : Bool :=
  if off = 0x400C then decide (10 ≤ bitsOf w 2 4) && decide (bitsOf w 2 4 ≤ 14)
  else if off = 0x4024 then decide (127 < bitsOf w 24 8) || (decide (bitsOf w 16 4 < 9) && bitsOf w 16 4 != 0)
  else if off = 0x402C then outRange 1 3600 (bitsOf w 0 12)
  else if off = 0x10004 then outRange 1 72 (bitsOf w 8 8)
  else if off = 0x50000 then
    outRange 1 10 (bitsOf w 24 8) || outRange 1 50 (bitsOf w 16 8) || outRange 101 200 (bitsOf w 8 8) || outRange 50 99 (bitsOf w 0 8)
  else if 0x51000 ≤ off then
    (if off % 256 = 0 then decide (4 < bitsOf w 0 3)
     else if off % 256 = 8 then outRange 10 1000 (bitsOf w 0 16)
     else false)
  else false

/-- The staged words applied in their order (R434). -/
def rwsAfter (r : Rws) (staged : List (Nat × W32)) : Rws := staged.foldl (fun r x => rwsPut r x.1 x.2) r

/-- Every register with RWS fields: offset and the fields in force, reserved bits zero (R660). -/
def rwsList (r : Rws) : List (Nat × W32) := rwsOffsets.map fun o => (o, rwsWord r o &&& rwsMask o)

/-- A metering point whose mode is not 0 has a full scale of 0 (reason 0x63). -/
def scaleMissing (r : Rws) : Bool :=
  (allFin 8).any fun p =>
    bitsOf (r.mtrCfg.get p) 0 3 != 0 && (bitsOf (r.mtrScale.get p) 0 16 == 0 || bitsOf (r.mtrScale.get p) 16 16 == 0)

end Sys2Proof.Machine
end

