-- ==== Sys2Proof/Machine/Check.lean ====
section
/-! DEFINITION. The staged objects of a configuration transaction, and CHECK (R41, R42, R81, R157, R164, R180 to R185, R240, R343 to R346,
R381, R433, R435, R436, R447 to R449, R578). -/

namespace Sys2Proof.Machine

/-- A refusal: reason, task, ring, lane or channel, station, partition or sub-reason, and staged kind, packed as R423 lays
DETAIL out. -/
def rej (reason who sub kind : Nat) : Option Nat := some (reason + who * 256 + sub * 65536 + kind * 16777216)

/-- The first refusal of a list of tests. -/
def firstRefusal : List (Option Nat) → Option Nat
  | [] => none
  | some r :: _ => some r
  | none :: t => firstRefusal t

/-- Refuse where a test holds. -/
def refuseIf (b : Bool) (reason who sub kind : Nat) : Option Nat := if b then rej reason who sub kind else none

/-! ## The schedule table (R180, R181) -/

/-- Numbers in strictly ascending order. -/
def ascending : List Nat → Bool
  | [] => true
  | [_] => true
  | a :: b :: r => decide (a < b) && ascending (b :: r)

/-- Reason 0x01 of R185. -/
def badTable (bs : List Byte) : Bool :=
  let n := taskCount bs
  rd bs 0 2 != 1 || outRange 1 256 n || outRange 1 1000000 (rd bs 4 4) || bs.length != 64 + 64 * n ||
    rd bs 60 4 != (crc32c (bs.take 60 ++ bs.drop 64)).toNat || !ascending ((scheduleOf bs).tasks.map fun t => t.task)

/-- EVENT_ARG fits EVENT_SRC (R181). -/
def eventArgFits (src arg : Nat) : Bool :=
  if src ≤ 3 then
    addrLegal (BitVec.ofNat 32 arg) && addrRing (BitVec.ofNat 32 arg) == 15 && addrModule (BitVec.ofNat 32 arg) == 0 &&
      decide (addrPoint (BitVec.ofNat 32 arg) < 32)
  else if src = 4 then decide (0 < arg) && decide (arg < 65536)
  else arg == 0

/-- The fields that a periodic and an event entry share lie within R181. -/
def commonFields (bs : List Byte) (o : Nat) (t : TaskEntry) : Bool :=
  decide (t.priority ≤ 31) && !outRange 100 10000000 t.period && !outRange 1 (min (t.period * 1000) 4294967295) t.offset &&
    t.cause == 0 && t.xout % 16 == 0 && (t.xsize == 0 || (!outRange 16 4096 t.xsize && t.xsize % 16 == 0)) &&
    ([44, 48, 52, 56].all fun k => rd bs (o + k) 4 / 4194304 % 4 == 0 && rd bs (o + k) 4 % 16 == 0)

/-- An entry has every field within its range under R181. -/
def entryFits (bs : List Byte) (o : Nat) : Bool :=
  let t := taskOf bs o
  decide (rd bs (o + 1) 1 ≤ 2) && decide (rd bs (o + 3) 1 ≤ 3) && decide (1 ≤ t.budget) && decide (rd bs (o + 42) 1 ≤ 1) &&
    rd bs (o + 43) 1 == 0 && rd bs (o + 60) 4 == 0 &&
    match t.kind with
    | .periodic => commonFields bs o t && decide (t.phase < t.period) && t.eventSrc == 0 && t.eventArg == 0
    | .event => commonFields bs o t && t.phase == 0 && !outRange 1 5 t.eventSrc && eventArgFits t.eventSrc t.eventArg.toNat
    | .error =>
      t.priority == 0 && t.period == 0 && t.phase == 0 && t.offset == 0 && t.errorTask.isNone && t.eventSrc == 0 && t.maxEffects == 0 &&
        t.eventArg == 0 && t.cause % 32 == 0 && t.xout == 0 && t.xsize == 0 && ([44, 48, 52, 56].all fun k => rd bs (o + k) 4 == 0xFF000000)

/-- An entry of a schedule by its task number. -/
def Schedule.find (k : Schedule) (t : Nat) : Option TaskEntry := k.tasks.find? fun e => e.task == t

/-- The periodic and event tasks. -/
def Schedule.released (k : Schedule) : List TaskEntry := k.tasks.filter fun e => e.kind != .error

/-- The first task for which a test holds. -/
def firstTask (ts : List TaskEntry) (p : TaskEntry → Bool) (reason kind : Nat) : Option Nat :=
  match ts.find? p with
  | some t => rej reason t.task 0 kind
  | none => none

/-- Refuse where a test on the entries in their order first fails, for the entry at which it does. -/
def firstPrefix (p : List TaskEntry → Bool) (reason kind : Nat) : List TaskEntry → List TaskEntry → Option Nat
  | _, [] => none
  | done, t :: r => if p (done ++ [t]) then rej reason t.task 0 kind else firstPrefix p reason kind (done ++ [t]) r

/-- An ERROR_TASK that breaks reason 0x05 of R185, among the entries up to the last of the list. -/
def badErrorTask (k : Schedule) (ts : List TaskEntry) : Bool :=
  match ts.getLast? with
  | some t =>
    match t.kind, t.errorTask with
    | .error, _ => false
    | _, none => false
    | _, some n =>
      match k.find n with
      | some x => x.kind != .error || x.engine != t.engine || decide (1 < (ts.filter fun o => o.errorTask == some n).length)
      | none => true
  | none => false

/-- An error-task entry that no ERROR_TASK names. -/
def unnamedError (k : Schedule) (t : TaskEntry) : Bool := t.kind == .error && !(k.tasks.any fun o => o.errorTask == some t.task)

/-- The exchange slots of a writer hold an exchange variable whole (reason 0x07 of R185). -/
def exchangeFits (k : Schedule) (y : Symbol) : Bool :=
  match k.find y.writer with
  | some w =>
    let a := y.bits.1 / 8
    let b := (y.bits.1 + y.bits.2 + 7) / 8
    decide (w.xout ≤ a) && decide (b ≤ w.xout + w.xsize)
  | none => false

/-- The areas of the data partition that a schedule names: CAUSE, XOUT and XIN. -/
def areasOf (k : Schedule) (t : TaskEntry) : List (Nat × Nat) :=
  (match t.kind with
    | .error => [(t.cause, 32)]
    | _ => []) ++
    (if t.xsize = 0 then [] else [(t.xout, 3 * t.xsize)]) ++ t.xin.map fun x => (x.area, 16 + ((k.find x.writer).map fun w => w.xsize).getD 0)

/-- The structural tests of a staged schedule against an image: reasons 0x01 to 0x08 of R185. -/
def checkSchedule (img : Option Image) (bs : List Byte) : Option Nat :=
  if badTable bs then rej 1 0 0 1
  else
    let k := scheduleOf bs
    match img with
    | none => rej 2 0 0 1
    | some i =>
      firstRefusal
        [refuseIf (k.imageId != i.id) 2 0 0 1,
         refuseIf (!allZero (slice bs 24 36)) 3 0 0 1,
         (match (List.range (taskCount bs)).find? fun n => !entryFits bs (64 + 64 * n) with
          | some n => rej 3 (rd bs (64 + 64 * n) 1) 0 1
          | none => none),
         firstTask k.tasks (fun t => decide (i.code.length / 16 ≤ t.entry)) 4 1,
         firstPrefix (badErrorTask k) 5 1 [] k.tasks,
         firstTask k.tasks (unnamedError k) 5 1,
         firstPrefix (fun ts => (allFin 4).any fun e => decide (64 < (ts.filter fun t => t.engine == e).length)) 6 1 [] k.tasks,
         firstTask k.tasks (fun t => t.xin.any fun x => ((k.find x.writer).map fun w => w.xsize).getD 0 == 0) 7 1,
         (match i.syms.find? fun y => y.exchange && !exchangeFits k y with
          | some y => rej 7 y.writer 0 1
          | none => none),
         firstPrefix (fun ts => decide (524288 < (ts.map fun t => 3 * t.xsize).sum)) 7 1 [] k.tasks,
         firstPrefix (fun ts =>
           let areas := ts.flatMap (areasOf k)
           (areas.any fun x => decide (dataSize < x.1 + x.2)) || anyOverlap areas) 8 1 [] k.tasks]

/-! ## The I/O map (R182, R183, R447) -/

/-- The bytes of an entry lie within R182. -/
def ioEntryFits (bs : List Byte) (o : Nat) : Bool :=
  decide (rd bs (o + 4) 1 ≤ 1) && decide (rd bs (o + 6) 1 ≤ rd bs (o + 4) 1) && [0, 1, 2, 4, 8].contains (rd bs (o + 7) 1) && rd bs (o + 20) 4 == 0

/-- An entry agrees with the symbol table of the image (reason 0x09 of R185). -/
def symbolFits (img : Option Image) (e : IoEntry) : Bool :=
  match img.bind fun i => i.find e.symbol with
  | some y => y.kind == (if e.out then 4 else 3) && y.loc == e.point
  | none => false

/-- The task of an entry is a periodic or event task of the schedule (R183). -/
def ioTaskFits (k : Schedule) (e : IoEntry) : Bool := ((k.find e.task).map fun t => t.kind != .error) == some true

/-- The task of the first entry whose key an earlier entry has (R185: the task number concerned). -/
def repeated {α : Type} [DecidableEq α] (key : IoEntry → α) : List IoEntry → List α → Option Nat
  | [], _ => none
  | e :: l, seen => if seen.contains (key e) then some e.task else repeated key l (key e :: seen)

/-- The I/O map against the schedule and the image: reason 0x09 of R185. -/
def checkIoMap (img : Option Image) (k : Schedule) (m : List IoEntry) : Option Nat :=
  firstRefusal
    [match m.find? fun e => !addrLegal e.point || !symbolFits img e || !ioTaskFits k e with
     | some e => rej 9 e.task 0 2
     | none => none,
     (repeated (fun e => e.point) (m.filter fun e => e.out) []).bind fun t => rej 9 t 0 2,
     (repeated (fun e => (e.point, e.task)) m []).bind fun t => rej 9 t 0 2]

/-- The bytes of a staged I/O map. -/
def checkIoBytes (bs : List Byte) : Option Nat :=
  refuseIf (bs.length % 24 != 0 || decide (65536 < bs.length / 24) || ((List.range (bs.length / 24)).any fun i => !ioEntryFits bs (24 * i))) 9 0 0 2

/-- The mode of each channel under a field set-up, mode 0 throughout without one (R451). -/
def setupMode (bs : Option (List Byte)) (n : Nat) : Nat := (bs.map fun b => rd b (16 + 8 * n) 1).getD 0

/-- An entry on ring 0xF names a point of R447 with its direction and width. -/
def localFits (mode : Nat → Nat) (e : IoEntry) : Bool :=
  let p := addrPoint e.point
  addrModule e.point == 0 &&
    (if p < 32 then e.width == 0 && (if e.out then mode p == 3 || mode p == 4 else mode p == 1 || mode p == 2)
     else if p < 64 then e.width == 0 && !e.out && mode (p - 32) == 4
     else decide (p < 100) && e.width == 1 && !e.out)

/-! ## The field set-up (R448, R449) -/

/-- The first channel whose entry a test holds for. -/
def firstChan (p : Nat → Bool) (sub : Nat) : Option Nat :=
  match (List.range 32).find? p with
  | some n => rej 0x64 n sub 5
  | none => none

/-- Sub-reasons 0x01 to 0x04 of R449. -/
def checkSetup (bs : List Byte) : Option Nat :=
  let f (n k : Nat) : Nat := rd bs (16 + 8 * n + k) 1
  let input (n : Nat) : Bool := f n 0 == 1 || f n 0 == 2
  let deb (n : Nat) : Nat := rd bs (16 + 8 * n + 2) 2
  firstRefusal
    [refuseIf (bs.length != 272 || rd bs 0 2 != 1 || outRange 1 1000 (rd bs 2 2) || !allZero (slice bs 4 12)) 0x64 0xFF 1 5,
     firstChan (fun n => decide (4 < f n 0) || decide (2 < f n 4) || decide (8 ≤ f n 1) || !allZero (slice bs (16 + 8 * n + 5) 3)) 2,
     firstChan (fun n => f n 1 % 2 == 1 && (decide (deb n < 200) || !input n)) 3,
     firstChan (fun n => (f n 1 / 2 % 2 == 1 && !input n) || (f n 1 / 4 % 2 == 1 && !(f n 0 == 3 || f n 0 == 4)) || (deb n != 0 && !input n)) 4]

/-! ## Network schedules (R343 to R346) -/

/-- A station entry. -/
def stationEntryOf (bs : List Byte) (o : Nat) : StationEntry :=
  { station := rd bs o 1, slot := rd bs (o + 1) 1, res := rd bs (o + 2) 1, hasOut := rd bs (o + 3) 1 % 2 == 1, hasIn := rd bs (o + 3) 1 / 2 % 2 == 1,
    typ := BitVec.ofNat 32 (rd bs (o + 4) 4), identity := BitVec.ofNat 64 (rd bs (o + 8) 8), outStream := rd bs (o + 16) 2,
    inStream := rd bs (o + 18) 2, eventStream := rd bs (o + 20) 2, rspUs := rd bs (o + 22) 2, linkNs := rd bs (o + 24) 2 }

/-- The network schedule that bytes hold. -/
def netSchedOf (bs : List Byte) : NetSched :=
  { vid := rd bs 2 2, period := rd bs 4 4, inPhase := rd bs 8 4, writer := if rd bs 12 1 = 0xFF then none else some (rd bs 12 1),
    autoInaug := rd bs 13 1 % 2 == 1, pairLink := rd bs 14 2, stations := (List.range (rd bs 1 1 + 1)).map fun i => stationEntryOf bs (16 + 32 * i) }

/-- Reasons 0x40 to 0x43 and 0x47 of R346 that concern one schedule alone; `ring` is the ring it is staged for. -/
def checkNetBytes (ring : Nat) (bs : List Byte) : Option Nat :=
  let k := netSchedOf bs
  let n := k.stations.length
  firstRefusal
    [refuseIf (rd bs 0 1 != ring || decide (3 < ring) || outRange 1 4094 k.vid || outRange 250 100000 k.period || k.period % 250 != 0 ||
        decide (k.period ≤ k.inPhase) || decide (2 ≤ rd bs 13 1) || bs.length != 16 + 32 * n ||
        (k.stations.map fun e => e.station) != List.range n) 0x40 ring 0 3,
     refuseIf (decide (32 < n) && decide (k.period < 1000) || decide (128 < n) && decide (k.period < 2000)) 0x41 ring 0 3,
     refuseIf (anyTwice (k.stations.map fun e => e.slot) || (k.stations.any fun e => decide (n ≤ e.slot) || outRange 1 15 e.res)) 0x42 ring 0 3]

/-- The uses of stream identifiers of a ring: stream, ring, station, direction. -/
def streamUses (ring : Nat) (k : NetSched) : List (Nat × Nat × Nat × Nat) :=
  k.stations.flatMap fun e =>
    (if e.outStream = 0 then [] else [(e.outStream, ring, e.station, 0)]) ++ (if e.inStream = 0 then [] else [(e.inStream, ring, e.station, 1)]) ++
      (if e.eventStream = 0 then [] else [(e.eventStream, ring, e.station, 2)])

/-- Reason 0x43 of R346 for the staged schedule of a ring: against the other new schedules, the applied ones, and the identifiers freed less than
10 ms ago, which are not used again yet (R325). -/
def badStreams (new old : List (Nat × NetSched)) (freed : List Nat) (ring : Nat) : Bool :=
  let all := new.flatMap fun x => streamUses x.1 x.2
  let v := old.flatMap fun x => streamUses x.1 x.2
  let mine := new.filter fun x => x.1 == ring
  let u := mine.flatMap fun x => streamUses x.1 x.2
  (mine.any fun x => x.2.stations.any fun e => (e.hasOut && e.outStream == 0) || (e.hasIn && e.inStream == 0)) ||
    (u.any fun a => decide (1 < (all.filter fun b => b.1 == a.1).length)) || (u.any fun a => v.any fun b => a.1 == b.1 && a != b) ||
    u.any fun a => freed.contains a.1 && !v.contains a

/-- The stream identifiers freed less than 10 ms before an instant (R325). -/
def freshlyFreed (s : State) (ct : Nat) : List Nat :=
  (allFin 4).flatMap fun r => ((ringOf s r).streams.filter fun y => decide (ct < y.2.2 + 10000000)).map fun y => y.1

/-- The LEN of the OUT frame of a station, where it has one. -/
def outLen (m : List IoEntry) (ring : Nat) (e : StationEntry) : Option Nat :=
  let ps := stationPoints m ring e.station true
  if e.hasOut ∧ !ps.isEmpty then some (cyclicLen ps) else none

/-- The LEN of the IN frame of a station, where it has one. -/
def inLen (m : List IoEntry) (ring : Nat) (e : StationEntry) : Option Nat :=
  if e.hasIn then some (4 + cyclicLen (stationPoints m ring e.station false)) else none

/-- The largest number of a list, 0 for none. -/
def largest (l : List Nat) : Nat := l.foldl max 0

/-- A lead in ns from the LEN of each frame of a direction (R344). -/
def leadNs (isPair : Bool) (k : NetSched) (lens : List Nat) : Nat :=
  let h := k.stations.length + bit isPair
  let res := max 600 (largest (k.stations.map fun e => e.res) * 100)
  let link := max (largest (k.stations.map fun e => e.linkNs)) k.pairLink
  roundUp (lens.length * (largest (lens.map wireBytes) * 8) + h * (res + link) + 5000) 1000

/-- lead_out of a ring in ns (R344). -/
def leadOutNs (isPair : Bool) (m : List IoEntry) (ring : Nat) (k : NetSched) : Nat := leadNs isPair k (k.stations.filterMap (outLen m ring))

/-- lead_in of a ring in ns (R344). -/
def leadInNs (isPair : Bool) (m : List IoEntry) (ring : Nat) (k : NetSched) : Nat := leadNs isPair k (k.stations.filterMap (inLen m ring))

/-- Two windows, first instant and length, overlap modulo a period. -/
def windowsMeet (p a n b m : Nat) : Bool :=
  let d := (b % p + p - a % p) % p
  decide (d < n) || decide (p - d < m)

/-- The set that is to be in force: schedule, I/O map, network schedules by ring, RWS values. -/
structure NewSet where
  sched : Option Schedule
  iomap : List IoEntry
  nets : List (Nat × NetSched)
  rws : Rws
  deriving DecidableEq, Repr

/-- Reasons 0x44 to 0x47 of R346 for a ring. -/
def checkRing (isPair : Bool) (n : NewSet) (k : Schedule) (ring : Nat) (x : NetSched) : Option Nat :=
  let p := x.period * 1000
  let lo := leadOutNs isPair n.iomap ring x
  let li := leadInNs isPair n.iomap ring x
  let w := x.writer.bind k.find
  let outs := n.iomap.filter fun e => e.out && addrRing e.point == ring
  let ids := (x.stations.filter fun e => e.identity != 0).map fun e => e.identity
  firstRefusal
    [refuseIf (x.stations.any fun e => decide (1464 < (outLen n.iomap ring e).getD 0) || decide (1464 < (inLen n.iomap ring e).getD 0)) 0x44 ring 0 3,
     refuseIf (decide (p * 9 < (lo + li + 26000) * 10) ||
        (match w with
         | some t => windowsMeet p (t.phase * 1000 + t.offset + p - lo % p) lo (x.inPhase * 1000) li
         | none => false)) 0x45 ring 0 3,
     refuseIf ((x.writer.isSome && (w.map fun t => t.kind == .periodic) != some true) || (outs.any fun e => some e.task != x.writer)) 0x46 ring 0 3,
     refuseIf (anyTwice ids) 0x47 ring 0 3]

/-! ## Admission (R81, R157, R164, R184, R185) -/

/-- copy(i) of R184, with the extra inputs that R241 counts. -/
def copyCycles (k : Schedule) (m : List IoEntry) (extra : Nat → Nat) (t : TaskEntry) : Nat :=
  let ins := (m.filter fun e => !e.out && e.task == t.task).length + extra t.task
  192 + (ins + 7) / 8 + (t.xin.map fun x => (16 + ((k.find x.writer).map fun w => w.xsize).getD 0) / 16).sum

/-- cost(i) of R184. -/
def costCycles (k : Schedule) (t : TaskEntry) : Nat :=
  t.budget + 10 + ((t.errorTask.bind k.find).map fun e => e.budget + 4).getD 0

/-- The tasks that interfere with a task (R184). -/
def interferers (k : Schedule) (t : TaskEntry) : List TaskEntry :=
  k.released.filter fun j => j.task != t.task && j.engine == t.engine && decide (j.priority ≤ t.priority)

/-- One round of the response iteration. -/
def nextResponse (k : Schedule) (jitter : Nat) (t : TaskEntry) (w : Nat) : Nat :=
  costCycles k t + ((interferers k t).map fun j => (w + jitter + j.period * 960 - 1) / (j.period * 960) * costCycles k j).sum

/-- The response of a task, `none` where it exceeds its period; every round but the last lets `w` grow, so `fuel` above the
period is enough. -/
def responseGo (k : Schedule) (jitter : Nat) (t : TaskEntry) : Nat → Nat → Option Nat
  | 0, _ => none
  | f + 1, w =>
    let x := nextResponse k jitter t w
    if t.period * 960 < jitter + x then none
    else if x = w then some (jitter + w)
    else responseGo k jitter t f x

/-- The jitter of a schedule in lane cycles. -/
def jitterOf (k : Schedule) (m : List IoEntry) (extra : Nat → Nat) : Nat := (k.released.map (copyCycles k m extra)).sum

/-- resp(i) of R184. -/
def responseOf (k : Schedule) (jitter : Nat) (t : TaskEntry) : Option Nat :=
  responseGo k jitter t (t.period * 960 + 2) (costCycles k t)

/-- The largest output lead over the rings that a task writes, in ns. -/
def taskLeadNs (isPair : Bool) (n : NewSet) (t : TaskEntry) : Nat :=
  largest ((n.iomap.filter fun e => e.out && e.task == t.task).map fun e =>
    if addrRing e.point = 15 then 20000 else ((assoc? (addrRing e.point) n.nets).map fun x => leadOutNs isPair n.iomap (addrRing e.point) x).getD 0)

/-- The output offset a task needs, in ns. -/
def needNs (k : Schedule) (resp lead : Nat) : Nat :=
  4000 + (resp * 1000 + 959) / 960 + (1000 + 10 * (k.tasks.map fun t => t.maxEffects).sum) + lead

/-- The tests of R184: reasons 0x21 and 0x22. -/
def checkAdmission (isPair : Bool) (n : NewSet) (k : Schedule) (extra : Nat → Nat) : Option Nat :=
  let j := jitterOf k n.iomap extra
  firstRefusal
    [firstTask k.released (fun t => (responseOf k j t).isNone) 0x21 0,
     firstTask k.released (fun t => decide (t.offset < needNs k ((responseOf k j t).getD 0) (taskLeadNs isPair n t))) 0x22 0]

/-- A rate of `a` per `us` microseconds, per second. -/
def perSecond (a us : Nat) : ℚ := (a * 1000000 : ℚ) / (us : ℚ)

/-- The worst-case trace rate in bytes per second (R81). -/
def traceRate (n : NewSet) (k : Schedule) : ℚ :=
  let on (i : Nat) : Bool := n.rws.cmtFilter.getLsbD i
  let tasks := (k.released.map fun t => (if on 1 then perSecond (32 * t.maxEffects) t.period else 0) + (if on 5 then perSecond 32 t.period else 0)).sum
  let nets := (n.nets.map fun x =>
    (if on 2 then perSecond (32 * (x.2.stations.filterMap (outLen n.iomap x.1)).length) x.2.period else 0) +
      (if on 3 then perSecond (32 * (x.2.stations.filterMap (inLen n.iomap x.1)).length) x.2.period else 0)).sum
  tasks + nets + (if on 2 || on 3 then 32 * (k.aFrames : ℚ) else 0) + (if on 4 then 32 * (k.edges : ℚ) else 0)

/-- The task uses the table unit (R157). -/
def tableUsing (k : Schedule) (t : TaskEntry) : Bool := t.tbl || ((t.errorTask.bind k.find).map fun e => e.tbl).getD false

/-- The table-using priorities of the four engines together exceed the limit of R157. -/
def tablePriorities (k : Schedule) (ts : List TaskEntry) : Bool :=
  decide (4 < ((allFin 4).map fun e => (((ts.filter fun t => t.engine == e && tableUsing k t).map fun t => t.priority).dedup).length).sum)

/-- The combined tests of R185, 0x0A to 0x0F. -/
def checkCombined (n : NewSet) (k : Schedule) (extra : Nat → Nat) : Option Nat :=
  let j := jitterOf k n.iomap extra
  firstRefusal
    [firstPrefix (fun ts => decide (32768 < (n.iomap.filter fun e => !e.out && (ts.map fun t => t.task).contains e.task).length)) 0x0A 0 [] k.released,
     firstPrefix (fun ts => decide (80000000 < (ts.map fun t => perSecond t.maxEffects t.period).sum)) 0x0B 0 [] k.released,
     firstTask k.released (fun t => n.iomap.any fun e =>
        e.out && e.task == t.task && addrRing e.point != 15 && ((assoc? (addrRing e.point) n.nets).map fun x => x.period) != some t.period) 0x0C 0,
     refuseIf (decide (400000000 < traceRate n k)) 0x0D 0 0 0,
     firstTask k.tasks (fun w => (k.released.any fun t => t.xin.any fun x => x.writer == w.task) && decide (w.period * 1000 * 960 ≤ 4000 * 960 + j * 1000)) 0x0E 0,
     firstPrefix (tablePriorities k) 0x0F 0 [] k.released]

/-- Reason 0x50 of R381: a release of a periodic task within 25 µs from a due instant. -/
def dueClash (n : NewSet) (t : TaskEntry) : Bool :=
  t.kind == .periodic && n.nets.any fun x =>
    let d := x.2.inPhase * 1000 + leadInNs true n.iomap x.1 x.2
    let g := Nat.gcd (t.period * 1000) (x.2.period * 1000)
    decide ((t.phase * 1000 + g - d % g) % g < 25000)

/-- A staged WDG_TASK_EN registers a task that is not periodic (R578). -/
def badChannels (n : NewSet) : Bool :=
  (List.range 256).any fun t =>
    (n.rws.wdgTaskEn.get (finOr (t / 32))).getLsbD (t % 32) && ((n.sched.bind fun k => k.find t).map fun e => e.kind == .periodic) != some true

/-! ## The staged set (R433 to R435) -/

/-- The object that is to be in force: the staged one, else the applied one. -/
def newObj (s : State) (kind ring : Nat) : Option (List Byte) := (objOf s.txn.objs kind ring).orElse fun _ => objOf s.txn.applied kind ring

/-- The network schedules of a set of objects. -/
def netsOf (f : Nat → Option (List Byte)) : List (Nat × NetSched) :=
  (List.range 4).filterMap fun r => (f r).map fun b => (r, netSchedOf b)

/-- The set that the open transaction would bring in force. -/
def newSet (s : State) : NewSet :=
  { sched := (newObj s 1 0).map scheduleOf, iomap := ((newObj s 2 0).map ioMapOf).getD [], nets := netsOf fun r => newObj s 3 r,
    rws := rwsAfter s.rws s.txn.rws }

/-- The image that a staged schedule belongs to: of the bank of the staged switch, else the ACTIVE one. -/
def targetImage (s : State) : Option Image :=
  match s.txn.switch with
  | some w => (fin? 2 w.bank).bind (bankImage s)
  | none => activeImage s

/-- The map of the staged switch. -/
def switchMap (s : State) : Option StateMap :=
  if runsProgram s then (s.txn.switch.bind fun w => fin? 2 w.bank).bind fun b => (bankOf s b).map else none

/-- The EDGE entries of a task in the map of the staged switch, as inputs more (R241). -/
def edgeEntries (es : List MapEntry) (t : Nat) : Nat := (es.filter fun e => (e.kind == 5 || e.kind == 6) && e.task == t).length

/-- The edge entries of the staged switch. -/
def edgeInputs (s : State) (t : Nat) : Nat := edgeEntries (((switchMap s).map fun m => m.entries).getD []) t

/-- A partition is not a multiple of 256 MiB or outside its range. -/
def badPart (lo hi x : Nat) : Bool := outRange lo hi x || x % 256 != 0

/-- Reasons 0x60 and 0x61 (R41, R42). Bulk buffers are named by their offsets in the bulk partition (R417), so they must lie within its new
size (DEDUCED, log entry 137). Where tables and trace together are too large the refusal names partition 4, and for an object of a wrong
length partition 2 (DESIGN CHOICE, log entry 127: R41 says the first partition that failed). -/
def checkPartitions (s : State) (bs : List Byte) : Option Nat :=
  let t := rd bs 0 4
  let c := rd bs 4 4
  firstRefusal
    [refuseIf (bs.length != 8 || badPart 0 12288 t) 0x60 0 2 4,
     refuseIf (badPart 1024 12288 c) 0x60 0 3 4,
     refuseIf (decide (15360 < t + c)) 0x60 0 4 4,
     refuseIf (decide (t < s.part.tables) && (allFin 16).any fun i => (s.tbl.get i).loaded) 0x61 0 2 4,
     refuseIf (s.hif.bulk.any fun b => decide ((16384 - 512 - t - c) * 1048576 < b.offset + b.size)) 0x61 0 4 4]

/-- Reasons 0x62 and 0x63 for the staged RWS words (R3, R436). On an -ES any staged AVAIL = 1 counts, be it replaced by a later staged word
or not (DESIGN CHOICE, log entry 126). -/
def checkRws (s : State) : Option Nat :=
  firstRefusal
    [refuseIf (safetyOption s && s.txn.rws.any fun x => x.1 == 0x10004 && x.2.getLsbD 0) 0x62 0 0 6,
     refuseIf ((s.txn.rws.any fun x => !rwsOffsets.contains x.1 || rwsBad x.1 x.2) || (!s.txn.rws.isEmpty && scaleMissing (newSet s).rws)) 0x63 0 0 6]

/-- The transaction stages a network schedule of the ring or changes an I/O map entry of it, so that its stations must
acknowledge (R438). -/
def ringChanged (s : State) (r : Nat) : Bool :=
  (objOf s.txn.objs 3 r).isSome ||
    match objOf s.txn.objs 2 0 with
    | some b =>
      let new := (ioMapOf b).filter fun e => addrRing e.point == r
      let old := s.tsk.iomap.filter fun e => addrRing e.point == r
      new != old && (newObj s 3 r).isSome
    | none => false

/-- P_max of R437, in ns: the largest PERIOD among the rings whose stations must acknowledge, staged or applied. -/
def pMax (s : State) : Nat :=
  largest ((List.range 4).map fun r =>
    if ringChanged s r then
      max (((newObj s 3 r).map fun b => (netSchedOf b).period).getD 0) (((objOf s.txn.applied 3 r).map fun b => (netSchedOf b).period).getD 0) * 1000
    else 0)

/-- The partner must acknowledge (R438). -/
def partnerRequired (s : State) : Bool := mirrors s

/-- The earliest apply instant E for a fetch at `ct` (R437). -/
def earliestX (s : State) (ct : Nat) : Nat := ct + 2000000 + bit (partnerRequired s) * 1000000 + 4 * pMax s

/-- The latest release CT of a periodic task earlier than X (R239). -/
def lastBefore (s : State) (e : TaskEntry) (x : Nat) : Option Nat :=
  let base := s.tsk.anchor + e.phase * 1000
  let j := (x - 1 - base) / (e.period * 1000)
  if base < x ∧ (taskRun s e.task).first ≤ j then some (base + j * (e.period * 1000)) else none

/-- The quiet-window test of R239: the task that fails it. -/
def quietFails (s : State) (x w : Nat) : Option Nat :=
  (((schedTasks s).filter fun e => e.kind == .periodic).find? fun e =>
    match lastBefore s e x with
    | some r => decide ((x - w) * 960 < (r + 4000) * 960 + (assoc? e.task s.tsk.resp).getD 0 * 1000)
    | none => false).map fun e => e.task

/-- The tests of R240 for the staged switch, at a CHECK fetched at `ct`. -/
def checkSwitch (s : State) (ct : Nat) (align : Nat) : Option Nat :=
  match s.txn.switch with
  | none => none
  | some w =>
    match fin? 2 w.bank with
    | none => rej 0x30 0 0 0
    | some b =>
      let st := (bankOf s b).state
      let win := switchWindow s b
      firstRefusal
        [refuseIf ((objOf s.txn.objs 1 0).isNone ||
            (if runsProgram s then st != .mapped || ((bankOf s b).map.map fun m => m.oldId) != (activeImage s).map fun i => i.id
             else st != .loaded && st != .mapped)) 0x30 0 0 0,
         refuseIf (decide ((lanesIn s).length < 2) || resyncing s) 0x31 0 0 0,
         refuseIf (w.x % (align * 1000) != 0 || decide (w.x < earliestX s ct + win)) 0x32 0 0 0,
         (if runsProgram s then
            match quietFails s w.x win with
            | some t => rej 0x33 t 0 0
            | none => none
          else none)]

/-- The channel that a refusal names for a point of the field die (R447, R449): 0xFF for a point that belongs to none. -/
def pointChannel (p : Nat) : Nat := if p < 96 then p % 32 else 0xFF

/-- Every test of CHECK in the order of R435. -/
def checkTxn (s : State) (ct : Nat) : Option Nat :=
  let n := newSet s
  let img := targetImage s
  let k := n.sched.getD { align := 1, imageId := 0, aFrames := 0, edges := 0, tasks := [] }
  let old := netsOf fun r => objOf s.txn.applied 3 r
  let staged (kind : Nat) : Option (List Byte) := objOf s.txn.objs kind 0
  let isPair := pairMember s
  if s.txn.objs.isEmpty ∧ s.txn.rws.isEmpty ∧ s.txn.switch.isNone then none
  else
    firstRefusal
      ([(staged 1).bind (checkSchedule img), (staged 2).bind checkIoBytes,
        if (staged 1).isSome || (staged 2).isSome then checkIoMap img k n.iomap else none] ++
       ((List.range 4).flatMap fun r =>
         match objOf s.txn.objs 3 r with
         | some b =>
           [checkNetBytes r b, refuseIf (badStreams n.nets old (freshlyFreed s ct) r) 0x43 r 0 3, checkRing isPair n k r (netSchedOf b)]
         | none => []) ++
       [(staged 4).bind (checkPartitions s), (staged 5).bind checkSetup,
        (match (n.iomap.find? fun e => addrRing e.point == 15 && !localFits (setupMode (newObj s 5 0)) e) with
         | some e => if (staged 2).isSome || (staged 5).isSome then rej 0x64 (pointChannel (addrPoint e.point)) 5 (if (staged 2).isSome then 2 else 5) else none
         | none => none),
        checkRws s, checkSwitch s ct k.align] ++
       (if n.sched.isSome then [checkCombined n k (edgeInputs s), checkAdmission isPair n k (edgeInputs s)] else []) ++
       ((n.nets.filter fun x => (objOf s.txn.objs 3 x.1).isNone).map fun x => checkRing isPair n k x.1 x.2) ++
       (if isPair then
          [firstTask k.released (dueClash n) 0x50 0,
           (match n.nets.find? fun x => x.2.pairLink == 0 with
            | some x => rej 0x51 x.1 0 3
            | none => none)]
        else []) ++
       [refuseIf (badChannels n) 0x63 0 0 6])

end Sys2Proof.Machine
end

