-- ==== Sys2Proof/Machine/Txn.lean ====
section
/-! DEFINITION. The configuration transaction: its descriptors, its decision, what it applies, and the saved set (R221, R237, R325, R432 to
R442, R660). -/

namespace Sys2Proof.Machine

/-! ## Opening and staging (R432 to R434) -/

/-- TXN_OPEN. -/
def doTxnOpen (q : RingId) (_ : Outst) (s : State) : State × Work :=
  match s.txn.phase with
  | .none =>
    (s.modTxn fun t =>
      { t with phase := .opened, num := t.num + 1, owner := q, objs := [], rws := [], switch := none, required := [], acked := [],
               apply := none, lastOpAt := s.clk.now },
      .finish (doneOk (fields [(1, (s.txn.num + 1).toNat)])))
  | _ => (s, .finish (doneWith stTxnConflict 0))

/-- TXN_OPEN (R432). -/
def execTxnOpen (q : RingId) (s : State) : Host.Outcome State Fault Refusal := ok (serve q 0x10 s (doTxnOpen q))

/-- The bytes that a staged set takes. -/
def stagedBytes (objs : List StagedObj) (rws : List (Nat × W32)) : Nat := (objs.map fun o => o.bytes.length).sum + 8 * rws.length

/-- The staged set is at most 2 MiB (R434). -/
def stagedMax : Nat := 2097152

/-- Put a staged object in the place of one of its kind, for kind 3 of its ring (R434). -/
def putObj (o : StagedObj) (l : List StagedObj) : List StagedObj :=
  (l.filter fun x => !(x.kind == o.kind && x.ring == o.ring)) ++ [o]

/-- The entries of a kind 6 object. -/
def rwsEntries (bs : List Byte) : List (Nat × W32) :=
  (List.range (bs.length / 8)).map fun i => (rd bs (8 * i) 4, BitVec.ofNat 32 (rd bs (8 * i + 4) 4))

/-- A staged set takes the place of the present one: the transaction is unchecked. -/
def setStaged (objs : List StagedObj) (rws : List (Nat × W32)) (s : State) : State :=
  s.modTxn fun t => { t with phase := .opened, objs := objs, rws := rws }

/-- Stage an object of a kind; the answer says whether it fitted. -/
def stageObj (kind ring : Nat) (bs : List Byte) (s : State) : Bool × State :=
  let objs := if kind = 6 then s.txn.objs else putObj { kind := kind, ring := if kind = 3 then ring else 0, bytes := bs } s.txn.objs
  let rws := if kind = 6 then s.txn.rws ++ rwsEntries bs else s.txn.rws
  if stagedMax < stagedBytes objs rws then (false, s) else (true, setStaged objs rws s)

/-- The transaction opcode counts against the idle time of R441. -/
def touchTxn (s : State) : State := s.modTxn fun t => { t with lastOpAt := s.clk.now }

/-- TXN_STAGE. -/
def doTxnStage (q : RingId) (dma : List Byte) (e : Outst) (s : State) : State × Work :=
  let kind := e.desc.par 24 1
  let ring := e.desc.par 25 1
  if !ownsTxn s q then (s, .finish (doneWith stTxnConflict 0))
  else if outRange 1 6 kind || (kind == 3 && decide (3 < ring)) || (kind == 6 && e.desc.len % 8 != 0) then
    (s, .finish (doneWith stBadDescriptor 0))
  else
    let bs := bufRead e.desc dma s
    let (fits, s1) := stageObj kind ring bs (touchTxn s)
    if fits then (mirror (.txnStage kind ring bs) s1, .finish (doneOk [])) else (s1, .finish (doneWith stNoSpace 0))

/-- TXN_STAGE (R433, R434). -/
def execTxnStage (q : RingId) (dma : List Byte) (s : State) : Host.Outcome State Fault Refusal := ok (serve q 0x11 s (doTxnStage q dma))

/-- A BAR0 write to a register with RWS fields (R13, R15, R434): staged in the open transaction, else discarded. -/
def stageRws (off : Nat) (w : W32) (s : State) : State :=
  match s.txn.phase with
  | .none => s
  | .applying => event 0x040B (det [(4, off), (1, 1)]) s
  | .committed => event 0x040B (det [(4, off), (1, 1)]) s
  | _ =>
    if stagedMax < stagedBytes s.txn.objs s.txn.rws + 8 then event 0x040B (det [(4, off), (1, 2)]) s
    else mirror (.txnRws off w) (setStaged s.txn.objs (s.txn.rws ++ [(off, w)]) s)

/-! ## TXN_CHECK (R435) -/

/-- TXN_CHECK. -/
def doTxnCheck (q : RingId) (e : Outst) (s : State) : State × Work :=
  if !ownsTxn s q then (s, .finish (doneWith stTxnConflict 0))
  else
    match checkTxn s e.fetchCt with
    | none => ((touchTxn s).modTxn fun t => { t with phase := .checked }, .finish (doneOk []))
    | some d => (mirror .txnAbandon (dropTxn stRefused.toNat (d % 256) s), .finish (doneWith stRefused d))

/-- TXN_CHECK (R435). -/
def execTxnCheck (q : RingId) (s : State) : Host.Outcome State Fault Refusal := ok (serve q 0x12 s (doTxnCheck q))

/-! ## TXN_APPLY (R437 to R439) -/

/-- The window of the staged switch. -/
def txnWindow (s : State) : Nat := ((s.txn.switch.bind fun w => fin? 2 w.bank).map (switchWindow s)).getD 0

/-- The rings whose stations must acknowledge. -/
def txnRings (s : State) : List StraitId := (allFin 4).filter fun r => ringChanged s r.val

/-- The PERIOD of a ring in ns under the new set. -/
def newPeriodNs (s : State) (r : StraitId) : Nat := ((newObj s 3 r.val).map fun b => (netSchedOf b).period * 1000).getD 0

/-- The decision instant D_T (R439). -/
def decisionInstant (s : State) (x : Nat) : Nat :=
  ([x - 1000000] ++ (if s.txn.switch.isSome then [x - txnWindow s - 100000] else []) ++
    (txnRings s).map fun r => x - 2 * newPeriodNs s r).foldl min (x - 1000000)

/-- The stations of a ring that must acknowledge: those of the new schedule that are present and not dropped (R355, R438). -/
def requiredStations (s : State) (r : StraitId) : List Nat :=
  (((newObj s 3 r.val).map fun b => (netSchedOf b).stations.map fun e => e.station).getD []).filter fun n =>
    decide (n < (ringOf s r).count) && !(stationOf s r n).dropped

/-- The units that must acknowledge (R438). -/
def requiredUnits (s : State) : List TxnUnit :=
  ((lanesIn s).map TxnUnit.lane) ++ (if partnerRequired s then [TxnUnit.partner] else []) ++
    ((txnRings s).flatMap fun r => (requiredStations s r).map fun n => TxnUnit.station r n)

/-- A mode change of each ring concerned is prepared (R353). -/
def prepareRings (x : Nat) (s : State) : State :=
  (txnRings s).foldl (fun t r =>
    let m := ringOf s r
    let c : ModeChange :=
      { x := x, d := x - 2 * newPeriodNs s r, newA := m.aEpoch, newM := m.mEpoch + 1, numbering := none, required := requiredStations s r, acked := [],
        decided := none }
    modStrait r (fun k => { k with mode := some c }) t) s

/-- The image and the state map in the bank of the staged switch (R255). -/
def switchMapped (s : State) : Option (W64 × W32) :=
  (s.txn.switch.bind fun w => fin? 2 w.bank).bind fun b =>
    (bankImage s b).map fun i => (i.id, ((bankOf s b).map.map fun m => m.crc).getD 0)

/-- The transaction is applying at X: every lane holds the staged set at once. -/
def beginApply (num x : Nat) (s : State) : State :=
  let s1 := s.modTxn fun t =>
    { t with phase := .applying, x := x, w := txnWindow s, xReg := x, dT := decisionInstant s x, required := requiredUnits s, acked := (lanesIn s).map TxnUnit.lane,
             apply := some num }
  mirror (.txnApply s.txn.num x (decisionInstant s x) (switchMapped s)) (prepareRings x s1)

/-- The refusals of TXN_APPLY: reasons 0x32, 0x65 and 0x66. -/
def applyRefusal (s : State) (ct x : Nat) : Option Nat :=
  firstRefusal
    [refuseIf ((s.txn.switch.map fun w => w.x != x) == some true) 0x32 0 0 0,
     refuseIf (decide (x < earliestX s ct)) 0x65 0 0 0,
     refuseIf (runsProgram s && ((objOf s.txn.objs 1 0).map fun b => x % ((scheduleOf b).align * 1000) != 0) == some true) 0x66 0 0 0]

/-- A ring concerned is in a mode change already, an inauguration say: the transaction must wait for its end (R359). -/
def ringsBusy (s : State) : Bool := (txnRings s).any fun r => (ringOf s r).mode.isSome

/-- TXN_APPLY. -/
def doTxnApply (q : RingId) (e : Outst) (s : State) : State × Work :=
  if !(s.txn.phase == .checked && s.txn.owner == q) then (s, .finish (doneWith stTxnConflict 0))
  else if 1 < e.desc.par 24 1 then (s, .finish (doneWith stBadDescriptor 0))
  else if ringsBusy s then (s, .finish (doneWith stBadState 0))
  else
    match namedInstant s (e.desc.par 24 1) (e.desc.par 25 1) (e.desc.par 32 8) with
    | none => (s, .finish (doneWith stNotFound 0))
    | some x =>
      match applyRefusal s e.fetchCt x with
      | some d => (mirror .txnAbandon (dropTxn stRefused.toNat (d % 256) s), .finish (doneWith stRefused d))
      | none => (beginApply e.num x (touchTxn s), .wait (some x))

/-- TXN_APPLY (R437). -/
def execTxnApply (q : RingId) (s : State) : Host.Outcome State Fault Refusal := ok (serve q 0x13 s (doTxnApply q))

/-! ## The decision (R439, R440) -/

/-- The first required unit that has not acknowledged: kind, lane or ring, and station. A station that is dropped no longer
holds the transaction back (R355). -/
def missingUnit (s : State) : Option (Nat × Nat × Nat) :=
  (s.txn.required.findSome? fun u =>
    if s.txn.acked.contains u then none
    else
      match u with
      | .lane l => some (1, l.val, 0)
      | .partner => if partnerRequired s then some (2, 0, 0) else none
      | .station r n => some (3, r.val, n))

/-- The rings of a transaction are told the commit decision. -/
def commitRings (s : State) : State :=
  (allFin 4).foldl (fun s r =>
    modStrait r (fun k =>
      { k with mode := k.mode.map fun m => if m.numbering.isNone && m.decided == none then { m with decided := some true } else m }) s) s

/-- The commit of a transaction: the decision goes to the partner first, and a staged switch is committed (R390, R439). -/
def commitTxn (s : State) : State :=
  let s1 := if mirrors s then pairSend (.decision true) s else s
  let s2 := commitRings (s1.modTxn fun t => { t with phase := .committed })
  match s.txn.switch with
  | some w => s2.modPrg fun p => { p with sw := some { bank := finOr w.bank, x := w.x, w := s.txn.w, done := false } }
  | none => s2

/-- TXN_DECISION (R439): at D_T the module commits if every required unit has acknowledged, and aborts otherwise; a standby waits
for the decision of the active module (R390). -/
def execTxnDecision (s : State) : Host.Outcome State Fault Refusal :=
  match s.txn.phase with
  | .applying =>
    if s.txn.dT ≤ s.clk.ct ∧ hasAuthority s then
      match missingUnit s with
      | none => ok (commitTxn s)
      | some (k, w, n) => ok (abortTxn k w n (if mirrors s then pairSend (.decision false) s else s))
    else ok s
  | _ => ok s

/-! ## Applying a schedule (R221, R237, R242) -/

/-- The first grid index of a continuing task whose output instant lies after its last one (R221). -/
def firstIndex (x : Nat) (e : TaskEntry) (lastInstant : Nat) : Nat :=
  let o := x + e.phase * 1000 + e.offset
  if lastInstant < o then 0 else (lastInstant - o) / (e.period * 1000) + 1

/-- The figures of a task that has not been released. -/
def TaskRun.fresh : TaskRun :=
  { next := 0, first := 0, k0 := 0, cycle := none, lastCt := 0, lastInstant := 0, due := none, triggers := [], used := 0, maxUsed := 0, overruns := 0,
    faults := 0, lates := 0, coalesced := 0, causes := 0, causeCt := 0, stations := [], ends := Vector.replicate 3 none, ran := none }

/-- The figures of a task that begins anew at X under a schedule that its number was in already: what its memory was last written by, and
the event that is pending, stay (R215, R242). -/
def TaskRun.restart (old : TaskRun) : TaskRun :=
  { TaskRun.fresh with due := old.due, triggers := old.triggers, coalesced := old.coalesced, ran := old.ran }

/-- A pending event that was held for the switch is released at X (R242). -/
def TaskRun.heldTo (x : Nat) (r : TaskRun) : TaskRun := { r with due := r.due.map fun d => max d x }

/-- The figures of a task of the new schedule at its anchor X. -/
def startRun (s : State) (es : List MapEntry) (x : Nat) (e : TaskEntry) : TaskRun :=
  let o := continues es e.task
  let r := taskRun s o
  let taken := es.any fun m => m.kind == 8 && m.old == e.task && m.new != e.task
  match taskEntry s o with
  | some old =>
    if taken && o == e.task then { TaskRun.fresh with ran := (taskRun s e.task).ran }
    else
      let j := match e.kind with
        | .periodic => if r.cycle.isSome then firstIndex x e r.lastInstant else 0
        | _ => 0
      if old.period = e.period then { r.heldTo x with next := j, first := j, k0 := (r.cycle.map fun c => c + 1).getD 0 }
      else { r.restart.heldTo x with next := j, first := j }
  | none => { TaskRun.fresh with ran := (taskRun s e.task).ran }

/-- The figures of a task number after the new schedule is applied. -/
def nextRun (s : State) (k : Schedule) (es : List MapEntry) (x t : Nat) : TaskRun :=
  match k.find t with
  | some e => startRun s es x e
  | none => { taskRun s t with due := none, triggers := [] }

/-- The host triggers of event tasks that do not continue end, and their pending events count as coalesced (R242). -/
def dropEvents (k : Schedule) (es : List MapEntry) (s : State) : State :=
  (schedTasks s).foldl (fun s e =>
    if (k.tasks.any fun t => continues es t.task == e.task) || (taskRun s e.task).due.isNone then s
    else
      let ts := (taskRun s e.task).triggers
      let s1 := modRun e.task (fun r => { r with due := none, triggers := [], coalesced := satAdd 4294967295 r.coalesced 1 }) s
      ts.foldl (fun s t => endDesc t.1.1 t.1.2 (doneWith stNotFound 0) s) s1) s

/-- The responses of a schedule in lane cycles (R184). -/
def responsesOf (k : Schedule) (m : List IoEntry) (extra : Nat → Nat) : List (Nat × Nat) :=
  let j := jitterOf k m extra
  k.released.map fun t => (t.task, (responseOf k j t).getD 0)

/-- The running digests of tasks that enter the schedule begin anew (R268). -/
def freshDigests (ts : List Nat) (s : State) : State :=
  ts.foldl (fun s t => (allFin 3).foldl (fun s l => modCtx l t (fun c => { c with digest := 0xFFFFFFFFFFFFFFFF }) s) s) s

/-- The voter compares the first record of a task that enters the schedule with none before it (R271). -/
def forgetStreams (ts : List Nat) (s : State) : State :=
  s.modVot fun v => { v with prev := v.prev.filter fun x => !ts.contains x.1 }

/-- The tasks of a new schedule that continue no old one. -/
def enteringTasks (s : State) (k : Schedule) (es : List MapEntry) (x : Nat) : List Nat :=
  ((k.released.filter fun e => (startRun s es x e).cycle.isNone && (startRun s es x e).k0 == 0).map fun e => e.task)

/-- The schedule and the I/O map take effect with X as their anchor (R221, R244). -/
def applySchedule (n : NewSet) (es : List MapEntry) (extra : Nat → Nat) (x : Nat) (newSched : Bool) (s : State) : State :=
  match n.sched with
  | none => s.modTsk fun t => { t with iomap := n.iomap }
  | some k =>
    let ts := enteringTasks s k es x
    let s1 := if newSched then forgetStreams ts (freshDigests ts (dropEvents k es s)) else s
    s1.modTsk fun t =>
      { t with
        sched := some k, iomap := n.iomap, anchor := if newSched then x else t.anchor,
        resp := responsesOf k n.iomap extra, leads := k.released.map fun e => (e.task, taskLeadNs (pairMember s) n e),
        run := if newSched then Vector.ofFn fun i : Fin 256 => nextRun s1 k es x i.val else t.run }

/-- The task channels of the watchdog (R578, R580): those that continue keep their windows. -/
def applyChans (es : List MapEntry) (s : State) : State :=
  let regd (t : Nat) : Bool := (s.rws.wdgTaskEn.get (finOr (t / 32))).getLsbD (t % 32)
  let ts := (schedTasks s).filter fun e => e.kind == .periodic && regd e.task
  s.modWdg fun w =>
    { w with chans := if runsProgram s then
        ts.map fun e =>
          match w.chans.find? fun c => c.task == continues es e.task with
          | some c => { c with task := e.task }
          | none => { task := e.task, checkIns := 0 }
      else [] }

/-! ## Applying a network schedule (R325, R353) -/

/-- The generation with which a stream identifier is next used (R325): one above that of its latest use on any ring. -/
def nextGen (s : State) (id : Nat) : Byte :=
  let l := (allFin 4).flatMap fun r => (ringOf s r).streams.filter fun x => x.1 == id
  ((l.foldl (fun (b : Option (Nat × Byte × Nat)) x =>
    match b with
    | some y => if y.2.2 ≤ x.2.2 then some x else b
    | none => some x) none).map fun x => x.2.1 + 1).getD 0

/-- The entry of a station in a schedule. -/
def entryOf (k : Option NetSched) (n : Nat) : Option StationEntry := k.bind fun x => x.stations.find? fun e => e.station == n

/-- The streams of a station under its new entry: kept ones keep their instance, others begin a new one (R324, R325). -/
def newStreams (s : State) (old new : Option StationEntry) (x : Station) : Station :=
  let o (f : StationEntry → Nat) (e : Option StationEntry) : Nat := (e.map f).getD 0
  let x1 := if o (·.outStream) old = o (·.outStream) new then x else { x with outSeq := x.outNext.getD 0, outNext := none, outGen := nextGen s (o (·.outStream) new) }
  let x2 := if o (·.inStream) old = o (·.inStream) new then x1
    else { x1 with inRef := { StreamRef.empty with gen := nextGen s (o (·.inStream) new) }, got := none, used := none }
  if o (·.eventStream) old = o (·.eventStream) new then x2
  else { x2 with aRef := { x2.aRef with gen := nextGen s (o (·.eventStream) new) }, events := [] }

/-- The stream identifiers that leave use, with the generation used and the instant (R325). -/
def freedStreams (s : State) (r : StraitId) (new : NetSched) : List (Nat × Byte × Nat) :=
  let uses := (streamUses r.val new).map fun u => u.1
  (((ringOf s r).sched.map fun k => k.stations).getD []).flatMap fun e =>
    let x := stationOf s r e.station
    ([(e.outStream, x.outGen), (e.inStream, x.inRef.gen), (e.eventStream, x.aRef.gen)].filter fun y => y.1 != 0 && !uses.contains y.1).map
      fun y => (y.1, y.2, s.clk.ct)

/-- Tasks' figures need the leads of a ring: they are computed with the set in force. -/
def applyNet (n : NewSet) (r : StraitId) (k : NetSched) (s : State) : State :=
  let freed := freedStreams s r k
  modStrait r (fun x =>
    { x with
      sched := some k, leadOut := leadOutNs (pairMember s) n.iomap r.val k, leadIn := leadInNs (pairMember s) n.iomap r.val k,
      streams := (x.streams.filter fun y => !(freed.any fun z => z.1 == y.1)) ++ freed,
      stations := if x.sched = some k then x.stations
        else Vector.ofFn fun i : Fin 256 => newStreams s (entryOf x.sched i.val) (entryOf (some k) i.val) (x.stations.get i) }) s

/-- The input cycle whose due instant comes next, counted from an anchor (R327). -/
def cycleFrom (anchor ct : Nat) (x : Ring) : Nat :=
  match x.sched with
  | some k =>
    let d := anchor + k.inPhase * 1000 + x.leadIn
    if ct < d ∨ k.period = 0 then 0 else (ct - d) / (k.period * 1000) + 1
  | none => 0

/-- The epochs of the rings that a transaction changed, at X (R353). -/
def applyEpochs (s : State) : State :=
  (allFin 4).foldl (fun s r =>
    modStrait r (fun k =>
      match k.mode with
      | some m => if m.numbering.isNone && m.decided == some true then k.setEpochs m else k
      | none => k) s) s

/-- A ring comes into use or leaves it with NET_CTRL; one that comes into use waits for its inauguration (R347, R349). -/
def activateRings (s : State) : State :=
  (allFin 4).foldl (fun s r =>
    modStrait r (fun k =>
      let on := s.rws.netCtrl.getLsbD r.val
      if on = k.active then k
      else if on then { k with active := true, count := 0, rounds := 3, discAt := s.clk.now, inaugAt := s.clk.now }
      else { k with active := false, count := 0, disc := [], rounds := 0, mode := none, held := [], closed := false }) s) s

/-! ## Applying the whole set (R43, R440, R450) -/

/-- The DRAM partitions in force change; the trace is emptied, with what its staging buffer holds, where its partition moves or changes size
(R43). -/
def applyPartitions (bs : List Byte) (s : State) : State :=
  let p : Partitions := { tables := rd bs 0 4, trace := rd bs 4 4 }
  if s.part = p then s else (s.modPart fun _ => p).modCmt Cmt.empty

/-- The objects of an applied set: the new ones in the places of the old ones. -/
def mergeObjs (new old : List StagedObj) : List StagedObj := new.foldl (fun l o => putObj o l) old

/-- Bring a set of objects and RWS words in force at X; `es` are the entries of a switch's map (R440). -/
def applySet (objs : List StagedObj) (rws : List (Nat × W32)) (es : List MapEntry) (extra : Nat → Nat) (x : Nat) (s0 : State) : State :=
  let s := s0.modRws fun r => rwsAfter r rws
  let all := mergeObjs objs s.txn.applied
  let n : NewSet :=
    { sched := (objOf all 1 0).map scheduleOf, iomap := ((objOf all 2 0).map ioMapOf).getD [], nets := netsOf fun r => objOf all 3 r, rws := s.rws }
  let s1 := match objOf objs 4 0 with
    | some b => applyPartitions b s
    | none => s
  let s2 := match objOf objs 5 0 with
    | some b => applySetup b x s1
    | none => s1
  let s3 := n.nets.foldl (fun t y =>
    match fin? 4 y.1 with
    | some r => applyNet n r y.2 t
    | none => t) s2
  let newSched := (objOf objs 1 0).isSome
  let s4 := applyChans es (applySchedule n es extra x newSched (if newSched || (objOf objs 2 0).isSome then restartResync 2 s3 else s3))
  let s5 := activateRings (applyEpochs s4)
  let s6 := s5.modNet fun k => { k with rings := k.rings.map fun r => { r with cycle := cycleFrom s5.tsk.anchor s5.clk.ct r } }
  selectRole (s6.modTxn fun t => { t with applied := all })

/-- A committed switch whose instants have not been taken yet is taken with the transaction. -/
def finishSwitch (s : State) : State :=
  match s.prg.sw with
  | some w =>
    let s1 := if w.done then s
      else match execSwitchCommit s with
        | .next t => t
        | _ => s
    switchNow w s1
  | none => s

/-- The end of an applied transaction. -/
def endApplied (x : Nat) (s : State) : State :=
  let s1 := event 0x0406 (det [(8, x)]) s
  let s2 := (s1.modPrg fun p => { p with entries := [] }).modTxn fun t =>
    { t with
      phase := .none, objs := [], rws := [], switch := none, required := [], acked := [], apply := none, lastTxn := t.num, lastStatus := 0,
      lastReason := 0, saveDue := some x, saved := false }
  match s.txn.apply with
  | some n => endDesc s.txn.owner n (doneOk []) s2
  | none => s2

/-- The exchange versions at a switch (R253): those of a writer that a TASK entry with FLAGS[1] names are carried to the new one, in its
slots; the others stop counting. -/
def carryVersions (es : List MapEntry) (k : Option Schedule) (s : State) : State :=
  let heir (w : Nat) : Option (Nat × Nat × Nat) :=
    (es.find? fun e => e.kind == 8 && e.old == w && e.flags / 2 % 2 == 1).bind fun e =>
      (k.bind fun x => x.find e.new).map fun y => (y.task, y.xout, y.xsize)
  s.modTsk fun t =>
    { t with
      versions := t.versions.filterMap fun v => (heir v.writer).map fun n => { v with writer := n.1, xout := n.2.1, xsize := n.2.2 },
      rels := t.rels.map fun r => { r with version := r.version.bind fun v => heir v.1 } }

/-- TXN_APPLY_INSTANT (R440): X of a committed transaction. -/
def execTxnApplyInstant (s : State) : Host.Outcome State Fault Refusal :=
  match s.txn.phase with
  | .committed =>
    if s.txn.x ≤ s.clk.ct then
      let s1 := finishSwitch s
      let es := s1.prg.entries
      let s2 := if s.txn.switch.isSome && runsProgram s then carryVersions es ((objOf s.txn.objs 1 0).map scheduleOf) s1 else s1
      ok (runReads (endApplied s.txn.x (applySet s.txn.objs s.txn.rws es (edgeEntries es) s.txn.x s2)))
    else ok s
  | _ => ok s

/-! ## Abandoning (R441) -/

/-- An uncommitted transaction is abandoned, with class 0x0408. -/
def abandonTxn (cause : Nat) (s : State) : State :=
  match s.txn.phase with
  | .none => s
  | .committed => s
  | _ =>
    let s1 := mirror .txnAbandon (dropTxn stAborted.toNat 0 (event 0x0408 (det [(1, cause)]) (abortRings s)))
    match s.txn.apply with
    | some n => endDesc s.txn.owner n (doneWith stAborted 0) s1
    | none => s1

/-- TXN_ABANDON: BAD_STATE after D_T. -/
def doTxnAbandon (q : RingId) (_ : Outst) (s : State) : State × Work :=
  if s.txn.phase == .none || s.txn.owner != q then (s, .finish (doneWith stTxnConflict 0))
  else if s.txn.phase == .committed || (s.txn.phase == .applying && decide (s.txn.dT ≤ s.clk.ct)) then (s, .finish (doneWith stBadState 0))
  else (abandonTxn 1 s, .finish (doneOk []))

/-- TXN_ABANDON (R441). -/
def execTxnAbandon (q : RingId) (s : State) : Host.Outcome State Fault Refusal := ok (serve q 0x14 s (doTxnAbandon q))

/-- TXN_IDLE_TIMEOUT (R441): 600 s without a transaction opcode from the owner. -/
def execTxnIdleTimeout (s : State) : Host.Outcome State Fault Refusal :=
  if (s.txn.phase == .opened || s.txn.phase == .checked) && decide (s.txn.lastOpAt + 600000000000 ≤ s.clk.now) then ok (abandonTxn 2 s)
  else ok s

/-! ## Reading (R432, R660) -/

/-- The kinds staged as bits: bit k − 1 for kind k, bit 6 for a switch. -/
def stagedKinds (s : State) : Nat :=
  ((List.range 5).map fun k => bit (s.txn.objs.any fun o => o.kind == k + 1) * 2 ^ k).sum + bit (!s.txn.rws.isEmpty) * 32 + bit s.txn.switch.isSome * 64

/-- TXN_STATUS. -/
def doTxnStatus (_ : Outst) (s : State) : State × Work :=
  (s, .finish (doneOk (fields [(1, s.txn.phase.code), (1, stagedKinds s), (6, 0), (8, s.txn.xReg), (8, if s.txn.phase == .none then 0 else s.txn.dT)])))

/-- TXN_STATUS (R432). -/
def execTxnStatus (q : RingId) (s : State) : Host.Outcome State Fault Refusal := ok (serve q 0x15 s doTxnStatus)

/-- One entry of a TXN_READ. -/
def readObj (kind ring : Nat) (bs : List Byte) : List Byte :=
  fields [(1, kind), (1, ring), (2, 0), (4, bs.length)] ++ fitTo (roundUp bs.length 8) bs

/-- RWS words as a kind 6 object. -/
def rwsObject (l : List (Nat × W32)) : List Byte := l.flatMap fun x => fields [(4, x.1), (4, x.2.toNat)]

/-- The objects of kinds 1 to 5 in ascending kind and ring. -/
def objEntries (l : List StagedObj) : List (List Byte) :=
  [(1, 0), (2, 0), (3, 0), (3, 1), (3, 2), (3, 3), (4, 0), (5, 0)].filterMap fun (k, r) => (objOf l k r).map (readObj k r)

/-- The applied set as entries. -/
def appliedEntries (s : State) : List (List Byte) := objEntries s.txn.applied ++ [readObj 6 0 (rwsObject (rwsList s.rws))]

/-- The staged set as entries. -/
def stagedEntries (s : State) : List (List Byte) :=
  objEntries s.txn.objs ++ (if s.txn.rws.isEmpty then [] else [readObj 6 0 (rwsObject s.txn.rws)]) ++
    match s.txn.switch with
    | some w => [readObj 0x80 0 (fields [(1, w.bank), (7, 0), (8, w.x)])]
    | none => []

/-- TXN_READ. -/
def doTxnRead (q : RingId) (e : Outst) (s : State) : State × Work :=
  let which := e.desc.par 24 1
  if 1 < which then (s, .finish (doneWith stBadDescriptor 0))
  else if which = 1 ∧ (s.txn.phase = .none ∨ s.txn.owner ≠ q) then (s, .finish (doneWith stTxnConflict 0))
  else
    let es := if which = 0 then appliedEntries s else stagedEntries s
    let fit := fitEntries e.desc.len es
    (bufWrite e.desc 0 fit.flatten s,
      .finish { status := if fit.length = es.length then stOk else stNoSpace, detail := 0, result := fields [(4, fit.flatten.length)] })

/-- TXN_READ (R660). -/
def execTxnRead (q : RingId) (s : State) : Host.Outcome State Fault Refusal := ok (serve q 0x16 s (doTxnRead q))

/-! ## The saved set (R440, R518) -/

/-- The first page of the saved configuration (R517). -/
def configPage : Nat := 0xE100

/-- CONFIG_SAVE (R440, R518): within 50 ms of X the applied set is saved as a group of kind 2, where it fits 960 KiB. -/
def execConfigSave (cut : Option Nat) (s : State) : Host.Outcome State Fault Refusal :=
  match s.txn.saveDue with
  | none => ok s
  | some _ =>
    let bs := (appliedEntries s).flatten
    let s1 := s.modTxn fun t => { t with saveDue := none }
    if 983040 < bs.length then ok (event 0x070D (det [(4, bs.length)]) s1)
    else
      let r := saveGroup 2 0 configPage bs.length (pagesOf (bs.length / 256 + 1) bs) cut s1
      ok (r.2.modTxn fun t => { t with saved := r.1 })

/-- Parse the entries of a saved set: objects and RWS words; `fuel` bounds the number of entries. -/
def parseEntries : Nat → List Byte → List StagedObj × List (Nat × W32)
  | 0, _ => ([], [])
  | f + 1, bs =>
    if bs.length < 8 ∨ rd bs 0 1 = 0 then ([], [])
    else
      let n := rd bs 4 4
      let r := parseEntries f (bs.drop (8 + roundUp n 8))
      if rd bs 0 1 = 6 then (r.1, rwsEntries (slice bs 8 n) ++ r.2)
      else ({ kind := rd bs 0 1, ring := rd bs 1 1, bytes := slice bs 8 n } :: r.1, r.2)

/-- The saved set, where it can be read. -/
def savedSet (s : State) : Option (List StagedObj × List (Nat × W32)) × State :=
  match committedGroup s 2 with
  | none => (none, s)
  | some j =>
    let r := readPages j.first j.count s
    (r.1.map fun bs => parseEntries 10 (bs.take j.bytes), r.2)

/-- The mode of each metering point at a power-up: that of the saved set, 0 where none is saved (MTR_Pp_CFG.MODE, R440; DEDUCED, log
entry 145: the save pages of R498 hold no mode). -/
def restoreModes (s : State) : State :=
  match savedSet s with
  | (some (_, ws), s1) =>
    let mode (i : Fin 8) : W32 := ((ws.reverse.find? fun x => x.1 == mtrOff i.val 0).map fun x => x.2 &&& 7#32).getD 0
    let put (i : Fin 8) (w : W32) : W32 := (w &&& ~~~ 7#32) ||| mode i
    (s1.modRws fun r => { r with mtrCfg := Vector.ofFn fun i : Fin 8 => put i (r.mtrCfg.get i) }).modMtr fun m =>
      { m with points := Vector.ofFn fun i : Fin 8 => { m.points.get i with cfg := put i (m.points.get i).cfg } }
  | (none, s1) => s1

end Sys2Proof.Machine
end

