-- ==== Sys2Proof/Machine/OutFrames.lean ====
section
/-! DEFINITION. OUT frames: which stations get one at a cut-off, under which settings, and when they leave (R318, R324, R328, R333, R334, R352). -/

namespace Sys2Proof.Machine

/-! ## The settings that govern an output instant (R324, R352) -/

/-- A committed transaction applies at or before an output instant that is still to come: its settings govern the OUT frames of that instant
(R352). -/
def txnGoverns (s : State) (instant : Nat) : Bool := s.txn.phase == .committed && decide (s.txn.x ≤ instant)

/-- A decided inauguration of the ring does so. -/
def inaugGoverns (s : State) (r : StraitId) (instant : Nat) : Bool :=
  match (ringOf s r).mode with
  | some m => m.decided == some true && m.numbering.isSome && decide (m.x ≤ instant)
  | none => false

/-- The network schedule that governs the OUT frames of an output instant. -/
def schedAt (s : State) (r : StraitId) (instant : Nat) : Option NetSched :=
  if txnGoverns s instant then (newObj s 3 r.val).map netSchedOf else (ringOf s r).sched

/-- The I/O map that does. -/
def mapAt (s : State) (instant : Nat) : List IoEntry := if txnGoverns s instant then (newSet s).iomap else s.tsk.iomap

/-- The lead with which the OUT frames of a ring leave before an output instant. -/
def leadAt (s : State) (r : StraitId) (instant : Nat) : Nat :=
  match txnGoverns s instant, schedAt s r instant with
  | true, some k => leadOutNs (pairMember s) (mapAt s instant) r.val k
  | _, _ => (ringOf s r).leadOut

/-- The OUT stream of a station for an output instant begins a new instance there, before the settings are in force (R324, R358). -/
def newInstance (s : State) (r : StraitId) (instant : Nat) (e : StationEntry) : Bool :=
  inaugGoverns s r instant ||
    (txnGoverns s instant && ((entryOf (ringOf s r).sched e.station).map fun o => o.outStream) != some e.outStream)

/-- GEN and SEQ of the OUT frame of a station for an output instant. -/
def outStamp (s : State) (r : StraitId) (instant : Nat) (e : StationEntry) : Byte × W32 :=
  let x := stationOf s r e.station
  if newInstance s r instant e then (if inaugGoverns s r instant then x.outGen else nextGen s e.outStream, x.outNext.getD 0) else (x.outGen, x.outSeq)

/-- A station after an OUT frame has been sent to it. -/
def Station.sentOut (next : Bool) (x : Station) : Station :=
  if next then { x with outNext := some (x.outNext.getD 0 + 1) } else { x with outSeq := x.outSeq + 1 }

/-! ## OUT frames (R318, R328, R333, R334) -/

/-- Insert a station entry by rising TX_SLOT. -/
def insertSlot (e : StationEntry) : List StationEntry → List StationEntry
  | [] => [e]
  | x :: l => if e.slot < x.slot then e :: x :: l else x :: insertSlot e l

/-- The stations of a ring that get an OUT frame for an output instant: with mapped outputs, and not mismatched in STOPPED (R351), in ascending
TX_SLOT. -/
def outStations (s : State) (r : StraitId) (instant : Nat) : List StationEntry :=
  match schedAt s r instant with
  | some k =>
    (k.stations.filter fun e =>
      e.hasOut && !(stationPoints (mapAt s instant) r.val e.station true).isEmpty &&
        !((stationOf s r e.station).dropped && (stationOf s r e.station).cause == 3)).foldl (fun l e => insertSlot e l) []
  | none => []

/-- The value of a point in an OUT frame: that of the image, and SUBST for a point that the image does not hold. -/
def outPoint (ps : List IoEntry) (img : List (W32 × IoValue)) (pt : W32) : IoValue :=
  (assoc? pt img).getD (((ps.find? fun e => e.point == pt).map IoEntry.substituted).getD { value := 0, quality := 1 })

/-- The OUT frame of a station for an output instant. -/
def outFrame (s : State) (r : StraitId) (instant : Nat) (img : List (W32 × IoValue)) (e : StationEntry) : Strait :=
  let p := epochsAt s r instant
  let g := outStamp s r instant e
  let ps := stationPoints (mapAt s instant) r.val e.station true
  { typ := 1, west := false, sender := senderBit s, hops := 0, stream := e.outStream, gen := g.1.toNat, aEpoch := p.1, mEpoch := p.2,
    seq := g.2.toNat, src := domainAddr r.val, dst := stationAddr r.val e.station, time := instant,
    payload := packCyclic ps (outPoint ps img) }

/-- Send the OUT frames of a ring for an output instant, back to back in ascending TX_SLOT (R328). -/
def sendOuts (r : StraitId) (instant : Nat) (img : List (W32 × IoValue)) (s : State) : State :=
  (outStations s r instant).foldl (fun s e =>
    modStation r e.station (Station.sentOut (newInstance s r instant e)) (sendNow r (outFrame s r instant img e) s)) s

/-- The rings that a task writes, in use and inaugurated (R349), whose cut-off for an output instant has come. -/
def dueRings (s : State) (outs : List IoEntry) (instant : Nat) (sent : List StraitId) : List StraitId :=
  (allFin 4).filter fun r =>
    (ringOf s r).active && (ringOf s r).count != 0 && (ringOf s r).sched.isSome && !sent.contains r && (outs.any fun e => addrRing e.point == r.val) &&
      decide (instant ≤ s.clk.ct + leadAt s r instant)

/-- Note that the OUT frames of a ring have left for a release. -/
def markSent (r : Release) (ring : StraitId) (s : State) : State :=
  modRel r.task r.cycle (fun x => { x with sent := ring :: x.sent }) s

/-- Send the OUT frames of a release on every ring whose cut-off has come. -/
def sendRelease (r : Release) (s : State) : State :=
  (dueRings s r.outs r.instant r.sent).foldl (fun s ring =>
    sendOuts ring r.instant (forcedImage s r.instant r.image) (markSent r ring s)) s

/-- Send the SUBST frames of a task on every ring whose cut-off for O_s has come (R218). -/
def sendTail (t : StopTail) (s : State) : State :=
  (dueRings s (taskOuts s t.task) t.instant t.sent).foldl (fun s ring =>
    sendOuts ring t.instant (stopImage s t.task) (modTail t.task (fun x => { x with sent := ring :: x.sent }) s)) s

/-- The OUT frames that are due leave, unless the module may send none (R334). -/
def sendDue (s : State) : State :=
  if commandsOutputs s then
    let s1 := (s.tsk.rels.filter fun r => r.cut).foldl (fun s r => sendRelease r s) s
    (s1.tsk.tails.filter fun t => t.cut).foldl (fun s t => sendTail t s) s1
  else s

/-- CUT_OFF (R193, R194, R328). -/
def execCutOff (s : State) : Host.Outcome State Fault Refusal := ok (sendDue (cutTails (cutDue s)))

end Sys2Proof.Machine
end

