-- ==== Sys2Proof/Machine/Role.lean ====
section
/-! DEFINITION. A standby that leaves sync (R378, R379, R387, R394, R401). -/

namespace Sys2Proof.Machine

/-- One hour in ns. -/
def hourNs : Nat := 3600000000000

/-- Change the pair state, and with it the time role (R70, R379). -/
def setRole (p : PairState) (s : State) : State := selectRole (setPairState p s)

/-- The instants that lie within the last hour. -/
def lastHour (s : State) (l : List Nat) : List Nat := l.filter fun t => decide (s.clk.now < t + hourNs)

/-- A standby that is no longer synchronised runs the schedule no more: its outputs go to their safe state (R363). -/
def stopStandby (s : State) : State := if runsProgram s then enterStopped 0 s else s

/-- A standby becomes STANDBY_DETACHED; `fixed` where it waits for PAIR_JOIN. -/
def detach (fixed : Bool) (s : State) : State :=
  setRole .standbyDetached
    ((stopStandby s).modPair fun p => { p with fixed := fixed, joinStep := 0, joinFinal := false, dirty := 0 })

/-- A synchronised standby leaves sync (R379, R387): it joins again from step 3, or at the third departure within a rolling hour
waits detached for PAIR_JOIN. -/
def leaveSync (cause : Nat) (s : State) : State :=
  match s.pair.state with
  | .standbySynced =>
    let ds := lastHour s s.pair.departures ++ [s.clk.now]
    let s1 := (event 0x0308 (det [(1, cause)]) s).modPair fun p => { p with departures := ds, resyncs := satInc p.resyncs 1 }
    if 3 ≤ ds.length then detach true s1
    else
      setRole .standbyJoining
        ((stopStandby s1).modPair fun p => { p with joinStep := 3, joinAt := s.clk.now, joinFinal := false, dirty := 0 })
  | _ => s

end Sys2Proof.Machine
end

