-- ==== Sys2Proof/Machine/NetBase.lean ====
section
/-! DEFINITION. What the network commands share: the windows of a ring cycle, mode frames, Class A transactions, breaks, and the NET
registers (R308, R325, R327, R335, R337, R344, R353). -/

namespace Sys2Proof.Machine

/-! ## The ring cycle (R327, R335) -/

/-- The cycle period of a ring in ns, 0 without a schedule. -/
def ringNs (x : Ring) : Nat := (x.sched.map fun k => k.period * 1000).getD 0

/-- The input instant of a ring cycle. -/
def inputInstant (s : State) (r : StraitId) (j : Nat) : Nat :=
  s.tsk.anchor + (((ringOf s r).sched.map fun k => k.inPhase * 1000).getD 0) + j * ringNs (ringOf s r)

/-- The due instant of a ring cycle. -/
def dueCt (s : State) (r : StraitId) (j : Nat) : Nat := inputInstant s r j + (ringOf s r).leadIn

/-- The writer's entry of a ring. -/
def writerOf (s : State) (r : StraitId) : Option TaskEntry :=
  ((ringOf s r).sched.bind fun k => k.writer).bind (taskEntry s)

/-- The closed intervals of a ring, as (first start, length): from 13 µs before each window to its end (R335). -/
def closedSpans (s : State) (r : StraitId) : List (Nat × Nat) :=
  if cycling s r then
    let x := ringOf s r
    (inputInstant s r 0 - 13000, x.leadIn + 13000) ::
      match writerOf s r with
      | some w => [(s.tsk.anchor + w.phase * 1000 + w.offset - x.leadOut - 13000, x.leadOut + 13000)]
      | none => []
  else []

/-- The closed interval that holds an instant ends there; `none` while the gates are open. -/
def closedUntil (p : Nat) (spans : List (Nat × Nat)) (t : Nat) : Option Nat :=
  spans.findSome? fun (a, n) =>
    if p = 0 ∨ t < a then none
    else
      let d := (t - a) % p
      if d < n then some (t + (n - d)) else none

/-- The instant at which the next closed interval after an open instant begins. -/
def nextClosed (p : Nat) (spans : List (Nat × Nat)) (t : Nat) : Option Nat :=
  (spans.map fun (a, _) => if t < a ∨ p = 0 then a else a + ((t - a) / p + 1) * p).min?

/-- The gates of a ring are closed at an instant. -/
def gateShut (s : State) (r : StraitId) (t : Nat) : Bool := (closedUntil (ringNs (ringOf s r)) (closedSpans s r) t).isSome

/-- gate_send of R337: from `t`, spend `n` ns of gate time only; `fuel` bounds the intervals passed. -/
def gateSpend (p : Nat) (spans : List (Nat × Nat)) : Nat → Nat → Nat → Nat
  | 0, t, n => t + n
  | f + 1, t, n =>
    match closedUntil p spans t with
    | some e => gateSpend p spans f e n
    | none =>
      match nextClosed p spans t with
      | some c => if t + n ≤ c then t + n else gateSpend p spans f c (n - (c - t))
      | none => t + n

/-- gate_pass of R337: every closed interval that begins between departure and `t` is added to `t`. -/
def gatePass (p : Nat) (spans : List (Nat × Nat)) (dep t : Nat) : Nat :=
  t + (spans.map fun (a, n) =>
    let before (u : Nat) : Nat := if u ≤ a ∨ p = 0 then 0 else (u - 1 - a) / p + 1
    (before t - before dep) * n).sum

/-- The longest path of a ring in ns: H × (RES + LINK) (R308, R344). -/
def hopNs (isPair : Bool) (k : NetSched) : Nat :=
  let res := max 600 (largest (k.stations.map fun e => e.res) * 100)
  let link := max (largest (k.stations.map fun e => e.linkNs)) k.pairLink
  (k.stations.length + bit isPair) * (res + link)

/-- The active module originates Class A, mode-change and discovery frames (R316, R364). -/
def originates (s : State) (r : StraitId) : Bool := hasAuthority s && s.sys.selfTestEnded && !noFirmware s && (ringOf s r).active

/-! ## Mode frames (R353) -/

/-- The schedule whose settings a mode change carries: the staged one, or the one in force. -/
def modeSched (s : State) (r : StraitId) (m : ModeChange) : Option NetSched :=
  if m.numbering.isSome then (ringOf s r).sched else (newObj s 3 r.val).map netSchedOf

/-- The head of a PREPARE. -/
def prepareHead (s : State) (r : StraitId) (m : ModeChange) (k : NetSched) (n : NewSet) (anchor : Nat) : List Byte :=
  let t := n.sched.getD { align := 1, imageId := 0, aFrames := 0, edges := 0, tasks := [] }
  let outPhase := (k.writer.bind t.find).map fun e => e.phase + e.offset / 1000
  beFields [(8, m.x), (8, m.d), (8, anchor), (4, k.period), (4, k.inPhase), (4, outPhase.getD 0xFFFFFFFF), (4, n.rws.netSeed.toNat),
    (2, m.newA.toNat), (2, m.newM.toNat), (2, leadOutNs (pairMember s) n.iomap r.val k / 1000),
    (2, leadInNs (pairMember s) n.iomap r.val k / 1000)]

/-- A settings record: the station's identity, its entry, and its streams with their generations from X. -/
def settingsRecord (s : State) (r : StraitId) (k : NetSched) (n : NewSet) (identity : W64) (e : StationEntry) : List Byte :=
  let x := newStreams s (entryOf (ringOf s r).sched e.station) (some e) (stationOf s r e.station)
  let wIn := largest ((k.stations.filterMap (inLen n.iomap r.val)).map wireBytes) * 8
  beFields [(8, identity.toNat), (1, e.station), (1, e.slot), (2, 0), (4, e.slot * wIn), (2, e.outStream), (2, e.inStream),
    (2, e.eventStream), (1, x.outGen.toNat), (1, x.inRef.gen.toNat), (1, x.aRef.gen.toNat), (1, 0), (2, (outLen n.iomap r.val e).getD 0),
    (2, (inLen n.iomap r.val e).getD 0), (2, e.rspUs)]

/-- The set in force, as a new set. -/
def presentSet (s : State) : NewSet :=
  { sched := s.tsk.sched, iomap := s.tsk.iomap, nets := [], rws := s.rws }

/-- The identity that a mode change gives a station number. -/
def modeIdentity (s : State) (r : StraitId) (m : ModeChange) (n : Nat) : Option W64 :=
  match m.numbering with
  | some l => ((l[n]?).join).map fun d => d.identity
  | none => if n < (ringOf s r).count then some (stationOf s r n).identity else none

/-- Cut a list into pieces of `n`. -/
def chunks {α : Type} (n : Nat) : Nat → List α → List (List α)
  | 0, _ => []
  | _, [] => []
  | f + 1, l => l.take n :: chunks n f (l.drop n)

/-- The entry of a station number without one in the schedule: it takes no part in I/O (R351). -/
def blankEntry (n : Nat) : StationEntry :=
  { station := n, slot := 0, res := 0, hasOut := false, hasIn := false, typ := 0, identity := 0, outStream := 0, inStream := 0, eventStream := 0,
    rspUs := 0, linkNs := 0 }

/-- The entries whose records a mode change carries: those of the schedule, and of every further number that an inauguration gives (R350). -/
def modeEntries (k : NetSched) (m : ModeChange) : List StationEntry :=
  k.stations ++ (((List.range (m.numbering.getD []).length).filter fun n => (entryOf (some k) n).isNone).map blankEntry)

/-- The PREPARE payloads of a mode change for some stations, at most 44 records each (R353). -/
def preparePayloads (s : State) (r : StraitId) (m : ModeChange) (only : StationEntry → Bool) : List (List Byte) :=
  match modeSched s r m with
  | none => []
  | some k =>
    let staged := m.numbering.isNone && s.txn.phase != .none && s.txn.x == m.x
    let n := if staged then newSet s else presentSet s
    let anchor := if staged && (objOf s.txn.objs 1 0).isSome then m.x else s.tsk.anchor
    let recs := ((modeEntries k m).filter only).filterMap fun e => (modeIdentity s r m e.station).map fun i => settingsRecord s r k n i e
    (chunks 44 8 recs).map fun c => prepareHead s r m k n anchor ++ c.flatten

/-- The payload of COMMIT and ABORT. -/
def modeEnd (m : ModeChange) : List Byte := beFields [(2, m.newA.toNat), (2, m.newM.toNat), (8, m.x)]

/-- Send the PREPARE frames of a mode change. -/
def sendPrepare (r : StraitId) (m : ModeChange) (dst : Nat) (only : StationEntry → Bool) (s : State) : State :=
  (preparePayloads s r m only).foldl (fun s p => sendNode r 5 0 0 dst p s) s

/-- The mode change that a catch-up stands for: the settings and epochs in force (R357). -/
def catchUpMode (s : State) (r : StraitId) (c : CatchUp) : ModeChange :=
  let e := (ringOf s r)
  { x := c.x, d := c.x, newA := e.aEpoch, newM := e.mEpoch,
    numbering := some ((List.range e.count).map fun n =>
      some { identity := (stationOf s r n).identity, typ := (stationOf s r n).typ, res := (stationOf s r n).res, west := false, hops := n }),
    required := [], acked := [], decided := none }

/-- The first input instant at or after an instant. -/
def inputFrom (s : State) (r : StraitId) (t : Nat) : Nat :=
  let i := inputInstant s r 0
  if t ≤ i ∨ ringNs (ringOf s r) = 0 then max i t else i + roundUp (t - i) (ringNs (ringOf s r))

/-- Send a catch-up to a station: its PREPARE with a new X (R357). -/
def sendCatchUp (r : StraitId) (n : Nat) (s : State) : State :=
  let c : CatchUp := { sentAt := s.clk.now, x := inputFrom s r (s.clk.ct + 3 * ringNs (ringOf s r)), acked := false }
  sendPrepare r (catchUpMode s r c) (stationAddr r.val n) (fun e => e.station == n) (modStation r n (fun x => { x with catchUp := some c }) s)

/-- Start catch-ups of the stations that lag or whose latch is to be cleared, and repeat them every 100 ms until they are
acknowledged (R357, R387). -/
def catchUps (r : StraitId) (s : State) : State :=
  ((List.range (ringOf s r).count).filter fun n =>
    let x := stationOf s r n
    match x.catchUp with
    | some c => !c.acked && (c.x == 0 || decide (c.sentAt + 100000000 ≤ s.clk.now))
    | none => x.lagging).foldl (fun s n => sendCatchUp r n s) s

/-! ## Class A transactions (R325, R337, R338) -/

/-- 10 ms in ns. -/
def reuseNs : Nat := 10000000

/-- A transaction tag that is neither in use nor freed within the last 10 ms, with the generation of its next use (R325). -/
def freeTag (s : State) (r : StraitId) : Nat × Byte :=
  let x := ringOf s r
  let busy (t : Nat) : Bool :=
    (x.atxns.any fun a => a.tag == t) || (x.tags.any fun y => y.1 == t && decide (s.clk.now < y.2.2 + reuseNs))
  let t := ((List.range 4096).map fun i => (x.nextTag + i) % 65536).find? (fun t => !busy t)
  let tag := t.getD x.nextTag
  (tag, ((assoc? tag x.tags).map fun y => y.1 + 1).getD 0)

/-- The frames of a message: subheader and up to 1,456 bytes each (R319). -/
def fragments (modul op : Nat) (msg : List Byte) : List (List Byte) :=
  let cs := if msg.isEmpty then [[]] else chunks 1456 12 msg
  (cs.zipIdx).map fun (c, i) => beFields [(1, i), (1, cs.length), (1, modul), (1, op), (2, msg.length), (2, 0)] ++ c

/-- The wire time of a message in ns (R313). -/
def messageNs (n : Nat) : Nat :=
  ((List.range (max 1 ((n + 1455) / 1456))).map fun i => wireBytes (8 + min 1456 (n - 1456 * i)) * 8).sum

/-- The longest response that an OP allows: a whole message, and for station information its four counts (R319, R337, R361; DEDUCED,
log entry 140). -/
def longestRsp (op : Nat) : Nat := if op = 4 then 16 else 16384

/-- The OP of a transaction. -/
def ATxn.op (a : ATxn) : Nat := (a.frames.head?.map fun f => rdBe f 3 1).getD 0

/-- The completion time of R337 for a request that is sent from `t` on. -/
def completionCt (s : State) (r : StraitId) (k : NetSched) (station req rsp t : Nat) : Nat :=
  let p := k.period * 1000
  let sp := closedSpans s r
  let hop := hopNs (pairMember s) k
  let t1 := gateSpend p sp 256 t (messageNs req)
  let t2 := gatePass p sp t1 (t1 + hop)
  let t3 := t2 + ((entryOf (some k) station).map fun e => e.rspUs * 1000).getD 0
  let t4 := gateSpend p sp 256 t3 (messageNs rsp)
  gatePass p sp t4 (t4 + hop)

/-- Send the frames of a transaction. -/
def sendRequest (r : StraitId) (a : ATxn) (s : State) : State :=
  a.frames.foldl (fun s p => sendNode r 3 a.tag a.gen.toNat (stationAddr r.val a.station) p s) s

/-- Open a transaction and send its request. -/
def openA (r : StraitId) (desc : Option (RingId × Nat)) (station modul op : Nat) (msg : List Byte) (space off deadline : Nat) (s : State) :
    State :=
  let t := freeTag s r
  let a : ATxn :=
    { tag := t.1, gen := t.2, station := station, desc := desc, frames := fragments modul op msg, space := space, off := off,
      deadline := deadline, attempts := 1, sentAt := s.clk.now, frags := [] }
  let p := ringNs (ringOf s r)
  let until_ := gateSpend p (closedSpans s r) 256 (max s.clk.ct (ringOf s r).sentUntil) (messageNs msg.length)
  sendRequest r a (modStrait r (fun x =>
    { x with atxns := x.atxns ++ [a], nextTag := (t.1 + 1) % 65536, sentUntil := until_, tags := x.tags.filter fun y => y.1 != t.1 }) s)

/-- A transaction is over: its tag is freed (R325). -/
def closeA (r : StraitId) (a : ATxn) (s : State) : State :=
  modStrait r (fun x => { x with atxns := x.atxns.filter fun y => y.tag != a.tag, tags := x.tags ++ [(a.tag, a.gen, s.clk.now)] }) s

/-- The request of the descriptor whose wait is named fails with a status, with class 0x020C (R338). -/
def failA (r : StraitId) (a : ATxn) (status : Byte) (s : State) : State :=
  let s1 := event 0x020C (det [(1, r.val), (1, a.station), (2, a.tag), (1, a.attempts)]) (closeA r a s)
  match a.desc with
  | some (q, n) => endDesc q n (doneWith status 0) s1
  | none => s1

/-! ## Breaks (R348, R359) -/

/-- The last station reachable from the east side and the first from the west side, where a ring is broken. -/
def setBreak (r : StraitId) (e w : Nat) (s : State) : State :=
  let x := ringOf s r
  let be : Byte := BitVec.ofNat 8 e
  let bw : Byte := BitVec.ofNat 8 w
  if x.broken ∧ x.breakE = be ∧ x.breakW = bw then s
  else event 0x0204 (det [(1, r.val), (1, be.toNat), (1, bw.toNat)])
    (modStrait r (fun x => { x with broken := true, breakE := be, breakW := bw }) s)

/-- A ring without a break. -/
def clearBreak (r : StraitId) (s : State) : State :=
  if (ringOf s r).broken then
    event 0x0205 (det [(1, r.val)]) (modStrait r (fun x => { x with broken := false, breakE := 0xFF, breakW := 0xFF }) s)
  else s

/-- A further break between the stations `e` and `w` (0xFF for none on that side): the break nearest each side is shown
(R359). -/
def addBreak (r : StraitId) (e w : Nat) (s : State) : State :=
  let x := ringOf s r
  let key (n : Nat) : Nat := if n = 255 then 0 else n + 1
  let e1 := if x.broken && decide (key x.breakE.toNat < key e) then x.breakE.toNat else e
  let far (n : Nat) : Nat := if n = 255 then 256 else n
  let w1 := if x.broken && decide (far w < far x.breakW.toNat) then x.breakW.toNat else w
  setBreak r e1 w1 s

/-- The break that a lost link at one of the module's own ports makes (R308). -/
def ownBreak (s : State) (r : StraitId) (west : Bool) : Nat × Nat :=
  let n := (ringOf s r).count
  if pairMember s && west == s.sys.pairId then (n - 1, 0) else if west then (n - 1, 255) else (255, 0)

/-! ## The NET registers (R305, R360, R361) -/

/-- NET_PORTn_STATUS. -/
def portWord (s : State) (p : PortId) : Nat :=
  let x := s.net.ports.get p
  x.fcsErr.toNat * 65536 + (if !x.up then 0 else if x.speed = 1000 then 2 else 1) * 4 + bit x.full * 2 + bit (portUp s p)

/-- NET_Rr_STATE. -/
def stateWord (s : State) (r : StraitId) : Nat :=
  let x := ringOf s r
  let change := match x.mode with
    | some m => if m.decided = some true then 2 else if m.decided = none then 1 else 0
    | none => 0
  let act := x.active && x.sched.isSome && x.count != 0
  (x.count - 1) % 256 * 16777216 + x.breakE.toNat * 65536 + x.breakW.toNat * 256 + x.inaug % 4 * 16 + change * 4 + bit x.broken * 2 + bit act

/-- A map of 32 stations from number `32 * m` on. -/
def stationMap (s : State) (r : StraitId) (m : Nat) (p : Station → Bool) : Nat :=
  ((List.range 32).map fun i => bit (p (stationOf s r (32 * m + i))) * 2 ^ i).sum

/-- A register of the set of a ring, by its relative offset. -/
def ringWord (s : State) (r : StraitId) (off : Nat) : Nat :=
  let x := ringOf s r
  if off = 0 then stateWord s r
  else if off = 4 then x.aEpoch.toNat * 65536 + x.mEpoch.toNat
  else if off = 8 then x.leadOut / 1000 % 65536 * 65536 + x.leadIn / 1000 % 65536
  else if off = 0x10 then x.dup.toNat
  else if off = 0x14 then x.old.toNat
  else if off = 0x18 then x.crcErr.toNat
  else if off = 0x1C then x.late.toNat
  else if off = 0x20 then x.miss.toNat
  else if off = 0x24 then x.hops.toNat
  else if 0x40 ≤ off ∧ off < 0x60 then stationMap s r ((off - 0x40) / 4) fun y => y.dropped
  else if 0x60 ≤ off ∧ off < 0x80 then stationMap s r ((off - 0x60) / 4) fun y => y.lagging
  else if off = 0x80 then x.divCount.toNat * 65536 + x.divStation.toNat
  else 0

end Sys2Proof.Machine
end

