-- ==== Sys2Proof/Machine/NetRx.lean ====
section
/-! DEFINITION. Receiving frames: forwarding, acceptance and what each frame type does (R306, R310, R316 to R323, R331, R336, R339 to R342,
R347, R353, R356, R357). -/

namespace Sys2Proof.Machine

/-! ## Helpers -/

/-- The oldest descriptor of an opcode that waits, on any ring pair, and meets a test. -/
def waitingDesc (op : Nat) (p : Desc → Bool) (s : State) : Option (RingId × Outst) :=
  ((allFin 32).flatMap fun q =>
    ((s.hif.rings.get q).outst.filter fun e => e.desc.opcode.toNat == op && e.waiting && e.ended.isNone && p e.desc).map fun e => (q, e)).foldl
    (fun (b : Option (RingId × Outst)) x =>
      match b with
      | some y => if x.2.fetchCt < y.2.fetchCt then some x else b
      | none => some x) none

/-- The station that a source address names on a ring (R315). -/
def srcStation (r : StraitId) (a : Nat) : Option Nat := if a / 256 = r.val then some (a % 256) else none

/-- The signed distance of two epochs (R321). -/
def epochDiff (a b : Nat) : Int := (BitVec.ofNat 16 a - BitVec.ofNat 16 b).toInt

/-- Advance one counter of a ring. -/
def countRing (r : StraitId) (f : Ring → Ring) (s : State) : State := modStrait r f s

/-- Count a second copy. -/
def countDup (r : StraitId) (s : State) : State := countRing r (fun x => { x with dup := satInc x.dup 1 }) s
/-- Count a frame that is old by epoch, generation or sequence. -/
def countOld (r : StraitId) (s : State) : State := countRing r (fun x => { x with old := satInc x.old 1 }) s
/-- Count a safety CRC failure. -/
def countCrc (r : StraitId) (s : State) : State := countRing r (fun x => { x with crcErr := satInc x.crcErr 1 }) s
/-- Count an IN frame accepted after its due instant. -/
def countLate (r : StraitId) (s : State) : State := countRing r (fun x => { x with late := satInc x.late 1 }) s
/-- Count a frame of a wrong version, a reserved type or a subheader out of its range (R316, R319, R320). -/
def countBad (r : StraitId) (s : State) : State := countRing r (fun x => { x with bad := satInc x.bad 1 }) s
/-- Count a frame at the hop limit. -/
def countHops (r : StraitId) (s : State) : State := countRing r (fun x => { x with hops := satInc x.hops 1 }) s

/-! ## Forwarding (R310, R335) -/

/-- The other ring port. -/
def otherPort (r : StraitId) (p : PortId) : PortId := if p = eastPort r then westPort r else eastPort r

/-- The frame as it is forwarded: HOPS increased by one. -/
def forwarded (bs : List Byte) : List Byte := putBytes bs 20 (beBytes 2 (rdBe bs 20 2 + 1))

/-- A forwarded frame other than OUT and IN waits while the gate is closed, and behind the frames that still wait (R335). -/
def heldBack (s : State) (r : StraitId) (typ : Nat) : Bool :=
  typ != 1 && typ != 2 && (gateClosed s r || (ringOf s r).queued)

/-- Forward a frame out of the other ring port. -/
def forward (r : StraitId) (p : PortId) (bs : List Byte) (s : State) : State :=
  if heldBack s r (straitOf bs).typ then
    modStrait r (fun x => { x with held := x.held ++ [{ port := some (otherPort r p), bytes := forwarded bs }] }) s
  else emitFrame (otherPort r p) (forwarded bs) s

/-- The module originated the frame: it removes it from the ring (R310). -/
def ownFrame (s : State) (r : StraitId) (f : Strait) : Bool := f.src == domainAddr r.val && f.sender == senderBit s

/-- A frame whose FCS proves bad while it is being forwarded ends with an FCS that fails; the exceptions are those of any frame (R310). -/
def forwardBad (r : StraitId) (p : PortId) (bs : List Byte) (s : State) : State :=
  let f := straitOf bs
  if isStrait bs && ownFrame s r f then s
  else if isStrait bs && decide (512 ≤ f.hops + 1) then countHops r s
  else if isStrait bs && !heldBack s r (straitOf bs).typ && portUp s (otherPort r p) then emit (.badFrame (otherPort r p) (forwarded bs)) s else s

/-! ## Messages for the host (R339, R340, R361) -/

/-- A REPORT (1) or unsolicited message (2) fills the oldest buffer that NET_A_RECV has supplied on the ring. -/
def pushMessage (r : StraitId) (kind station : Nat) (payload : List Byte) (s : State) : State :=
  match waitingDesc 0x42 (fun d => d.par 24 1 == r.val) s with
  | none => s
  | some (q, e) =>
    if e.desc.len < 16 + payload.length then endDesc q e.num (doneWith stNoSpace 0) s
    else
      endDesc q e.num (doneOk (fields [(2, payload.length)]))
        (bufWrite e.desc 0 (fields [(8, s.clk.ct), (1, kind), (1, station), (2, payload.length), (4, 0)] ++ payload) s)

/-! ## IN frames (R318, R331, R342) -/

/-- Take an IN frame of a station: its status word, and its values where it is in time for the present ring cycle. -/
def acceptIn (r : StraitId) (n : Nat) (f : Strait) (s : State) : State :=
  let x := stationOf s r n
  let w : W32 := BitVec.ofNat 32 (rdBe f.payload 0 4)
  let s1 := modStation r n (fun x => { x with status := w, unlocked := w.getLsbD 3 }) s
  let s2 := if w.getLsbD 3 && !x.unlocked then event 0x020D (det [(1, r.val), (1, n)]) s1 else s1
  if cycling s r then
    let j := (ringOf s r).cycle
    if f.time = inputInstant s r j ∧ s.clk.ct ≤ dueCt s r j ∧ !(ringOf s r).waiting then
      modStation r n (fun x =>
        { x with got := some { time := f.time, status := w, payload := f.payload.drop 4, crc := f.crc s.rws.netSeed } }) s2
    else if f.time + (ringOf s r).leadIn < s.clk.ct then countLate r s2
    else s2
  else s2

/-! ## Unsolicited messages and responses (R319, R336, R338, R339) -/

/-- The subheader of a fragment is out of its range (R319): the fragment count, the index, or the message length. -/
def badFragment (f : Strait) : Bool :=
  outRange 1 12 (rdBe f.payload 1 1) || decide (rdBe f.payload 1 1 ≤ rdBe f.payload 0 1) || outRange 1 16384 (rdBe f.payload 4 2)

/-- Take a fragment of an unsolicited message: the input points of the stream hold it, and its last fragment is the event. -/
def acceptMessage (r : StraitId) (n : Nat) (f : Strait) (s : State) : State :=
  let i := rdBe f.payload 0 1
  let c := rdBe f.payload 1 1
  let total := rdBe f.payload 4 2
  if rdBe f.payload 3 1 != 3 then s
  else
    let old := (stationOf s r n).events
    let msg := (putBytes (fitTo (if i = 0 then 1456 * i else max old.length (1456 * i)) old) (1456 * i) (f.payload.drop 8)).take total
    match streamTask s f.stream with
    | some t =>
      let s1 := modStation r n (fun x => { x with events := msg }) s
      if i + 1 = c ∧ runsProgram s then rawEvent t.task s.clk.ct none s1 else s1
    | none =>
      let s1 := modStation r n (fun x => { x with events := msg }) s
      if i + 1 = c then pushMessage r 2 n msg s1 else s1

/-- The counts that a station returns in its station information (R399): OUT frames accepted from SENDER 0 and 1, and second
copies from SENDER 0 and 1. -/
def infoCounts (msg : List Byte) : List Nat := [rdBe msg 0 4, rdBe msg 4 4, rdBe msg 8 4, rdBe msg 12 4]

/-- The hops of a station as NET_STATION_INFO gives them. -/
def hopByte (h : Option Nat) : Nat := (h.map fun n => min n 255).getD 255

/-- The 64 bytes of NET_STATION_INFO (R361). -/
def stationInfo (s : State) (r : StraitId) (n : Nat) (counts : List Nat) : List Byte :=
  let x := stationOf s r n
  fitTo 64 (fields ([(8, x.identity.toNat), (4, x.typ.toNat), (1, x.res), (1, hopByte x.hopsE), (1, hopByte x.hopsW), (1, 0), (4, x.status.toNat),
    (4, x.missCount.toNat)] ++ counts.map fun c => (4, c)))

/-- R399: the count of the standby's frames at a station has not risen since the previous read. -/
def judgeStandby (r : StraitId) (n : Nat) (counts : List Nat) (s : State) : State :=
  let k := bit (!s.sys.pairId)
  let c := counts.getD k 0 + counts.getD (2 + k) 0
  let s1 := modStation r n (fun x => { x with standbyCount := if mirrors s then some c else none }) s
  match (stationOf s r n).standbyCount with
  | some o => if mirrors s && c == o then event 0x030E (det [(1, r.val), (1, n)]) s1 else s1
  | none => s1

/-- The response to a transaction is complete. -/
def endA (r : StraitId) (a : ATxn) (status : Nat) (msg : List Byte) (s : State) : State :=
  let s1 := closeA r a s
  match a.desc with
  | none => judgeStandby r a.station (infoCounts msg) s1
  | some (q, num) =>
    match findDesc q num s1 with
    | none => s1
    | some e =>
      if e.desc.opcode.toNat = 0x44 then
        endDesc q num (doneOk []) (bufWrite e.desc 0 (stationInfo s1 r a.station (infoCounts msg)) s1)
      else
        let bs := msg.take a.space
        endDesc q num (doneOk (fields [(2, status), (2, bs.length), (1, a.attempts)])) (bufWrite e.desc a.off bs s1)

/-- Take a fragment of a response; a response whose tag was not issued is discarded (R326). -/
def acceptResponse (r : StraitId) (n : Nat) (f : Strait) (s : State) : State :=
  match (ringOf s r).atxns.find? fun a => a.tag == f.stream && a.gen.toNat == f.gen && a.station == n with
  | none => s
  | some a =>
    let i := rdBe f.payload 0 1
    let c := rdBe f.payload 1 1
    let fs := assocSet i (f.payload.drop 8) a.frags
    if (List.range c).all fun k => (assoc? k fs).isSome then
      endA r a (rdBe f.payload 6 2) ((((List.range c).map fun k => (assoc? k fs).getD []).flatten).take (rdBe f.payload 4 2)) s
    else
      modStrait r (fun x => { x with atxns := updFirst (fun y => y.tag == a.tag) (fun y => { y with frags := fs }) x.atxns }) s

/-! ## REPORT and DIAG (R323, R340, R341, R356, R387) -/

/-- A station lags an epoch: its bit of NET_Rr_LAG, and class 0x020A (R356). -/
def markLag (r : StraitId) (n mEpoch : Nat) (s : State) : State :=
  if (stationOf s r n).lagging || decide ((ringOf s r).count ≤ n) then s
  else event 0x020A (det [(1, r.val), (1, n), (2, mEpoch)]) (modStation r n (fun x => { x with lagging := true, good := 0 }) s)

/-- A divergence report (R323, R387): the standby leaves sync, and the active notes the station for a catch-up. -/
def takeDivergence (r : StraitId) (n stream seq : Nat) (s : State) : State :=
  let s1 := modStrait r (fun x => { x with divCount := satInc x.divCount 1, divStation := BitVec.ofNat 8 n }) s
  let s2 := event 0x0203 (det [(1, r.val), (1, n), (2, stream), (4, seq)]) s1
  if pairMember s then
    if hasAuthority s then s2.modPair fun p => { p with diverged := p.diverged ++ [(r, n)] } else leaveSync 4 s2
  else s2

/-- What the status word of an IN frame with epochs behind reports (R359): it is kept, and a divergence newly latched is recorded as well as the
lag; the frame names no SEQ (log entry 40). -/
def takeLagging (r : StraitId) (n : Nat) (f : Strait) (s : State) : State :=
  if f.typ = 2 then
    let w : W32 := BitVec.ofNat 32 (rdBe f.payload 0 4)
    let old := stationOf s r n
    let s1 := modStation r n (fun x => { x with status := w }) s
    if w.getLsbD 0 && !old.status.getLsbD 0 then takeDivergence r n (((entryOf (ringOf s r).sched n).map fun e => e.outStream).getD 0) 0 s1 else s1
  else s

/-- A link report: the break lies at that side of the station. -/
def takeLinkReport (r : StraitId) (n : Nat) (west up : Bool) (s : State) : State :=
  let c := (ringOf s r).count
  if up || decide (c ≤ n) || !hasAuthority s then s
  else if west then addBreak r n (if n + 1 = c then 255 else n + 1) s
  else addBreak r (if n = 0 then 255 else n - 1) n s

/-- Take a REPORT: its kind byte, and the layout of log entry 40 behind it. -/
def acceptReport (r : StraitId) (n : Nat) (f : Strait) (s : State) : State :=
  let p := f.payload
  let s1 := match rdBe p 0 1 with
    | 1 => takeLinkReport r n (rdBe p 1 1 == 1) (rdBe p 2 1 == 1) s
    | 2 => takeDivergence r n (rdBe p 1 2) (rdBe p 3 4) s
    | 3 => markLag r n f.mEpoch s
    | _ => s
  pushMessage r 1 n p s1

/-- GLB_ID. -/
def glbId (s : State) : Nat := 0xC1A70700 + s.fuse.stepping.toNat

/-- SYS_RUN_STATE. -/
def runWord (s : State) : Nat := s.sys.stopReason * 256 + s.sys.run.code

/-- TIM_STATUS. -/
def timStatus (s : State) : Nat :=
  s.tim.source.toNat * 256 + ((s.tim.slavePort.map fun p => p.val).getD 15) * 16 + bit s.tim.refFault * 8 + bit s.tim.slew * 4 + s.tim.quality.code

/-- The answer to a DIAG (R341). -/
def diagAnswer (s : State) (p : List Byte) : List Byte :=
  match rdBe p 0 1 with
  | 1 => beFields [(1, 1), (3, 0), (4, glbId s), (4, runWord s), (4, votWord s 0), (4, timStatus s), (8, s.clk.ct)]
  | 2 =>
    let i := rdBe p 4 4
    beFields [(1, 2), (3, 0), (4, i)] ++ ((List.range (min 16 (s.evr.next - i))).flatMap fun k => evrSlot s (i + k))
  | o => beFields [(1, o), (3, 0)]

/-- Answer a DIAG in the next gate. -/
def acceptDiag (r : StraitId) (f : Strait) (s : State) : State := sendNode r 0xD 0 0 f.src (diagAnswer s f.payload) s

/-! ## Mode frames (R347, R353, R357) -/

/-- The epochs of a frame are behind those in force at its TIME (R320, R321). -/
def epochsBehind (s : State) (r : StraitId) (f : Strait) : Bool :=
  let e := epochsAt s r f.time
  decide (epochDiff f.aEpoch e.1 < 0) || decide (epochDiff f.mEpoch e.2 < 0)

/-- The number in force of the station with an identity. -/
def numberInForce (s : State) (r : StraitId) (identity : W64) : Option Nat :=
  (List.range (ringOf s r).count).find? fun n => (stationOf s r n).identity == identity

/-- A numbered station that answers a DISCOVER with epochs behind has lost its settings: it lags (R359). -/
def noteRestart (r : StraitId) (f : Strait) (identity : W64) (s : State) : State :=
  match numberInForce s r identity with
  | some n => if epochsBehind s r f then markLag r n f.mEpoch s else s
  | none => s

/-- A REPLY to the present DISCOVER: identity, type, residence, and direction and hops of the copy. -/
def acceptReply (r : StraitId) (f : Strait) (s0 : State) : State :=
  let p := f.payload
  let s := noteRestart r f (BitVec.ofNat 64 (rdBe p 0 8)) s0
  let d : DiscReply :=
    { identity := BitVec.ofNat 64 (rdBe p 0 8), typ := BitVec.ofNat 32 (rdBe p 8 4), res := rdBe p 12 1, west := rdBe p 13 1 == 1,
      hops := rdBe p 14 2 }
  modStrait r (fun x => { x with disc := if x.disc.contains d then x.disc else x.disc ++ [d] }) s

/-- The number that a mode change gives the station of an identity. -/
def modeStation (s : State) (r : StraitId) (m : ModeChange) (identity : W64) : Option Nat :=
  (List.range 256).find? fun n => modeIdentity s r m n == some identity

/-- An ACK of a mode change or of a catch-up; the COMMIT of a catch-up follows it at once. -/
def acceptAck (r : StraitId) (f : Strait) (s : State) : State :=
  let p := f.payload
  let id : W64 := BitVec.ofNat 64 (rdBe p 12 8)
  let x := rdBe p 4 8
  let s1 := match (ringOf s r).mode with
    | some m =>
      if m.x = x ∧ m.newA.toNat = rdBe p 0 2 ∧ m.newM.toNat = rdBe p 2 2 then
        match modeStation s r m id with
        | some n =>
          let s2 := modStrait r (fun k => { k with mode := some { m with acked := if m.acked.contains n then m.acked else n :: m.acked } }) s
          if m.numbering.isNone then s2.modTxn fun t => { t with acked := .station r n :: t.acked } else s2
        | none => s
      else s
    | none => s
  match (List.range (ringOf s r).count).find? fun n =>
      (stationOf s r n).identity == id && (((stationOf s r n).catchUp.map fun c => c.x == x && !c.acked) == some true) with
  | some n =>
    if originates s r then
      let c : CatchUp := { sentAt := s.clk.now, x := x, acked := true }
      sendNode r 7 0 0 (stationAddr r.val n) (modeEnd (catchUpMode s1 r c)) (modStation r n (fun k => { k with catchUp := some c }) s1)
    else s1
  | none => s1

/-- A mode frame that is addressed to the domain. -/
def acceptMode (r : StraitId) (f : Strait) (s : State) : State :=
  if f.typ = 6 then acceptAck r f s else if f.typ = 0xA then acceptReply r f s else s

/-! ## The numbering (R348) -/

/-- PAIR_ID of the module that sends DISCOVER: the active one (R347). -/
def discoverer (s : State) : Bool := if hasAuthority s then s.sys.pairId else !s.sys.pairId

/-- The distance of a station from a side, over the copies that went that way; on the side of the discovering module on which the other module
of a pair is its neighbour there is one node more between. -/
def sideHops (s : State) (l : List DiscReply) (identity : W64) (west : Bool) : Option Nat :=
  let adj := bit (pairMember s && west == discoverer s)
  ((l.filter fun d => d.identity == identity && d.west == west).map fun d => d.hops - adj).min?

/-- The identities of a round, once each. -/
def identities (l : List DiscReply) : List W64 := (l.map fun d => d.identity).dedup

/-- The number of a station of a round of `n` stations. -/
def numberOf (s : State) (l : List DiscReply) (n : Nat) (identity : W64) : Nat :=
  match sideHops s l identity false with
  | some e => e
  | none => n - 1 - (sideHops s l identity true).getD 0

/-- The stations of a round by their numbers; a number whose station did not answer has none (R348). -/
def numbering (s : State) (l : List DiscReply) : List (Option DiscReply) :=
  let ids := identities l
  let last := (ids.map fun i => numberOf s l ids.length i + 1).foldl max 0
  (List.range (min 256 last)).map fun k =>
    (ids.find? fun i => numberOf s l ids.length i == k).bind fun i => l.find? fun d => d.identity == i

/-- A standby follows the inaugurations of the active module by its frames on the ring (log entry 41). -/
def followPartner (r : StraitId) (f : Strait) (s : State) : State :=
  if hasAuthority s || f.src != domainAddr r.val then s
  else
    let p := f.payload
    if f.typ = 9 then modStrait r (fun x => { x with disc := [] }) s
    else if f.typ = 5 then
      let newA : W16 := BitVec.ofNat 16 (rdBe p 40 2)
      let m : ModeChange :=
        { x := rdBe p 0 8, d := rdBe p 8 8, newA := newA, newM := BitVec.ofNat 16 (rdBe p 42 2),
          numbering := some (numbering s (ringOf s r).disc), required := [], acked := [], decided := none }
      modStrait r (fun x => if x.mode.isNone && x.aEpoch != newA && f.dst == groupAddr r.val then { x with mode := some m } else x) s
    else if f.typ = 7 ∨ f.typ = 8 then
      modStrait r (fun x =>
        { x with mode := x.mode.bind fun m =>
            if m.numbering.isSome ∧ m.x = rdBe p 4 8 then (if f.typ = 7 then some { m with decided := some true } else none) else some m }) s
    else s

/-! ## Acceptance (R320) -/

/-- The stream state that a frame is compared with, by its station: the Class C stream of an IN frame, else the Class A stream;
`none` where the frame belongs to no stream of the station. -/
def streamOf (s : State) (r : StraitId) (n : Nat) (f : Strait) : Option StreamRef :=
  let x := stationOf s r n
  let e := entryOf (ringOf s r).sched n
  if f.typ = 2 then (if (e.map fun y => y.inStream) = some f.stream ∧ x.inRef.gen.toNat = f.gen then some x.inRef else none)
  else if f.typ = 3 then (if (e.map fun y => y.eventStream) = some f.stream ∧ x.aRef.gen.toNat = f.gen then some x.aRef else none)
  else if f.typ = 4 then
    if (ringOf s r).atxns.any fun a => a.tag == f.stream && a.gen.toNat != f.gen then none else some x.aRef
  else if f.gen = 0 then some x.aRef
  else none

/-- What an accepted frame of types 0x2 to 0x4 and 0xB to 0xD does. -/
def acceptData (r : StraitId) (n : Nat) (f : Strait) (s : State) : State :=
  if f.typ = 2 then acceptIn r n f s
  else if (f.typ = 3 || f.typ = 4) && badFragment f then countBad r s
  else if f.typ = 3 then acceptMessage r n f s
  else if f.typ = 4 then acceptResponse r n f s
  else if f.typ = 0xB then acceptReport r n f s
  else if f.typ = 0xC then acceptDiag r f s
  else s

/-- Enter the reference of an accepted frame. -/
def setRef (r : StraitId) (n : Nat) (f : Strait) (s : State) : State :=
  let g (y : StreamRef) : StreamRef := { y with ref := some (BitVec.ofNat 32 f.seq), crc := f.crc s.rws.netSeed, at_ := s.clk.now }
  modStation r n (fun x => if f.typ = 2 then { x with inRef := g x.inRef } else { x with aRef := g x.aRef }) s

/-- The frame-received record of a first copy (R77, R78). -/
def recordFrame (p : PortId) (f : Strait) (len : Nat) (s : State) : State :=
  traceGen 3 0 p.val (frameRecord s.rws.netSeed f len) s.clk.ct s

/-- The record of a frame whose west copy was processed first at this chip time is that of its east copy (R322). -/
def recordEast (r : StraitId) (f : Strait) (len : Nat) (s : State) : State :=
  let b := frameRecord s.rws.netSeed f len
  let is (x : TraceRec) : Bool := x.typ == 3 && x.ct == s.clk.ct && x.source.toNat == (westPort r).val && x.body.take 8 == b.take 8
  let east (x : TraceRec) : TraceRec := { x with source := BitVec.ofNat 16 (eastPort r).val, body := b }
  s.modCmt fun c => { c with stage := updFirst is east c.stage, recs := updFirst is east c.recs }

/-- A second copy is discarded and counted; where both copies finish arriving at one instant the east one counts as the first (R322). -/
def secondCopy (p : PortId) (r : StraitId) (n len : Nat) (f : Strait) (y : StreamRef) (s : State) : State :=
  let s1 := countDup r s
  if p = eastPort r ∧ y.at_ = s.clk.now then
    let s2 := recordEast r f len (setRef r n f s1)
    if f.typ = 2 then acceptIn r n f s2 else s2
  else s1

/-- Compare SEQ with the reference of the stream. -/
def acceptSeq (p : PortId) (r : StraitId) (n len : Nat) (f : Strait) (y : StreamRef) (s : State) : State :=
  match y.ref with
  | none => acceptData r n f (recordFrame p f len (setRef r n f s))
  | some o =>
    let d := serialDiff (BitVec.ofNat 32 f.seq) o
    if 0 < d then acceptData r n f (recordFrame p f len (setRef r n f s)) else if d = 0 then secondCopy p r n len f y s else countOld r s

/-- A DIAG of a source that is no numbered station, a tool say: the Class A stream of its SRC (R316, R320). -/
def acceptTool (p : PortId) (r : StraitId) (len : Nat) (f : Strait) (s : State) : State :=
  let y := (assoc? f.src (ringOf s r).diag).getD StreamRef.empty
  let d : Int := (y.ref.map (serialDiff (BitVec.ofNat 32 f.seq))).getD 1
  if f.typ ≠ 0xC ∨ f.gen ≠ 0 ∨ d < 0 then countOld r s
  else if d = 0 then countDup r (if p = eastPort r ∧ y.at_ = s.clk.now then recordEast r f len s else s)
  else
    let z : StreamRef := { y with ref := some (BitVec.ofNat 32 f.seq), crc := f.crc s.rws.netSeed, at_ := s.clk.now }
    acceptDiag r f (recordFrame p f len (modStrait r (fun x => { x with diag := assocSet f.src z x.diag }) s))

/-- The epoch test and the stream of a frame. -/
def acceptStream (p : PortId) (r : StraitId) (len : Nat) (f : Strait) (s : State) : State :=
  let e := epochsAt s r f.time
  if epochsBehind s r f then
    match srcStation r f.src with
    | some n => countOld r (if f.typ = 2 ∨ f.typ = 0xB then takeLagging r n f (markLag r n f.mEpoch s) else s)
    | none => countOld r s
  else if f.aEpoch ≠ e.1 ∨ f.mEpoch ≠ e.2 then countOld r s
  else
    match srcStation r f.src with
    | some n =>
      match streamOf s r n f with
      | some y => acceptSeq p r n len f y s
      | none => countOld r s
    | none => acceptTool p r len f s

/-- A mode frame is accepted from either copy; its record is that of the first (R78, R320). -/
def acceptModeCopy (p : PortId) (r : StraitId) (len : Nat) (f : Strait) (s : State) : State :=
  let key : Nat × Nat × W32 := (f.src, f.seq, f.crc s.rws.netSeed)
  if (ringOf s r).firsts.any fun x => (x.1, x.2.1, x.2.2.1) == key then
    acceptMode r f (countDup r (if p = eastPort r then recordEast r f len s else s))
  else
    acceptMode r f (recordFrame p f len (modStrait r (fun x =>
      { x with firsts := (key.1, key.2.1, key.2.2, s.clk.now) :: x.firsts.filter fun y => decide (s.clk.now < y.2.2.2 + reuseNs) }) s))

/-- The procedure of R320 for a frame with a good FCS. -/
def accept (p : PortId) (r : StraitId) (bs : List Byte) (s : State) : State :=
  let f := straitOf bs
  if straitVersion bs ≠ 1 ∨ f.typ = 0 ∨ 0xD < f.typ then countBad r s
  else if f.dst ≠ domainAddr r.val then s
  else if f.crc s.rws.netSeed ≠ carriedCrc bs then countCrc r s
  else if 5 ≤ f.typ ∧ f.typ ≤ 0xA then acceptModeCopy p r bs.length f s
  else acceptStream p r bs.length f s

/-- A frame of the partner on the ring: its highest Class A SEQ (R326), and what a standby follows. -/
def notePartner (r : StraitId) (bs : List Byte) (s : State) : State :=
  let f := straitOf bs
  if pairMember s && f.src == domainAddr r.val && f.crc s.rws.netSeed == carriedCrc bs then
    let seq : W32 := BitVec.ofNat 32 f.seq
    let newer : Bool := match (ringOf s r).partnerA.ref with
      | some o => decide (0 < serialDiff seq o)
      | none => true
    followPartner r f
      (if 3 ≤ f.typ ∧ newer then modStrait r (fun x => { x with partnerA := { x.partnerA with ref := some seq, at_ := s.clk.now } }) s else s)
  else s

/-- A Strait frame with a good FCS on a ring port. -/
def takeStrait (p : PortId) (r : StraitId) (bs : List Byte) (s : State) : State :=
  let f := straitOf bs
  if ownFrame s r f then s
  else if 512 ≤ f.hops + 1 then countHops r s
  else accept p r bs (notePartner r bs (forward r p bs s))

/-- Count a frame with a bad FCS. -/
def countFcs (p : PortId) (s : State) : State :=
  s.modNet fun n => { n with ports := vmod n.ports p fun x => { x with fcsErr := satInc x.fcsErr 1 } }

/-- A Strait frame on a ring port, with its FCS judged. -/
def receiveOn (p : PortId) (r : StraitId) (bad : Bool) (bs : List Byte) (s : State) : State :=
  let inUse := s.sys.selfTestEnded && !noFirmware s && (ringOf s r).active
  if bad then countFcs p (if inUse then forwardBad r p bs s else s)
  else if inUse && isStrait bs then takeStrait p r bs s
  else s

/-- FRAME_RECEIVE (R305, R306, R310, R312, R320, R594): on ports 8 and 9 a Strait frame is discarded. -/
def execFrameReceive (p : PortId) (bad : Bool) (bs : List Byte) (s : State) : Host.Outcome State Fault Refusal :=
  if portUp s p then
    match portRing p with
    | some r => ok (receiveOn p r bad bs s)
    | none => ok (if bad then countFcs p s else s)
  else ok s

/-- STREAM_SILENCE (R321): the references of streams on which nothing was accepted for 10 ms are emptied. -/
def execStreamSilence (s : State) : Host.Outcome State Fault Refusal :=
  let g (y : StreamRef) : StreamRef := if y.ref.isSome && decide (y.at_ + reuseNs ≤ s.clk.now) then { y with ref := none } else y
  ok (s.modNet fun n =>
    { n with rings := n.rings.map fun r =>
      { r with
        stations := r.stations.map fun x => { x with inRef := g x.inRef, aRef := g x.aRef },
        diag := (r.diag.map fun x => (x.1, g x.2)).filter fun x => x.2.ref.isSome } })

/-- BACKBONE_FRAME_RECEIVE (R306, R361): a Strait frame is discarded, an 802.1AS frame belongs to the time-aware system (its
commands are rows of their own), and any other fills the oldest buffer of the port. Raw frames have no Strait fields, and no frame record
(DESIGN CHOICE, log entry 128). -/
def execBackboneFrameReceive (p : PortId) (bs : List Byte) (s : State) : Host.Outcome State Fault Refusal :=
  let ethertype := if rdBe bs 12 2 = 0x8100 then rdBe bs 16 2 else rdBe bs 12 2
  if p.val < 8 ∨ ethertype = 0x88B5 ∨ ethertype = 0x88F7 then ok s
  else
    match waitingDesc 0x47 (fun d => d.par 24 1 == p.val) s with
    | none => ok s
    | some (q, e) =>
      if e.desc.len < 16 + bs.length then ok (endDesc q e.num (doneWith stNoSpace 0) s)
      else
        ok (endDesc q e.num (doneOk (fields [(2, bs.length)]))
          (bufWrite e.desc 0 (fields [(8, s.clk.ct), (2, bs.length), (6, 0)] ++ bs) s))

/-- PORT_LINK_CHANGE (R305, R359, R362). -/
def execPortLinkChange (p : PortId) (up : Bool) (speed : Nat) (full : Bool) (s : State) : Host.Outcome State Fault Refusal :=
  let s1 := s.modNet fun n =>
    { n with ports := vmod n.ports p fun x => { x with up := up, speed := if up then speed else 0, full := up && full } }
  if portUp s1 p = portUp s p then ok s1
  else
    let s2 := event 0x0206 (det [(1, p.val), (1, bit (portUp s1 p))]) s1
    match portRing p with
    | some r =>
      if (ringOf s r).active && (ringOf s r).count != 0 && !portUp s1 p then
        ok (addBreak r (ownBreak s r (p == westPort r)).1 (ownBreak s r (p == westPort r)).2 s2)
      else ok s2
    | none => ok s2

end Sys2Proof.Machine
end

