-- ==== Sys2Proof/Machine/NetCyc.lean ====
section
/-! DEFINITION. The ring cycle: due instants, gates, discovery, inauguration and catch-up (R331 to R335, R347 to R357, R380). -/

namespace Sys2Proof.Machine

/-! ## Stations: dropped and restored (R331, R332, R356) -/

/-- A station is declared dropped. -/
def dropStation (r : StraitId) (n cause : Nat) (s : State) : State :=
  stationCause (if cause = 2 then 3 else 2) r.val n (event 0x0201 (det [(1, r.val), (1, n), (1, cause)])
    (modStation r n (fun x => { x with dropped := true, cause := cause, good := 0 }) s))

/-- A station is declared restored. -/
def restoreStation (r : StraitId) (n : Nat) (s : State) : State :=
  stationCause 4 r.val n (event 0x0202 (det [(1, r.val), (1, n)])
    (modStation r n (fun x => { x with dropped := false, lagging := false, cause := 0, good := 0 }) s))

/-- A station has missed the cycle; the third consecutive miss drops it. -/
def missCycle (r : StraitId) (n : Nat) (s : State) : State :=
  let x := stationOf s r n
  let s1 := modStrait r (fun k => { k with miss := satInc k.miss 1 })
    (modStation r n (fun x => { x with misses := x.misses + 1, missCount := satInc x.missCount 1, good := 0 }) s)
  if x.misses + 1 = 3 && !x.dropped then dropStation r n 1 s1 else s1

/-- The IN frame of the cycle is used; a dropped or lagging station is restored by its third good cycle. -/
def takeCycle (r : StraitId) (n : Nat) (f : InFrame) (s : State) : State :=
  let x := stationOf s r n
  let good := if f.status.getLsbD 1 || f.status.getLsbD 2 then 0 else x.good + 1
  let back := (x.dropped || x.lagging) && !(x.dropped && x.cause == 3)
  let s1 := modStation r n (fun x => { x with misses := 0, used := some f, good := if back then good else 0 }) s
  if back ∧ 3 ≤ good then restoreStation r n s1 else s1

/-- The cycle of one station ends, with the frame that counts as accepted. -/
def settleStation (r : StraitId) (e : StationEntry) (agreed : Bool) (s : State) : State :=
  let n := e.station
  let x := stationOf s r n
  let s1 := if x.lagging && !x.dropped then dropStation r n 2 s else s
  let s2 := modStation r n (fun x => { x with got := none }) s1
  if e.hasIn then
    match x.got with
    | some f => if agreed then takeCycle r n f s2 else missCycle r n s2
    | none => missCycle r n s2
  else s2

/-- The stations of a ring's schedule. -/
def ringEntries (s : State) (r : StraitId) : List StationEntry := ((ringOf s r).sched.map fun k => k.stations).getD []

/-- The due instant of the present cycle is settled with a map of the frames that count as accepted. -/
def settleCycle (r : StraitId) (map : BitVec 256) (s : State) : State :=
  let s1 := (ringEntries s r).foldl (fun s e => settleStation r e (map.getLsbD e.station) s) s
  modStrait r (fun x => { x with cycle := x.cycle + 1, waiting := false }) s1

/-- The map of the stations whose frame of the present cycle was accepted (R380). -/
def ownMap (s : State) (r : StraitId) : BitVec 256 :=
  BitVec.ofNat 256 (((ringEntries s r).map fun e => if (stationOf s r e.station).got.isSome then 2 ^ e.station else 0).sum)

/-- The CRC-32C over the safety CRCs of those frames, in station order (R380). -/
def ownCrc (s : State) (r : StraitId) : W32 :=
  crc32c ((ringEntries s r).flatMap fun e =>
    match (stationOf s r e.station).got with
    | some f => beBytes 4 f.crc.toNat
    | none => [])

/-- Both modules of the pair run in step (R363, R380). -/
def synced (s : State) : Bool := pairMember s && (s.pair.state == .activeSynced || s.pair.state == .standbySynced)

/-- Both ACCEPTED records of a cycle are known: only the frames that both maps hold count (R380). -/
def settleAgreed (r : StraitId) (a : AcceptedRec) (s : State) : State :=
  let m := ownMap s r
  let crc := ownCrc s r
  let split := ((List.range 256).filter fun i => m.getLsbD i != a.map.getLsbD i).length
  let s1 := s.modPair fun p => { p with splitMiss := satInc p.splitMiss split, accepted := p.accepted.filter fun y => y != a }
  let s2 := settleCycle r (m &&& a.map) s1
  if m = a.map ∧ crc ≠ a.crc then leaveSync 2 s2 else s2

/-- The partner's record of the present cycle of a ring. -/
def partnerRecord (s : State) (r : StraitId) : Option AcceptedRec :=
  s.pair.accepted.find? fun a => a.ring == r && a.due == dueCt s r (ringOf s r).cycle

/-- The due instant of a ring. -/
def dueRing (r : StraitId) (s : State) : State :=
  let x := ringOf s r
  if x.active && x.count != 0 && x.sched.isSome && runsProgram s && decide (dueCt s r x.cycle ≤ s.clk.ct) then
    if synced s then
      let s1 := if x.waiting then s
        else pairSend (.accepted r (dueCt s r x.cycle) (ownMap s r) (ownCrc s r)) (modStrait r (fun x => { x with waiting := true }) s)
      match partnerRecord s1 r with
      | some a => settleAgreed r a s1
      | none => s1
    else settleCycle r (ownMap s r) s
  else s

/-! ## Inauguration (R348 to R351) -/

/-- A station of a round matches its entry in TYPE, and in IDENTITY where the entry gives one (R351). -/
def matchesEntry (d : DiscReply) (e : StationEntry) : Bool := d.typ == e.typ && (e.identity == 0 || e.identity == d.identity)

/-- The first numbered station that fails to match the applied schedule. -/
def firstMismatch (s : State) (r : StraitId) (l : List (Option DiscReply)) : Option Nat :=
  ((ringEntries s r).find? fun e => ((l[e.station]?).join.map fun d => !matchesEntry d e) == some true).map fun e => e.station

/-- The NET_INAUGURATE of a ring ends. -/
def endInaug (r : StraitId) (d : Done) (s : State) : State :=
  let s1 := modStrait r (fun x => { x with inaug := 0, rounds := 0, inaugBy := none }) s
  match (ringOf s r).inaugBy with
  | some (q, n) => endDesc q n d s1
  | none => s1

/-- The inauguration is not applied, with class 0x0208 (R351). -/
def refuseInaug (r : StraitId) (n : Nat) (s : State) : State :=
  endInaug r (doneWith stRefused (r.val + n * 256)) (event 0x0208 (det [(1, r.val), (1, n)]) s)

/-- The station with an identity is dropped. -/
def droppedNow (s : State) (r : StraitId) (identity : W64) : Bool :=
  ((numberInForce s r identity).map fun n => (stationOf s r n).dropped) == some true

/-- The stations that must acknowledge an inauguration: the numbered ones that match their entry and are not dropped (R355). -/
def inaugRequired (s : State) (r : StraitId) (l : List (Option DiscReply)) : List Nat :=
  ((ringEntries s r).filter fun e =>
    ((l[e.station]?).join.map fun d => matchesEntry d e && !droppedNow s r d.identity) == some true).map fun e => e.station

/-- Begin the mode change of an inauguration with the replies of a round; its address epoch is saved first (R350). -/
def beginInaug (r : StraitId) (l : List (Option DiscReply)) (s : State) : State :=
  let x := ringOf s r
  match (if runsProgram s then firstMismatch s r l else none) with
  | some n => refuseInaug r n s
  | none =>
    let p := ringNs x
    let at_ := if cycling s r then inputFrom s r (s.clk.ct + 5 * p) else s.clk.ct + 5 * p
    let m : ModeChange :=
      { x := at_, d := at_ - 2 * p, newA := x.aEpoch + 1, newM := x.mEpoch, numbering := some l, required := inaugRequired s r l, acked := [],
        decided := none }
    let s1 := saveTimePage (modStrait r (fun x =>
      { x with mode := some m, inaug := 2, rounds := 0, inaugAt := if x.inaug = 1 then x.inaugAt else s.clk.now }) s)
    mirror (.storePage timePageNum (timePage s1)) s1

/-- The new address epoch stands in the parameter region. -/
def epochStored (s : State) (r : StraitId) (m : ModeChange) : Bool :=
  ((savedTimePage s).map fun b => rd b (20 + 2 * r.val) 2) == some m.newA.toNat

/-- The mode change of an inauguration is aborted, with class 0x0209 and the first station that has not acknowledged. -/
def abortInaug (r : StraitId) (m : ModeChange) (s : State) : State :=
  let n := (m.required.find? fun n => !m.acked.contains n).getD 0xFF
  endInaug r (doneWith stRefused (r.val + n * 256))
    (event 0x0209 (det [(1, r.val), (1, n), (2, m.newM.toNat)])
      (modStrait r (fun x => { x with mode := some { m with decided := some false } }) s))

/-- The decision of an inauguration at D (R353). -/
def decideInaug (r : StraitId) (m : ModeChange) (s : State) : State :=
  if (m.required.all fun n => m.acked.contains n) && epochStored s r m then
    modStrait r (fun x => { x with mode := some { m with decided := some true } }) s
  else abortInaug r m s

/-- The standing of a station under a new numbering: a new instance of every stream (R324, R358). A station that was held off for its mismatch
is judged anew (R351). -/
def renumbered (x : Station) (d : DiscReply) (e w : Option Nat) : Station :=
  let y := if x.identity = d.identity then x
    else { Station.unknown with outGen := x.outGen, inRef := x.inRef, aRef := x.aRef }
  { y with
    identity := d.identity, typ := d.typ, res := d.res, hopsE := e, hopsW := w, lagging := false, catchUp := none,
    outSeq := x.outNext.getD 0, outNext := none, got := none,
    dropped := y.dropped && y.cause != 3, cause := if y.cause = 3 then 0 else y.cause,
    inRef := { y.inRef with ref := none }, aRef := { y.aRef with ref := none }, events := [] }

/-- The standing of a number without a station. -/
def unnumbered (x : Station) : Station :=
  { Station.unknown with outGen := x.outGen, inRef := x.inRef, aRef := x.aRef, missCount := x.missCount }

/-- X of an inauguration: the numbering and its epochs take effect. -/
def applyNumbering (r : StraitId) (m : ModeChange) (l : List (Option DiscReply)) (s : State) : State :=
  let s1 := modStrait r (fun x =>
    { x.setEpochs m with
      count := min 256 l.length, waiting := false, seqA := 0, partnerA := StreamRef.empty, diag := [],
      stations := Vector.ofFn fun i : Fin 256 =>
        match (l[i.val]?).join with
        | some d => renumbered (x.stations.get i) d (sideHops s x.disc d.identity false) (sideHops s x.disc d.identity true)
        | none => unnumbered (x.stations.get i) }) s
  let s2 := modStrait r (fun x => { x with cycle := cycleFrom s1.tsk.anchor s1.clk.ct x }) s1
  let s3 := (ringEntries s2 r).foldl (fun s e =>
    match (l[e.station]?).join with
    | some d => if matchesEntry d e then s else dropStation r e.station 3 s
    | none => dropStation r e.station 1 s) s2
  endInaug r (doneOk (fields [(2, m.newA.toNat), (2, l.length)]))
    (event 0x0207 (det [(1, r.val), (2, l.length), (2, m.newA.toNat)]) s3)

/-- The decision and the apply instant of an inauguration, when they have come. -/
def settleMode (r : StraitId) (s : State) : State :=
  match (ringOf s r).mode with
  | none => s
  | some m =>
    match m.numbering with
    | none => s
    | some l =>
      match m.decided with
      | some true => if m.x ≤ s.clk.ct then applyNumbering r m l s else s
      | some false => s
      | none =>
        if hasAuthority s then (if m.d ≤ s.clk.ct then decideInaug r m s else s)
        else if m.x ≤ s.clk.ct then modStrait r (fun x => { x with mode := none }) s
        else s

/-- The decisions and apply instants of every ring. -/
def settleModes (s : State) : State := (allFin 4).foldl (fun s r => settleMode r s) s

/-! ## DUE_INSTANT -/

/-- A station whose catch-up has come to its X is in step (R357). -/
def endCatchUp (r : StraitId) (n : Nat) (s : State) : State :=
  let x := stationOf s r n
  match x.catchUp with
  | some c =>
    if c.acked ∧ c.x ≤ s.clk.ct then
      let s1 := modStation r n (fun x => { x with catchUp := none, lagging := false }) s
      if x.lagging then event 0x020B (det [(1, r.val), (1, n)]) s1 else s1
    else s
  | none => s

/-- The catch-ups of a ring that have come to their X. -/
def endCatchUps (r : StraitId) (s : State) : State := (List.range (ringOf s r).count).foldl (fun s n => endCatchUp r n s) s

/-- DUE_INSTANT (R331, R332, R357, R380): the due instants that have come, and with them the decisions and apply instants of
mode changes. -/
def execDueInstant (s : State) : Host.Outcome State Fault Refusal :=
  ok (settleModes ((allFin 4).foldl (fun s r => dueRing r (endCatchUps r s)) s))

/-! ## Gates (R335, R353, R390) -/

/-- A frame that waited for the gate leaves; one of the module's own carries the instant and the epochs of its sending. -/
def sendHeld (r : StraitId) (h : HeldFrame) (s : State) : State :=
  match h.port with
  | some p => emitFrame p h.bytes s
  | none =>
    let e := epochsAt s r s.clk.ct
    sendNow r { straitOf h.bytes with time := s.clk.ct, aEpoch := e.1, mEpoch := e.2 } s

/-- The held frames leave in arrival order; Class A requests beyond the declared load go on waiting (R59, R335). -/
def flushHeld (r : StraitId) (s : State) : State :=
  (ringOf s r).held.foldl (fun s h =>
    if h.port.isNone && (straitOf h.bytes).typ == 3 && loadReached s then modStrait r (fun x => { x with held := x.held ++ [h] }) s
    else sendHeld r h s) (modStrait r (fun x => { x with held := [], closed := false }) s)

/-- What waits for gate time on a ring leaves: Strait frames, and answers to pdelay requests (R335, R342). -/
def flushGate (r : StraitId) (s : State) : State := flushPdelay r (flushHeld r s)

/-- With time, what waits leaves while the gate is open: the whole cycle is gate time outside the ring cycle (R334, R335). -/
def gateTick (s : State) : State := (allFin 4).foldl (fun s r => if gateClosed s r then s else flushGate r s) s

/-- The partner has acknowledged the decision on a prepared transaction (R390). -/
def decisionKnown (s : State) : Bool :=
  !(s.pair.unacked.any fun c =>
    match c.msg with
    | .decision _ => true
    | _ => false)

/-- The frames of the mode change of a ring in a gate: PREPARE until all have acknowledged, COMMIT up to X, or ABORT. -/
def sendMode (r : StraitId) (s : State) : State :=
  match (ringOf s r).mode with
  | none => s
  | some m =>
    match m.decided with
    | none =>
      if s.clk.ct < m.d ∧ (m.required.any fun n => !m.acked.contains n) then sendPrepare r m (groupAddr r.val) (fun _ => true) s else s
    | some true =>
      if m.d ≤ s.clk.ct ∧ s.clk.ct < m.x ∧ decisionKnown s then sendNode r 7 0 0 (groupAddr r.val) (modeEnd m) s else s
    | some false =>
      if decisionKnown s then
        sendNode r 8 0 0 (groupAddr r.val) (modeEnd m) (modStrait r (fun x => { x with mode := none }) s)
      else s

/-- GATE_OPEN (R335): the gate of a ring cycle opens; outside RUNNING, where the whole cycle is gate time (R334), it stands for
the beginning of the cycle's gate. -/
def execGateOpen (r : StraitId) (s : State) : Host.Outcome State Fault Refusal :=
  if gateShut s r s.clk.ct then ok s
  else
    let s1 := settleModes (flushGate r s)
    if originates s1 r then ok (catchUps r (sendMode r s1)) else ok s1

/-- GATE_CLOSE (R335). -/
def execGateClose (r : StraitId) (s : State) : Host.Outcome State Fault Refusal :=
  if gateShut s r s.clk.ct then ok (modStrait r (fun x => { x with closed := true }) s) else ok s

/-- CATCH_UP_REPEAT (R357): in gate time. -/
def execCatchUpRepeat (s : State) : Host.Outcome State Fault Refusal :=
  ok ((allFin 4).foldl (fun s r => if originates s r && !gateClosed s r then catchUps r s else s) s)

/-! ## Discovery (R347 to R349) -/

/-- The hops of each numbered station as a round shows them. -/
def noteHops (r : StraitId) (l : List DiscReply) (s : State) : State :=
  modStrait r (fun x =>
    { x with stations := Vector.ofFn fun i : Fin 256 =>
        let y := x.stations.get i
        if i.val < x.count then { y with hopsE := sideHops s l y.identity false, hopsW := sideHops s l y.identity true } else y }) s

/-- The identities of a ring by number: those in force, and before its first inauguration those of the round. -/
def idsByNumber (s : State) (r : StraitId) (l : List DiscReply) : List (Option W64) :=
  if (ringOf s r).count = 0 then (numbering s l).map fun d => d.map fun x => x.identity
  else (List.range (ringOf s r).count).map fun n => some (stationOf s r n).identity

/-- The numbers whose stations a round reaches from a side. -/
def reached (s : State) (r : StraitId) (l : List DiscReply) (west : Bool) : List Nat :=
  ((idsByNumber s r l).zipIdx.filter fun x => (x.1.bind fun i => sideHops s l i west).isSome).map fun x => x.2

/-- The break that a round shows, by the numbers in force (R347, R348): a station that answers is not reached from both sides. -/
def noteBreak (r : StraitId) (l : List DiscReply) (s : State) : State :=
  let es := reached s r l false
  let ws := reached s r l true
  if es.isEmpty ∧ ws.isEmpty then (if (ringOf s r).count = 0 then s else setBreak r 255 255 s)
  else if es = ws then clearBreak r s
  else setBreak r (es.getLast?.getD 255) (ws.head?.getD 255) s

/-- A round is evaluated: positions, breaks, and whether an inauguration begins (R349). -/
def evaluate (r : StraitId) (s : State) : State :=
  let l := (ringOf s r).disc
  let ns := numbering s l
  let s1 := noteBreak r l (noteHops r l s)
  let x := ringOf s1 r
  let changed := (ns.map fun d => d.map fun y => y.identity) !=
    (List.range x.count).map fun n => if (stationOf s1 r n).identity = 0 then none else some (stationOf s1 r n).identity
  let rounds := if changed then x.rounds + 1 else 0
  let s2 := modStrait r (fun x => { x with rounds := rounds }) s1
  let wanted := x.inaug == 1 || (((x.sched.map fun k => k.autoInaug).getD false) && decide (3 ≤ rounds))
  if wanted && x.mode.isNone && x.sched.isSome && !ns.isEmpty then beginInaug r ns s2 else s2

/-- Send a DISCOVER; a new round begins. -/
def sendDiscover (r : StraitId) (s : State) : State :=
  sendNode r 9 0 0 (groupAddr r.val) [] (modStrait r (fun x => { x with disc := [], discAt := s.clk.now }) s)

/-- The discovery of a ring: the first DISCOVER of a ring not yet inaugurated, then one every 100 ms. -/
def discoverRing (r : StraitId) (s : State) : State :=
  let x := ringOf s r
  if !originates s r || s.sys.run == .safeTalk then s
  else if x.count = 0 ∧ x.inaug = 0 then sendDiscover r (modStrait r (fun x => { x with inaug := 1 }) s)
  else if x.discAt + 100000000 ≤ s.clk.now then sendDiscover r (evaluate r s)
  else s

/-- DISCOVER_ROUND (R347). -/
def execDiscoverRound (s : State) : Host.Outcome State Fault Refusal := ok (settleModes ((allFin 4).foldl (fun s r => discoverRing r s) s))

/-- An inauguration that has not completed in time (R349): class 0x0209 from its mode change, 0x0208 where it found nothing to
number. -/
def expireInaug (r : StraitId) (s : State) : State :=
  let x := ringOf s r
  if x.inaug != 0 && x.inaugAt != 0 && decide (x.inaugAt + 100000000 + 6 * ringNs x ≤ s.clk.now) then
    match x.mode with
    | some m =>
      if m.numbering.isSome ∧ m.decided = none then
        modStrait r (fun x => { x with inaugAt := 0 }) (abortInaug r m s)
      else s
    | none => modStrait r (fun x => { x with inaugAt := 0 }) (refuseInaug r 0xFF s)
  else s

/-- INAUGURATION_TIMEOUT (R349). -/
def execInaugurationTimeout (s : State) : Host.Outcome State Fault Refusal :=
  ok ((allFin 4).foldl (fun s r => expireInaug r s) (settleModes s))

end Sys2Proof.Machine
end

