-- ==== Sys2Proof/Machine/NetHost.lean ====
section
/-! DEFINITION. The network descriptors and the repeats of Class A requests (R337, R338, R349, R360, R361, R399). -/

namespace Sys2Proof.Machine

/-! ## NET_STATUS and NET_COUNTERS -/

/-- The registers of a ring that NET_STATUS returns: relative offsets 0x00 to 0x83. -/
def statusBytes (s : State) (r : StraitId) : List Byte :=
  (List.range 33).flatMap fun i => leBytes 4 (ringWord s r (4 * i))

/-- NET_STATUS. -/
def doNetStatus (e : Outst) (s : State) : State × Work :=
  match fin? 4 (e.desc.par 24 1) with
  | some r =>
    if e.desc.len < 136 then (s, .finish (doneWith stBadDescriptor 0))
    else (bufWrite e.desc 0 (statusBytes s r) s, .finish (doneOk (fields [(4, stateWord s r)])))
  | none => (s, .finish (doneWith stBadDescriptor 0))

/-- NET_STATUS (R361). -/
def execNetStatus (q : RingId) (s : State) : Host.Outcome State Fault Refusal := ok (serve q 0x40 s doNetStatus)

/-- The counters of a ring and the status of its two ports. -/
def counterBytes (s : State) (r : StraitId) : List Byte :=
  fields (((List.range 6).map fun i => (4, ringWord s r (0x10 + 4 * i))) ++ [(4, portWord s (eastPort r)), (4, portWord s (westPort r))])

/-- NET_COUNTERS. -/
def doNetCounters (e : Outst) (s : State) : State × Work :=
  match fin? 4 (e.desc.par 24 1) with
  | some r =>
    if e.desc.len < 32 then (s, .finish (doneWith stBadDescriptor 0))
    else (bufWrite e.desc 0 (counterBytes s r) s, .finish (doneOk []))
  | none => (s, .finish (doneWith stBadDescriptor 0))

/-- NET_COUNTERS (R361). -/
def execNetCounters (q : RingId) (s : State) : Host.Outcome State Fault Refusal := ok (serve q 0x45 s doNetCounters)

/-! ## NET_A_SEND (R336 to R338) -/

/-- The OP of a request is one a host may send (R319). -/
def requestOp (op : Nat) : Bool := op == 1 || op == 2 || op == 4 || decide (0x80 ≤ op)

/-- The deadline of a request can be met by the arithmetic of R337. -/
def meetsDeadline (s : State) (r : StraitId) (station req rsp from_ deadline : Nat) : Option Nat :=
  match (ringOf s r).sched with
  | none => none
  | some k =>
    let t := completionCt s r k station req rsp from_
    if deadline = 0 ∨ t ≤ deadline then none else some t

/-- NET_A_SEND. -/
def doNetASend (q : RingId) (dma : List Byte) (e : Outst) (s : State) : State × Work :=
  let d := e.desc
  let n := d.par 25 1
  let req := d.par 28 2
  let space := d.par 32 4
  match fin? 4 (d.par 24 1) with
  | none => (s, .finish (doneWith stBadDescriptor 0))
  | some r =>
    if !requestOp (d.par 27 1) || outRange 1 16384 req || decide (d.len < roundUp req 8 + space) then (s, .finish (doneWith stBadDescriptor 0))
    else if !originates s r || (ringOf s r).sched.isNone || (ringOf s r).count == 0 then (s, .finish (doneWith stBadState 0))
    else if (ringOf s r).count ≤ n then (s, .finish (doneWith stNotFound 0))
    else
      match meetsDeadline s r n req (longestRsp (d.par 27 1)) (max e.fetchCt (ringOf s r).sentUntil) d.deadline with
      | some t => (s, .finish (doneWith stAdmitRefused (min 4294967295 ((t - d.deadline) / 1000))))
      | none =>
        (openA r (some (q, e.num)) n (d.par 26 1) (d.par 27 1) ((bufRead d dma s).take req) space (roundUp req 8) d.deadline s, .wait e.bound)

/-- NET_A_SEND (R337). -/
def execNetASend (q : RingId) (dma : List Byte) (s : State) : Host.Outcome State Fault Refusal := ok (serve q 0x41 s (doNetASend q dma))

/-- The time for which the module waits for a response (R338). -/
def responseNs (s : State) (r : StraitId) (a : ATxn) : Nat :=
  match (ringOf s r).sched with
  | some k => ((entryOf (some k) a.station).map fun e => e.rspUs * 1000).getD 0 + 2 * hopNs (pairMember s) k + k.period * 1000
  | none => 0

/-- The length of the request of a transaction. -/
def ATxn.req (a : ATxn) : Nat := (a.frames.map fun f => f.length - 8).sum

/-- One unanswered request: it is repeated with the same tag and generation, or it fails (R338). -/
def expireA (r : StraitId) (a : ATxn) (s : State) : State :=
  let late := a.deadline != 0 && decide (a.deadline ≤ s.clk.ct)
  if late || decide (a.sentAt + responseNs s r a ≤ s.clk.now) then
    if !late && decide (a.attempts < 4) && originates s r && (meetsDeadline s r a.station a.req (longestRsp a.op) s.clk.ct a.deadline).isNone then
      let b := { a with attempts := a.attempts + 1, sentAt := s.clk.now, frags := [] }
      sendRequest r b (modStrait r (fun x => { x with atxns := updFirst (fun y => y.tag == a.tag) (fun _ => b) x.atxns }) s)
    else failA r a stTimeout s
  else s

/-- A_RESPONSE_TIMEOUT (R338); the origination of Class A waits during a service pause (R620). -/
def execAResponseTimeout (s : State) : Host.Outcome State Fault Refusal :=
  if s.fwu.pausing then ok s
  else ok ((allFin 4).foldl (fun s r => (ringOf s r).atxns.foldl (fun s a => expireA r a s) s) s)

/-! ## NET_A_RECV, NET_RAW_SEND and NET_RAW_RECV -/

/-- NET_A_RECV: the buffer waits for the next message on the ring. -/
def doNetARecv (e : Outst) (s : State) : State × Work :=
  if 3 < e.desc.par 24 1 ∨ e.desc.len < 16 then (s, .finish (doneWith stBadDescriptor 0)) else (s, .wait none)

/-- NET_A_RECV (R361). -/
def execNetARecv (q : RingId) (s : State) : Host.Outcome State Fault Refusal := ok (serve q 0x42 s doNetARecv)

/-- Ports 8 and 9. -/
def backbonePort (n : Nat) : Option PortId := if n = 8 then some 8 else if n = 9 then some 9 else none

/-- NET_RAW_SEND; a port whose link is down sends nothing. -/
def doNetRawSend (dma : List Byte) (e : Outst) (s : State) : State × Work :=
  let n := e.desc.par 28 2
  match backbonePort (e.desc.par 24 1) with
  | none => (s, .finish (doneWith stBadDescriptor 0))
  | some p =>
    if outRange 60 1514 n || decide (e.desc.len < roundUp n 8) then (s, .finish (doneWith stBadDescriptor 0))
    else if !portUp s p then (s, .finish (doneWith stBadState 0))
    else (emitFrame p ((bufRead e.desc dma s).take n) s, .finish (doneOk (fields [(8, s.clk.ct)])))

/-- NET_RAW_SEND (R361). -/
def execNetRawSend (q : RingId) (dma : List Byte) (s : State) : Host.Outcome State Fault Refusal := ok (serve q 0x46 s (doNetRawSend dma))

/-- NET_RAW_RECV: the buffer waits for the next frame on the port. -/
def doNetRawRecv (e : Outst) (s : State) : State × Work :=
  if (backbonePort (e.desc.par 24 1)).isNone ∨ e.desc.len < 16 then (s, .finish (doneWith stBadDescriptor 0)) else (s, .wait none)

/-- NET_RAW_RECV (R361). -/
def execNetRawRecv (q : RingId) (s : State) : Host.Outcome State Fault Refusal := ok (serve q 0x47 s doNetRawRecv)

/-! ## NET_INAUGURATE and NET_STATION_INFO -/

/-- NET_INAUGURATE: discovery begins at once; one that runs on the ring already is not disturbed (R359). -/
def doNetInaugurate (q : RingId) (e : Outst) (s : State) : State × Work :=
  match fin? 4 (e.desc.par 24 1) with
  | none => (s, .finish (doneWith stBadDescriptor 0))
  | some r =>
    let x := ringOf s r
    if !originates s r || x.sched.isNone || x.inaug != 0 then (s, .finish (doneWith stBadState 0))
    else
      (sendDiscover r (modStrait r (fun x => { x with inaug := 1, inaugAt := s.clk.now, inaugBy := some (q, e.num) }) s),
        .wait e.bound)

/-- NET_INAUGURATE (R349, R361). -/
def execNetInaugurate (q : RingId) (s : State) : Host.Outcome State Fault Refusal := ok (serve q 0x43 s (doNetInaugurate q))

/-- NET_STATION_INFO: bytes 24 to 39 come from the station by an OP 0x04 request, whose message is one zero byte (R319: at least one; DESIGN CHOICE,
log entry 141). -/
def doNetStationInfo (q : RingId) (e : Outst) (s : State) : State × Work :=
  let n := e.desc.par 25 1
  match fin? 4 (e.desc.par 24 1) with
  | none => (s, .finish (doneWith stBadDescriptor 0))
  | some r =>
    if e.desc.len < 64 then (s, .finish (doneWith stBadDescriptor 0))
    else if (ringOf s r).count ≤ n then (s, .finish (doneWith stNotFound 0))
    else if originates s r && (ringOf s r).sched.isSome then
      (openA r (some (q, e.num)) n 0 4 [0] 16 0 0 s, .wait e.bound)
    else (bufWrite e.desc 0 (stationInfo s r n []) s, .finish (doneOk []))

/-- NET_STATION_INFO (R361). -/
def execNetStationInfo (q : RingId) (s : State) : Host.Outcome State Fault Refusal := ok (serve q 0x44 s (doNetStationInfo q))

end Sys2Proof.Machine
end

