-- ==== Sys2Proof/Machine/RunCtl.lean ====
section
/-! DEFINITION. Starting a program: RUN and the autonomous start (R217, R219, R220, R594). -/

namespace Sys2Proof.Machine

/-- The bytes of a program image slot, `none` where a page is unreadable (R44). -/
def slotBytes (slot : Nat) (s : State) : Option (List Byte) × State :=
  let head := readPage (slotPage slot) s
  match head.1 with
  | none => head
  | some b =>
    let n := min 16384 ((rd b 36 4 + 255) / 256)
    readPages (slotPage slot) (max 1 n) head.2

/-- The slot that a start uses (SYS_RUN_CFG.ACTIVE_SLOT). -/
def activeSlot (s : State) : Nat := bit (s.rwp.runCfg.getLsbD 1)

/-- The EMPTY bank that a start loads: bank 0 before bank 1. -/
def emptyBank (s : State) : Option (Fin 2) := (allFin 2).find? fun b => (bankOf s b).state == .empty

/-- Step 1 of R219, with the checks of R228 (reason 0x08 among them): the image of the ACTIVE bank, or that of the slot into an EMPTY bank,
which becomes ACTIVE. The error is the STOP_REASON. -/
def startImage (s : State) : Except Nat Image × State :=
  match activeImage s with
  | some i => (.ok i, s)
  | none =>
    let r := slotBytes (activeSlot s) s
    match r.1.map (checkImage s.prg.key) with
    | none => (.error 2, r.2)
    | some (.error (n, _)) => (.error (if n = 1 then 2 else 3), r.2)
    | some (.ok i) =>
      if resyncing r.2 then (.error 3, r.2)
      else match emptyBank r.2 with
      | some b =>
        (.ok i, (modBank b (fun _ => { state := .active, image := some i, map := none }) r.2).modPrg fun p => { p with fetch := b })
      | none => (.error 6, r.2)

/-- Step 2 of R219: every data partition from the initial data, then the retentive data; a save with another tag is recorded
(R261). -/
def startData (i : Image) (s : State) : State :=
  let r := restoreRetentive i s (dataWrite (s.lanes.get 0).mem 0 i.data)
  let s1 := r.2.2.modLanes fun v => v.map fun x => { x with mem := (restoreRetentive i s (dataWrite x.mem 0 i.data)).1 }
  if r.2.1 then eventFree (det [(8, i.id.toNat)]) s1 else s1

/-- The figures of every task at RUN: cycle numbers begin at 0. -/
def freshRuns (s : State) : State :=
  let s1 := s.modTsk fun k =>
    { k with run := Vector.replicate 256 TaskRun.fresh, rels := [], raw := [], versions := [], tails := [], stopAt := none, stopper := none,
             resumeAt := 0 }
  freshDigests ((schedTasks s).map fun e => e.task) (s1.modVot fun v => { v with prev := [] })

/-- The anchor of step 4: the first multiple of ALIGN at least 1 ms from now. -/
def startAnchor (s : State) (align : Nat) : Nat := roundUp (s.clk.ct + 1000000) (align * 1000)

/-- Step 4 of R219: the anchor, and RUNNING. -/
def enterRunning (s : State) : State :=
  let a := startAnchor s ((s.tsk.sched.map fun k => k.align).getD 1)
  let s1 := (freshRuns s).modTsk fun k => { k with anchor := a }
  let s2 := s1.modNet fun n => { n with rings := n.rings.map fun r => { r with cycle := cycleFrom a s.clk.ct r } }
  let s3 := s2.modSys fun y => { y with run := .running, stopReason := 0 }
  let s4 := if mirrors s3 then setPairState .activeAlone s3 else s3
  retentiveFits (shadowCopyAll (resumeResync (applyChans [] s4)))

/-- A failed start (R220): STOPPED with its reason, recorded, with vector 32; no partly loaded program is left. -/
def failStart (reason : Nat) (before s : State) : State :=
  let s1 := s.modPrg fun _ => before.prg
  let s2 := (s1.modLanes fun _ => before.lanes).modSys fun y => { y with run := .stopped, stopReason := reason }
  raise 32 (eventFree (det [(1, reason)]) s2)

/-- RUN from STOPPED, with the configuration now applied (R219); a configuration for another image counts as refused. -/
def startHost (s : State) : Except Nat Nat × State :=
  match startImage s with
  | (.error r, s1) => (.error r, failStart r s s1)
  | (.ok i, s1) =>
    match s1.tsk.sched with
    | none => (.error 5, failStart 5 s s1)
    | some k =>
      if k.imageId ≠ i.id then (.error 4, failStart 4 s s1)
      else
        let s2 := enterRunning (startData i s1)
        (.ok s2.tsk.anchor, s2)

/-- RUN: only in STOPPED; on failure REFUSED with the STOP_REASON. -/
def doRun (_ : RingId) (_ : Outst) (s : State) : State × Work :=
  match s.sys.run with
  | .stopped =>
    match startHost s with
    | (.ok a, s1) => (s1, .finish (doneOk (fields [(8, a)])))
    | (.error r, s1) => (s1, .finish (doneRefused r 0 0 0))
  | _ => (s, .finish (doneWith stBadState 0))

/-- RUN (R219). -/
def execRun (q : RingId) (s : State) : Host.Outcome State Fault Refusal := ok (serve q 0x28 s (doRun q))

/-- The saved set checked as CHECK would, against the module as it stands (R219, step 3). -/
def savedRefused (objs : List StagedObj) (rws : List (Nat × W32)) (s : State) : Bool :=
  (checkTxn (s.modTxn fun t => { t with phase := .opened, objs := objs, rws := rws, switch := none, applied := [] }) s.clk.ct).isSome

/-- Steps 1 to 3 of an autonomous start: `true` where they have succeeded. -/
def autonomousLoad (s : State) : Bool × State :=
  match startImage s with
  | (.error r, s1) => (false, failStart r s s1)
  | (.ok i, s1) =>
    let s2 := startData i s1
    match savedSet s2 with
    | (none, s3) => (false, failStart 5 s (s3.modTxn fun t => { t with saved := false }))
    | (some (objs, rws), s3) =>
      if savedRefused objs rws s3 then (false, failStart 4 s s3)
      else (true, (applySet objs rws [] (fun _ => 0) s3.clk.ct s3).modTxn fun t => { t with saved := true })

/-- The rings in use have ended their inauguration after power-up (R349, R594). -/
def ringsReady (s : State) : Bool :=
  (allFin 4).all fun r => !(ringOf s r).active || (ringOf s r).count != 0 || (ringOf s r).inaugAt == 0

/-- AUTONOMOUS_START (R219, R594): in STARTING. The program and the saved set are taken once; the anchor and RUNNING follow
when every ring in use has been inaugurated. -/
def execAutonomousStart (s : State) : Host.Outcome State Fault Refusal :=
  match s.sys.run with
  | .starting =>
    if !s.sys.selfTestEnded then ok s
    else
    let loaded := (activeImage s).isSome && s.tsk.sched.isSome
    let r := if loaded then (true, s) else autonomousLoad s
    if r.1 && ringsReady r.2 then ok (enterRunning r.2) else ok r.2
  | _ => ok s

end Sys2Proof.Machine
end

