-- ==== Sys2Proof/Machine/Tables.lean ====
section
/-! DEFINITION. Loading, updating and unloading destination tables (R145 to R150, R158 to R163, R386). -/

namespace Sys2Proof.Machine

/-! ## Placing entries (R160) -/

/-- Change one table. -/
def modTable (n : Fin 16) (f : Table → Table) (s : State) : State := s.modTbl fun v => vmod v n f

/-- A free way of a bucket; a way whose read fails is not free. -/
def freeWay (t : Table) (b : Nat) : Option Nat :=
  [0, 1].find? fun w => (wayEntry t (b, w)).isNone && !t.poisoned.contains (b, w)

/-- The other candidate bucket of a key. -/
def otherBucket (t : Table) (key : W64) (b : Nat) : Nat :=
  let c := candidates t.k t.salt key
  if c.1 = b then c.2 else c.1

/-- A bucket that is to get room, with the moves (bucket, way, to bucket) that lead to it, latest first. -/
abbrev Route := Nat × List (Nat × Nat × Nat)

/-- The routes that go one move further, to buckets not yet seen. -/
def nextRoutes (t : Table) (seen : List Nat) (l : List Route) : List Route :=
  l.flatMap fun (b, ms) => [0, 1].filterMap fun w =>
    (wayEntry t (b, w)).bind fun e =>
      let o := otherBucket t e.key b
      if seen.contains o then none else some (o, (b, w, o) :: ms)

/-- The shortest route to a bucket with a free way, within a number of moves. -/
def findRoom (t : Table) : Nat → List Nat → List Route → Option Route
  | 0, _, l => l.find? fun x => (freeWay t x.1).isSome
  | n + 1, seen, l =>
    match l.find? fun x => (freeWay t x.1).isSome with
    | some x => some x
    | none =>
      let next := nextRoutes t seen l
      if next.isEmpty then none else findRoom t n (seen ++ next.map fun x => x.1) next

/-- An entry in its place, with its CRC (R147). -/
def TblEntry.make (n : Fin 16) (b w : Nat) (key value : W64) (gen : Nat) (deleted : Bool) : TblEntry :=
  let e : TblEntry := { bucket := b, way := w, key := key, value := value, gen := gen, deleted := deleted, crc := 0 }
  { e with crc := entryCrc n.val e }

/-- Put an entry into a way, which service firmware so rewrites (R158). -/
def putEntry (e : TblEntry) (t : Table) : Table :=
  { t with
    entries := (t.entries.filter fun x => !(x.bucket == e.bucket && x.way == e.way)) ++ [e]
    poisoned := t.poisoned.filter fun w => w != (e.bucket, e.way) }

/-- Make a way free. -/
def clearWay (b w : Nat) (t : Table) : Table := { t with entries := t.entries.filter fun x => !(x.bucket == b && x.way == w) }

/-- Move an entry to a free way of its other bucket. -/
def moveEntry (n : Fin 16) (m : Nat × Nat × Nat) (t : Table) : Table :=
  match wayEntry t (m.1, m.2.1), freeWay t m.2.2 with
  | some e, some w => putEntry (TblEntry.make n m.2.2 w e.key e.value e.gen e.deleted) (clearWay m.1 m.2.1 t)
  | _, _ => t

/-- Place a key with a generation: in the way that holds it in that generation already (DESIGN CHOICE, log entry 123: of two records of
one key in one descriptor the later one stands), else in a free way of a candidate bucket, after at most 32 moves. The table and the
number of moves; `none` where it cannot be placed. -/
def place (n : Fin 16) (key value : W64) (gen : Nat) (deleted : Bool) (t : Table) : Option (Table × Nat) :=
  match t.entries.find? fun e => e.key == key && e.gen == gen with
  | some e => some (putEntry (TblEntry.make n e.bucket e.way key value gen deleted) t, 0)
  | none =>
    let c := candidates t.k t.salt key
    match findRoom t 32 [c.1, c.2] [(c.1, []), (c.2, [])] with
    | none => none
    | some r =>
      let t1 := r.2.foldl (fun t m => moveEntry n m t) t
      match ([c.1, c.2].findSome? fun b => (freeWay t1 b).map fun w => (b, w)) with
      | some (b, w) => some (putEntry (TblEntry.make n b w key value gen deleted) t1, r.2.length)
      | none => none

/-- Place records (key, value, deleted) in turn: the table and the largest number of moves for one key. -/
def placeAll (n : Fin 16) (gen : Nat) : List (W64 × W64 × Bool) → Table × Nat → Option (Table × Nat)
  | [], x => some x
  | (k, v, d) :: l, (t, m) =>
    match place n k v gen d t with
    | some (t1, m1) => placeAll n gen l (t1, max m m1)
    | none => none

/-- The ways that differ between two states of a table, as their bucket images. -/
def waysChanged (old new : Table) : List BucketWay :=
  ((new.entries.filter fun e => !old.entries.contains e).map fun e =>
    { bucket := e.bucket, way := e.way, valid := true, key := e.key, value := e.value, gen := e.gen, deleted := e.deleted }) ++
  ((old.entries.filter fun e => (wayEntry new (e.bucket, e.way)).isNone).map fun e =>
    { bucket := e.bucket, way := e.way, valid := false, key := 0, value := 0, gen := 0, deleted := false })

/-- Write bucket images. -/
def putWays (n : Fin 16) (l : List BucketWay) (t : Table) : Table :=
  l.foldl (fun t w =>
    if w.valid then putEntry (TblEntry.make n w.bucket w.way w.key w.value w.gen w.deleted) t else clearWay w.bucket w.way t) t

/-! ## Loading (R160) -/

/-- Two spans of buckets, as offset and K, overlap. -/
def spansMeet (o k o' k' : Nat) : Bool := decide (o < o' + 64 * 2 ^ k') && decide (o' < o + 64 * 2 ^ k)

/-- The buckets leave the partition, or overlap those of a loaded table or of one that is being freed. -/
def noRoom (s : State) (k offset : Nat) : Bool :=
  decide (s.part.tables * 1048576 < offset + 64 * 2 ^ k) ||
    (allFin 16).any fun i =>
      let t := s.tbl.get i
      (t.loaded && spansMeet offset k t.offset t.k) || t.old.any fun o => spansMeet offset k o.offset o.k

/-- A loaded table takes effect at the snapshots from `at_` on. -/
def loadTable (n : Fin 16) (k : Nat) (salt : W32) (offset at_ : Nat) (ways : List BucketWay) (s : State) : State :=
  modTable n (fun t =>
    putWays n ways { t with loaded := true, loads := t.loads + 1, from_ := at_, k := k, salt := salt, offset := offset, gen := 1, entries := [], poisoned := [] }) s

/-- The pairs of a TBL_LOAD. -/
def loadRecords (bs : List Byte) : List (W64 × W64 × Bool) :=
  (List.range (bs.length / 16)).map fun i => (BitVec.ofNat 64 (rd bs (16 * i) 8), BitVec.ofNat 64 (rd bs (16 * i + 8) 8), false)

/-- A table change that has been checked: the item that mirrors it and its result. -/
abbrev TblChange := Except Done (MirrorItem × List Byte)

/-- What a TBL_LOAD does, with the first snapshot that sees it. -/
def planLoad (d : Desc) (dma : List Byte) (at_ : Nat) (s : State) : TblChange :=
  match fin? 16 (d.par 24 1) with
  | none => .error (doneWith stNotFound 0)
  | some n =>
    let k := d.par 25 1
    let salt : W32 := BitVec.ofNat 32 (d.par 28 4)
    let offset := d.par 32 8
    if outRange 10 28 k || offset % 64 != 0 || d.len % 16 != 0 || decide (2 ^ k * 32 < d.len) then .error (doneWith stBadDescriptor 0)
    else if (s.tbl.get n).loaded then .error (doneWith stBadState 0)
    else if noRoom s k offset then .error (doneWith stNoSpace 0)
    else
      let empty : Table := { s.tbl.get n with k := k, salt := salt, offset := offset, gen := 1, entries := [], poisoned := [] }
      match placeAll n 1 (loadRecords (bufRead d dma s)) (empty, 0) with
      | none => .error (doneWith stNoSpace 0)
      | some (t, m) => .ok (.tableLoad n.val k salt offset at_ (waysChanged empty t), fields [(8, t.entries.length), (4, m)])

/-! ## Updating (R161) -/

/-- The records of a TBL_UPDATE; `none` where an operation is neither put nor delete. -/
def updateRecords (bs : List Byte) : Option (List (W64 × W64 × Bool)) :=
  (List.range (bs.length / 24)).mapM fun i =>
    let op := rd bs (24 * i + 16) 8
    if op = 1 ∨ op = 2 then some (BitVec.ofNat 64 (rd bs (24 * i) 8), BitVec.ofNat 64 (rd bs (24 * i + 8) 8), op == 2) else none

/-- The bucket images of a change take effect as the next generation at the snapshots from `at_` on. -/
def raiseTable (n : Fin 16) (gen at_ : Nat) (ways : List BucketWay) (s : State) : State :=
  modTable n (fun t => { putWays n ways t with gen := gen, from_ := at_ }) s

/-- What a TBL_UPDATE does. A record whose operation is neither put nor delete is REFUSED with reason 0 and nothing is applied (DESIGN CHOICE,
log entry 124). -/
def planUpdate (d : Desc) (dma : List Byte) (at_ : Nat) (s : State) : TblChange :=
  match fin? 16 (d.par 24 1) with
  | none => .error (doneWith stNotFound 0)
  | some n =>
    let t := s.tbl.get n
    if d.len % 24 != 0 then .error (doneWith stBadDescriptor 0)
    else if !t.loaded then .error (doneWith stBadState 0)
    else
      match updateRecords (bufRead d dma s) with
      | none => .error (doneRefused 0 n.val 0 0)
      | some rs =>
        match placeAll n (t.gen + 1) rs (t, 0) with
        | none => .error (doneWith stNoSpace 0)
        | some (t1, _) => .ok (.buckets n.val (t.gen + 1) at_ (waysChanged t t1), fields [(8, t.gen + 1), (4, rs.length)])

/-! ## Unloading (R150, R159) -/

/-- A table is not loaded from the snapshots from `at_` on; its buckets wait to be freed. -/
def unloadTable (n : Fin 16) (at_ : Nat) (s : State) : State :=
  modTable n (fun t =>
    { t with
      loaded := false, from_ := at_, entries := [], poisoned := [],
      old := t.old ++ [{ load := t.loads, k := t.k, salt := t.salt, offset := t.offset, entries := t.entries, poisoned := t.poisoned }] }) s

/-- What a TBL_UNLOAD does. -/
def planUnload (d : Desc) (at_ : Nat) (s : State) : TblChange :=
  match fin? 16 (d.par 24 1) with
  | none => .error (doneWith stNotFound 0)
  | some n =>
    if (s.tbl.get n).loaded then .ok (.tableUnload n.val at_, fields [(8, (s.tbl.get n).gen)]) else .error (doneWith stBadState 0)

/-! ## The descriptors -/

/-- A table change takes effect. -/
def takeTable (i : MirrorItem) (s : State) : State :=
  match i with
  | .tableLoad n k salt offset at_ ways => loadTable (finOr n) k salt offset at_ ways s
  | .buckets n gen at_ ways => raiseTable (finOr n) gen at_ ways s
  | .tableUnload n at_ => unloadTable (finOr n) at_ s
  | _ => s

/-- The first snapshot that sees a change: the next one, or in a pair one that lies after the acknowledgement of every
bucket (R386, log entry 42). -/
def changeFrom (s : State) : Nat := if mirrors s then s.clk.ct + 150000 else s.clk.ct

/-- A table change made while a partner joins is forwarded to it (R377). -/
def forwardTable (i : MirrorItem) (s : State) : State :=
  if pairMember s && s.pair.state == .activeAlone && s.pair.joinStep != 0 then pairSend (.mirror i none) s else s

/-- Serve a table descriptor: a change that fails ends it at once, one that succeeds is mirrored. -/
def serveTable (q : RingId) (op : Nat) (plan : Outst → Nat → State → TblChange) (s : State) : State :=
  match readyDesc q op s with
  | none => s
  | some e =>
    match plan e (changeFrom s) s with
    | .error d => serve q op s fun _ s => (s, .finish d)
    | .ok (i, r) => serveMirrored q op r (fun _ _ => i) (fun _ s => (forwardTable i (takeTable i s), .finish (doneOk r))) s

/-- TBL_LOAD (R160). -/
def execTblLoad (q : RingId) (dma : List Byte) (s : State) : Host.Outcome State Fault Refusal :=
  ok (serveTable q 0x2C (fun e at_ s => planLoad e.desc dma at_ s) s)

/-- TBL_UPDATE (R161). -/
def execTblUpdate (q : RingId) (dma : List Byte) (s : State) : Host.Outcome State Fault Refusal :=
  ok (serveTable q 0x2D (fun e at_ s => planUpdate e.desc dma at_ s) s)

/-- TBL_UNLOAD (R159). -/
def execTblUnload (q : RingId) (s : State) : Host.Outcome State Fault Refusal :=
  ok (serveTable q 0x2E (fun e at_ s => planUnload e.desc at_ s) s)

/-- The newest entry of a key, whatever its generation. -/
def newestEntry (t : Table) (key : W64) : Option TblEntry :=
  t.entries.foldl (fun b e =>
    if e.key = key then
      match b with
      | some (x : TblEntry) => if x.gen < e.gen then some e else b
      | none => some e
    else b) none

/-- The live entries of a table: those that a lookup of the present generation delivers. -/
def liveEntries (t : Table) : Nat := (t.entries.filter fun e => newestEntry t e.key == some e && !e.deleted).length

/-- The buckets with a way that fails its check. -/
def damagedBuckets (n : Nat) (t : Table) : Nat :=
  ((t.poisoned.map fun w => w.1) ++ ((t.entries.filter fun e => e.crc != entryCrc n e).map fun e => e.bucket)).dedup.length

/-- TBL_INFO. A table that is not loaded reports the generation, K, SALT and offset it had, and no entry (DESIGN CHOICE, log entry 125). -/
def doTblInfo (e : Outst) (s : State) : State × Work :=
  match fin? 16 (e.desc.par 24 1) with
  | none => (s, .finish (doneWith stNotFound 0))
  | some n =>
    let t := s.tbl.get n
    let lost := (t.poisoned.filter fun w => (wayEntry t w).isNone).dedup.length
    let free := if t.loaded then 2 ^ (t.k + 1) - t.entries.length - lost else 0
    (s, .finish (doneOk (fields [(8, t.gen), (4, liveEntries t), (4, free), (4, damagedBuckets n.val t),
      (1, if t.loaded then 1 else if t.old.isEmpty then 0 else 2), (1, t.k), (2, 0), (4, t.salt.toNat), (8, t.offset)])))

/-- TBL_INFO (R163). -/
def execTblInfo (q : RingId) (s : State) : Host.Outcome State Fault Refusal := ok (serve q 0x2F s doTblInfo)

/-! ## Freeing (R150) -/

/-- What the releases still in progress have captured of a table. -/
def capturedBy (s : State) (n : Fin 16) : List Nat :=
  (s.tsk.rels.filter fun r => (allFin 3).any fun l => r.lanes.get l && !r.ended.get l).filterMap fun r => assoc? n.val r.tables

/-- An entry that no release in progress and none to come can see: superseded by a newer one that all of them see, or a delete
that all of them see. -/
def dead (t : Table) (least : Nat) (e : TblEntry) : Bool :=
  (t.entries.any fun x => x.key == e.key && decide (e.gen < x.gen) && decide (x.gen ≤ least)) ||
    (e.deleted && decide (e.gen ≤ least) && !(t.entries.any fun x => x.key == e.key && decide (x.gen < e.gen)))

/-- The newest entries of their keys that stand in damaged ways, as records. -/
def hiddenRecords (n : Nat) (t : Table) : List (W64 × W64 × Bool) :=
  (t.entries.filter fun e => wayDamaged n t (e.bucket, e.way) && newestEntry t e.key == some e).map fun e => (e.key, e.value, e.deleted)

/-- Service firmware writes the entries of damaged ways anew from its own record of the table, at the next generation, where they can be
placed; the damaged ways become free as any superseded entry does (R150, R158, log entry 136). -/
def repairTable (n : Fin 16) (s : State) : State :=
  let t := s.tbl.get n
  let rs := hiddenRecords n.val t
  if !t.loaded || rs.isEmpty || (pairMember s && !hasAuthority s) then s
  else
    match placeAll n (t.gen + 1) rs (t, 0) with
    | some (t1, _) =>
      let i : MirrorItem := .buckets n.val (t.gen + 1) (changeFrom s) (waysChanged t t1)
      forwardTable i (mirror i (takeTable i s))
    | none => s

/-- Free what can be freed of one table; a damaged way that is made free is written, and so no longer damaged (R158). -/
def freeWays (n : Fin 16) (s : State) : State :=
  let caps := capturedBy s n
  modTable n (fun t =>
    let here := (caps.filter fun c => c / 2 ^ 64 == t.loads).map fun c => c % 2 ^ 64
    let seen := if t.from_ ≤ s.clk.ct then t.gen else t.gen - 1
    let least := here.foldl min seen
    let es := t.entries.filter fun e => !dead t least e
    { t with
      entries := es, poisoned := t.poisoned.filter fun w => es.any fun e => (e.bucket, e.way) == w,
      old := t.old.filter fun o => (caps.any fun c => c / 2 ^ 64 == o.load) || (decide (s.clk.ct < t.from_) && o.load == t.loads) }) s

/-- TABLE_WAY_FREE (R150, R158). -/
def execTableWayFree (s : State) : Host.Outcome State Fault Refusal :=
  ok ((allFin 16).foldl (fun s n => repairTable n (freeWays n s)) s)

end Sys2Proof.Machine
end

