-- ==== Sys2Proof/Machine/PairJoin.lean ====
section
/-! DEFINITION. The join of a standby: what the active module sends, and what the standby makes of it (R376 to R378, R387). -/

namespace Sys2Proof.Machine

/-! ## Task contexts as the final copy holds them (R377) -/

/-- The words of the expression stack: its depth, and each element as its bracket and its flag. -/
def stackWords (l : List (Bool × Nat)) : List W64 := BitVec.ofNat 64 l.length :: l.map fun x => BitVec.ofNat 64 (2 * x.2 + bit x.1)

/-- The value that a result port settles to. -/
def ResultPort.last (r : ResultPort) : W64 := r.complete.val

/-- The words of a context outside a release: registers, ports, accumulators, slots, digest and stack. -/
def ctxWords (c : Ctx) : List W64 :=
  c.g.toList ++
    [c.link, c.aluA, c.aluRes.last, flag64 c.acc, c.bitAcc.last, c.bitDepth.last, c.tmrInst, c.tmrPreset, c.tmrQ.last, c.tmrEt.last,
     c.edgInst, c.edgQ.last, c.blkSrc, c.blkDst, c.blkCnt, c.blkSize, c.blkRes, c.tblSel, c.imgPt, c.imgVal.last, c.imgQual.last, c.lsBase,
     c.lsData, c.lsRes.last, c.digest] ++
    (c.slots.toList.flatMap fun x => [BitVec.ofNat 64 x.status, x.value]) ++ stackWords c.stack

/-- A result port that holds a value. -/
def ResultPort.holding (v : W64) : ResultPort := { val := v, pend := [] }

/-- The context that the words of one give. -/
def ctxOfWords (ws : List W64) : Ctx :=
  let w (i : Nat) : W64 := (ws[i]?).getD 0
  let p (i : Nat) : ResultPort := .holding (w i)
  { Ctx.reset with
    g := Vector.ofFn fun i : Fin 64 => w i.val
    link := w 64, aluA := w 65, aluRes := p 66, acc := w 67 != 0, bitAcc := p 68, bitDepth := p 69, tmrInst := w 70, tmrPreset := w 71,
    tmrQ := p 72, tmrEt := p 73, edgInst := w 74, edgQ := p 75, blkSrc := w 76, blkDst := w 77, blkCnt := w 78, blkSize := w 79,
    blkRes := w 80, tblSel := w 81, imgPt := w 82, imgVal := p 83, imgQual := p 84, lsBase := w 85, lsData := w 86, lsRes := p 87,
    digest := w 88
    slots := Vector.ofFn fun i : Fin 4 => { status := (w (89 + 2 * i.val)).toNat, value := w (90 + 2 * i.val), flight := none }
    stack := (List.range (w 97).toNat).map fun i => ((w (98 + i)).getLsbD 0, (w (98 + i)).toNat / 2) }

/-! ## What the active module sends (R377) -/

/-- Send a part of the join. -/
def sendState (i : StateItem) (s : State) : State := pairSend (.state i) s

/-- Step 1: the image and map of a bank that is not EMPTY. -/
def sendBank (b : Fin 2) (s : State) : State :=
  let x := bankOf s b
  match x.image with
  | some i =>
    let s1 := sendState (.image b.val (x.state == .active) i.raw) s
    match x.map with
    | some m => sendState (.map b.val m.raw) s1
    | none => s1
  | none => s

/-- Step 1: configuration, forces, TIM_TAI_UTC, and the images, the active one first; the anchor closes it. -/
def sendConfig (s : State) : State :=
  let s1 := s.txn.applied.foldl (fun s o => sendState (.config o.kind o.ring o.bytes) s) s
  let s2 := (rwsList s.rws).foldl (fun s x => sendState (.rws x.1 x.2) s) s1
  let s3 := sendState (.taiUtc s.rwp.taiUtc) s2
  let banks := (allFin 2).filter (fun b => (bankOf s b).state == .active) ++ (allFin 2).filter fun b => (bankOf s b).state != .active
  let s4 := banks.foldl (fun s b => sendBank b s) s3
  let s5 := sendState (.anchor s.tsk.anchor) s4
  s.tsk.planned.foldl (fun s f => sendState (.force f.sym f.value f.at_) s) s5

/-- Step 2: the buckets of every loaded table. -/
def sendTables (s : State) : State :=
  (allFin 16).foldl (fun s n =>
    let t := s.tbl.get n
    if t.loaded then sendState (.table n.val t.k t.salt t.offset t.gen (waysChanged { t with entries := [] } t)) s else s) s

/-- Send lines of the source lane's data partition, which are clean from then on. -/
def sendLines (is : List Nat) (s : State) : State :=
  let m := (s.lanes.get (readLane s)).mem
  is.foldl (fun s i => sendState (.line i (memRead m (dataBase + 256 * i) 256))
    (s.modPair fun p => { p with lines := p.lines.clean i })) s

/-- The dirty lines of a join: those of step 3 as they stand, or those of the final copy (R378). -/
def joinDirty (s : State) : Nat := if s.pair.joinStep = 3 then s.pair.lines.count else s.pair.dirty

/-- Step 3 goes on: while no command waits the active module sends its first dirty line. -/
def joinTick (s : State) : State :=
  if s.pair.state = .activeAlone ∧ s.pair.joinStep = 3 then
    match s.pair.lines.first with
    | some i => sendLines [i] s
    | none => s
  else s

/-- Why the active module refuses a join, as class 0x030C codes it, 0 for no reason. -/
def joinBarOf (feats : List W32) (option own : W32) : Nat :=
  if feats ≠ (List.range 8).map featWord then 1 else if option ≠ own then 2 else 0

/-- Start a join on the active module: refused for good with class 0x030C, or steps 1 and 2, and step 3 with every line dirty and sent; a
standby that comes back from STANDBY_SYNCED is served from step 3 (R387). -/
def beginJoin (s : State) : State :=
  if s.pair.joinBar ≠ 0 then
    if s.pair.refused then s
    else event 0x030C (det [(1, s.pair.joinBar)]) (s.modPair fun p => { p with refused := true })
  else
    let s1 := if s.pair.rejoin then s else sendTables (sendConfig s)
    sendLines (List.range lineCount) (s1.modPair fun p =>
      { p with joinStep := 3, joinAt := s.clk.now, dirty := 0, lines := .every, joinFinal := false, rejoin := false })

/-- The active module can serve a join: it runs the program alone, and the link is up. -/
def canServeJoin (s : State) : Bool :=
  pairMember s && s.pair.state == .activeAlone && s.pair.up && runsProgram s && s.pair.joinStep == 0

/-- The active module serves a partner that joins, but for one it has been told to keep detached. -/
def serveJoin (s : State) : State :=
  if canServeJoin s && s.pair.partner == some .standbyJoining && !s.pair.fixed then beginJoin s else s

/-- The standing figures of a task as the final copy holds them. -/
def taskItem (s : State) (e : TaskEntry) : StateItem :=
  let x := taskRun s e.task
  .task e.task x.next x.first x.k0 x.cycle x.lastCt x.lastInstant x.due

/-- A station's standing as the final copy holds it. -/
def stationItem (s : State) (r : StraitId) (n : Nat) : StateItem :=
  let x := stationOf s r n
  .station r n x.identity x.typ x.res x.misses x.good x.cause x.dropped x.lagging x.outSeq x.inRef.ref x.aRef.ref
    [x.outGen, x.inRef.gen, x.aRef.gen] (x.used.map fun f => (f.time, f.status, f.payload, f.crc)) x.events

/-- The release state of the rings in use. -/
def sendRings (s : State) : State :=
  ((allFin 4).filter fun r => (ringOf s r).active).foldl (fun s r =>
    let x := ringOf s r
    (List.range x.count).foldl (fun s n => sendState (stationItem s r n) s) (sendState (.ring r x.count x.cycle x.aEpoch x.mEpoch) s)) s

/-- The final copy (step 4): the dirty lines, every occupied context with its digest, and the release state. -/
def sendFinal (s : State) : State :=
  let l := readLane s
  let ts := schedTasks s
  let s1 := ts.foldl (fun s e => sendState (.context e.task (ctxWords (ctxOf s l e.task))) s) (sendLines ((List.range lineCount).filter s.pair.lines.has) s)
  let s2 := ts.foldl (fun s e => sendState (taskItem s e) s) s1
  let s3 := s2.tsk.versions.foldl (fun s v => sendState (.version v.writer v.cycle v.instant v.readable v.xout v.xsize) s) s2
  sendState .final (sendRings s3)

/-- JOIN_FINAL_COPY (R377, step 4): in a quiet window that leaves T_fin + 20 µs for the lines that are dirty; the read of the source lane
corrects `fixed` single-bit errors (R35). -/
def execJoinFinalCopy (fixed : Nat) (s : State) : Host.Outcome State Fault Refusal :=
  if pairMember s && s.pair.state == .activeAlone && s.pair.joinStep == 3 && s.pair.up then
    let s1 := s.modPair fun p => { p with dirty := p.lines.count }
    let t := joinFinNs s1
    let open_ := (nextPeriodic s1).map fun n => decide (s1.clk.ct + t + 20000 ≤ n)
    if quiet s1 && open_.getD true then
      ok (sendFinal ((correctedIn (readLane s) fixed s1).modPair fun p => { p with joinStep := 4, joinFinal := true, joinT := s1.clk.ct + t }))
    else ok s1
  else ok s

/-! ## What the standby makes of it -/

/-- Note the step of the join that an item belongs to; the 120 s of R378 run from the first. -/
def noteStep (n : Nat) (s : State) : State :=
  s.modPair fun p => { p with joinStep := n, joinAt := if p.joinStep = 0 then s.clk.now else p.joinAt }

/-- A standby begins to join. -/
def enterJoining (s : State) : State :=
  setRole .standbyJoining
    ((stopStandby s).modPair fun p => { p with fixed := false, joinStep := 0, joinAt := s.clk.now, joinFinal := false, dirty := 0 })

/-- The image of a bank, checked under R228; one that fails ends the join. The active image comes first: with it every table and
the other bank are emptied. -/
def takeImage (bank : Nat) (active : Bool) (bs : List Byte) (s : State) : State :=
  match checkImage s.prg.key bs with
  | .error _ => detach true s
  | .ok i =>
    let b : Fin 2 := finOr bank
    if active then
      let s1 := (allFin 16).foldl (fun s n => if (s.tbl.get n).loaded then unloadTable n s.clk.ct s else s) s
      let s2 := (allFin 2).foldl (fun s b => modBank b (fun _ => { state := .empty, image := none, map := none }) s) s1
      (modBank b (fun _ => { state := .active, image := some i, map := none }) s2).modPrg fun p => { p with fetch := b }
    else modBank b (fun _ => { state := .loaded, image := some i, map := none }) s

/-- The map of the idle bank. -/
def takeMap (bank : Nat) (bs : List Byte) (s : State) : State :=
  modBank (finOr bank) (fun x => { x with state := .mapped, map := some (mapOf bs) }) s

/-- A table as the active module holds it. -/
def takeTableItem (table k : Nat) (salt : W32) (offset gen : Nat) (ways : List BucketWay) (s : State) : State :=
  let n : Fin 16 := finOr table
  modTable n (fun t => { t with gen := gen }) (loadTable n k salt offset s.clk.ct ways s)

/-- The anchor of the active module: the configuration received is applied with it, and nothing has been released yet. -/
def takeAnchor (ct : Nat) (s : State) : State :=
  let s1 := applySet s.txn.applied [] [] (fun _ => 0) ct (freshRuns s)
  s1.modTsk fun k => { k with anchor := ct, forces := [], planned := [], changes := [], image := [] }

/-- A force as the active module holds it. -/
def takeForce (sym : W32) (value : List Byte) (at_ : Nat) (s : State) : State :=
  let f : Force := { sym := sym, value := value, at_ := at_, place := forcePlace s sym }
  s.modTsk fun k => { k with forces := ForceAct.make (.set f) k.forces, planned := ForceAct.make (.set f) k.planned }

/-- A line of the data partition, into every lane in service. -/
def placeLine (i : Nat) (bs : List Byte) (s : State) : State :=
  (lanesIn s).foldl (fun s l => modLane l (fun x => { x with mem := memWrite x.mem (dataBase + 256 * (i % lineCount)) (fitTo 256 bs) }) s) s

/-- A station's standing. -/
def takeStation (r : StraitId) (n : Nat) (f : Station → Station) (s : State) : State := modStation r n f s

/-- A stream as the final copy gives it. -/
def StreamRef.joined (x : StreamRef) (gen : Byte) (seq : Option W32) (now : Nat) : StreamRef := { x with gen := gen, ref := seq, at_ := now }

/-- What a STATE cell carries is taken (R377). -/
def takeItem (i : StateItem) (s : State) : State :=
  match i with
  | .config kind ring bs => noteStep 1 (s.modTxn fun t => { t with applied := putObj { kind := kind, ring := ring, bytes := bs } t.applied })
  | .rws off v => noteStep 1 (s.modRws fun r => rwsPut r off v)
  | .force sym v at_ => noteStep 1 (takeForce sym v at_ s)
  | .taiUtc v => noteStep 1 (rwpSet (fun r => { r with taiUtc := v }) s)
  | .image b active bs => noteStep 1 (takeImage b active bs s)
  | .map b bs => noteStep 1 (takeMap b bs s)
  | .anchor ct => noteStep 1 (takeAnchor ct s)
  | .table n k salt off gen ways => noteStep 2 (takeTableItem n k salt off gen ways s)
  | .line n bs => noteStep 3 (placeLine n bs s)
  | .context t ws =>
    noteStep 4 ((lanesIn s).foldl (fun s l => modCtx l t (fun _ => ctxOfWords ws) s) (s.modTsk fun k => { k with versions := [] }))
  | .task t next first k0 cycle lastCt lastInstant due =>
    noteStep 4 (modRun t (fun x =>
      { x with
        next := next, first := first, k0 := k0, cycle := cycle, lastCt := lastCt, lastInstant := lastInstant, due := due,
        ends := Vector.replicate 3 cycle, ran := cycle.map fun c => (c, lastCt) }) s)
  | .version w cycle inst v xout xsize =>
    noteStep 4 (s.modTsk fun k =>
      { k with versions := k.versions ++ [{ writer := w, cycle := cycle, instant := inst, readable := v, xout := xout, xsize := xsize }] })
  | .ring r count cycle a m =>
    noteStep 4 (modStrait r (fun x =>
      { x with active := true, count := count, cycle := cycle, aEpoch := a, mEpoch := m, prevA := a, prevM := m, waiting := false, mode := none }) s)
  | .station r n identity typ res misses good cause dropped lagging outSeq inSeq aSeq gens used events =>
    let g (k : Nat) : Byte := (gens[k]?).getD 0
    noteStep 4 (takeStation r n (fun x =>
      { x with
        identity := identity, typ := typ, res := res, misses := misses, good := good, cause := cause, dropped := dropped, lagging := lagging,
        outSeq := outSeq, outGen := g 0, inRef := x.inRef.joined (g 1) inSeq s.clk.now, aRef := x.aRef.joined (g 2) aSeq s.clk.now,
        used := used.map fun u => { time := u.1, status := u.2.1, payload := u.2.2.1, crc := u.2.2.2 }, events := events }) s)
  | .final => s.modPair fun p => { p with joinStep := 4, joinFinal := true, joinT := s.clk.ct }

/-- A part of the join arrives: a detached standby to which the active module sends one joins again. -/
def takeStateCell (i : StateItem) (s : State) : State :=
  match s.pair.state with
  | .standbyJoining => takeItem i s
  | .standbyDetached => takeItem i (enterJoining s)
  | _ => s

/-- JOIN_TIMEOUT (R378): 120 s after step 1 the join stops; the standby is detached until PAIR_JOIN. -/
def execJoinTimeout (s : State) : Host.Outcome State Fault Refusal :=
  if pairMember s && decide (s.pair.joinAt + 120000000000 ≤ s.clk.now) then
    match s.pair.state with
    | .standbyJoining => if s.pair.joinStep = 0 then ok s else ok (detach true (event 0x0308 (det [(1, 3)]) s))
    | .activeAlone => ok (s.modPair fun p => { p with joinStep := 0, joinFinal := false })
    | _ => ok s
  else ok s

end Sys2Proof.Machine
end

