-- ==== Sys2Proof/Machine/RwpRegs.lean ====
section
/-! DEFINITION. The registers with RWP fields: their values and what a write changes (R13, R14, R519). -/

namespace Sys2Proof.Machine

/-- The offsets of the registers that hold an RWP field, ascending. -/
def rwpOffsets : List Nat :=
  [0x1040, 0x4020, 0x600C, 0x6020, 0x7000, 0x30004] ++
    ((List.range 8).flatMap fun p => [0x5100C + 0x100 * p, 0x51010 + 0x100 * p, 0x51014 + 0x100 * p]) ++ [0x9000C]

/-- The bits of a register that are RWP. -/
def rwpMask (off : Nat) : W32 :=
  if off = 0x1040 then 0x3
  else if off = 0x4020 then 0xFFFF
  else if off = 0x600C then 0x2
  else if off = 0x6020 then 0xFF
  else if off = 0x7000 then 0x103FF
  else if off = 0x30004 then 0x0FFF000F
  else if off = 0x9000C then 0x1
  else if off % 256 = 0x14 then 0x1FF
  else 0xFFFFFFFF

/-- The metering point of an offset. -/
def rwpPoint (off : Nat) : Fin 8 := finOr ((off - 0x51000) / 256)

/-- The value of a register with RWP fields. -/
def rwpWord (r : Rwp) (off : Nat) : W32 :=
  if off = 0x1040 then r.runCfg
  else if off = 0x4020 then r.taiUtc
  else if off = 0x600C then r.rtcSync
  else if off = 0x6020 then r.rtcTrim
  else if off = 0x7000 then r.wdgCfg
  else if off = 0x30004 then r.pairCfg
  else if off = 0x9000C then r.fwuCfg
  else if off % 256 = 0x0C then r.mtrCalV.get (rwpPoint off)
  else if off % 256 = 0x10 then r.mtrCalI.get (rwpPoint off)
  else r.mtrPhase.get (rwpPoint off)

/-- A word takes effect in a register with RWP fields; its other bits have no effect (R11). -/
def rwpPut (off : Nat) (w : W32) (r : Rwp) : Rwp :=
  let v := (w &&& rwpMask off) ||| (rwpWord r off &&& ~~~ rwpMask off)
  if off = 0x1040 then { r with runCfg := v }
  else if off = 0x4020 then { r with taiUtc := v }
  else if off = 0x600C then { r with rtcSync := v }
  else if off = 0x6020 then { r with rtcTrim := v }
  else if off = 0x7000 then { r with wdgCfg := v }
  else if off = 0x30004 then { r with pairCfg := v }
  else if off = 0x9000C then { r with fwuCfg := v }
  else if off % 256 = 0x0C then { r with mtrCalV := vmod r.mtrCalV (rwpPoint off) fun _ => v }
  else if off % 256 = 0x10 then { r with mtrCalI := vmod r.mtrCalI (rwpPoint off) fun _ => v }
  else { r with mtrPhase := vmod r.mtrPhase (rwpPoint off) fun _ => v }

/-- The registers that a pair shares (R364, R384): SYS_RUN_CFG, TIM_TAI_UTC and PAIR_CFG. -/
def sharedRegs : List Nat := [0x1040, 0x4020, 0x30004]

/-- The item that mirrors a shared register. -/
def sharedItem (s : State) (off : Nat) (w : W32) : MirrorItem := if off = 0x4020 then .taiUtc w s.tim.offset else .rwp off w

end Sys2Proof.Machine
end

