-- ==== Sys2Proof/Machine/PairRole.lean ====
section
/-! DEFINITION. Authority in a pair: claiming, take-over, hand-over and revert, and the descriptors whose mirrored item has been
acknowledged (R363 to R365, R369 to R376, R385, R388 to R398). -/

namespace Sys2Proof.Machine

/-! ## Descriptors of mirrored items (R385) -/

/-- The work of a descriptor whose mirrored item takes effect. -/
def mirroredWork (q : RingId) (c : PairCell) (e : Outst) (s : State) : State × Work :=
  let op := e.desc.opcode.toNat
  if op = 0x20 ∨ op = 0x21 then (s, .finish (doneOk c.data))
  else if op = 0x29 then doStop q e s
  else if op = 0x2A then doTaskTrigger q e s
  else if op = 0x31 then doVarWrite q c.data e s
  else if op = 0x34 then doForceSet q c.data e s
  else if op = 0x35 then doForceClear q e s
  else if op = 0x37 then doForceClearAll q e s
  else
    match c.msg with
    | .mirror i _ => (takeTable i s, .finish (doneOk c.data))
    | _ => (s, .finish (doneOk []))

/-- A mirrored item takes effect at `ct`: its descriptor counts as fetched then, and its work is done. -/
def runMirrored (c : PairCell) (ct : Nat) (s : State) : State :=
  match c.desc with
  | none => s
  | some (q, n) =>
    let s1 := modRing q (RingPair.modWork n fun e => { e with fetchCt := ct }) s
    match findDesc q n s1 with
    | none => s1
    | some e =>
      match mirroredWork q c e s1 with
      | (s2, .finish d) => endDesc q n d s2
      | (s2, .wait b) => waitDesc q n b s2

/-- The work of a descriptor whose item will not be acknowledged any more: done now by a module that still has authority, else
ended. -/
def flushCell (c : PairCell) (s : State) : State :=
  if hasAuthority s then runMirrored c s.clk.ct s
  else
    match c.desc with
    | some (q, n) => endDesc q n (doneWith (if s.pair.state = .safeTalk then stSafeTalk else stNotActive) 0) s
    | none => s

/-- With no synchronised partner no cell of a mirrored item is waited for. -/
def flushMirrors (s : State) : State :=
  if mirrors s then s
  else
    let cs := s.pair.unacked.filter fun c => c.desc.isSome
    cs.foldl (fun s c => flushCell c s) (s.modPair fun p => { p with unacked := p.unacked.filter fun c => c.desc.isNone })

/-- The counts of the standby's frames that were read while it was synchronised say no more (R399). -/
def forgetCounts (s : State) : State :=
  s.modNet fun n => { n with rings := n.rings.map fun r => { r with stations := r.stations.map fun x => { x with standbyCount := none } } }

/-- The active module goes on alone (R393). -/
def goAlone (rejoin : Bool) (s : State) : State :=
  flushMirrors (setRole .activeAlone
    ((forgetCounts s).modPair fun p => { p with joinStep := 0, joinFinal := false, rejoin := rejoin && s.txn.phase != .applying && s.txn.phase != .committed }))

/-! ## Claiming (R369 to R373, R388) -/

/-- The partner reports itself active over a working link. -/
def partnerActive (s : State) : Bool :=
  s.pair.up && (s.pair.partner == some .activeSynced || s.pair.partner == some .activeAlone)

/-- The two conditions of R371: the partner is declared not active, and over a working link reports neither an active state nor
CLAIMING. -/
def claimOpen (s : State) : Bool :=
  !s.pair.ilkIn && (!s.pair.up || (!partnerActive s && s.pair.partner != some .claiming))

/-- The module is in a state that may claim: synchronised standby, or a detached one with UNSYNC_TAKEOVER (R388). -/
def mayTakeOver (s : State) : Bool :=
  match s.pair.state with
  | .standbySynced => true
  | .standbyDetached => s.rwp.pairCfg.getLsbD 3
  | _ => false

/-- Enter CLAIMING. -/
def startClaim (s : State) : State :=
  startToggling (setPairState .claiming (s.modPair fun p => { p with before := p.state }))

/-- The module claims where R371 allows it, no back-off runs, and it is not the one that hands over. -/
def claimIf (s : State) : State :=
  if pairMember s && claimOpen s && s.pair.backoff.isNone && s.pair.handover.isNone then startClaim s else s

/-- A standby claims (R388). -/
def tryClaim (s : State) : State := if mayTakeOver s then claimIf s else s

/-- Class 0x0304 where the partner reports itself active and the line does not toggle (R371). -/
def checkInterlock (s : State) : State :=
  if pairMember s && partnerActive s && !s.pair.ilkIn then event 0x0304 (det [(1, 1)]) s else s

/-! ## Becoming active (R373, R389 to R391) -/

/-- The Class A stream of a new active module jumps ahead of the partner's (R326), and never back behind what it has sent itself
(R56). -/
def jumpClassA (s : State) : State :=
  s.modNet fun n => { n with rings := n.rings.map fun r =>
    match r.partnerA.ref with
    | some q => { r with seqA := if serialDiff r.seqA (q + 1048576) < 0 then q + 1048576 else r.seqA, atxns := [] }
    | none => { r with atxns := [] } }

/-- The own instants of a new active module are no earlier than the latest mirrored ones (R391). -/
def raiseFloors (s : State) : State :=
  let f := largest s.tsk.lastForceAt.toList
  let p := largest s.tsk.lastWriteP.toList
  let fl := largest s.tsk.floor.toList
  s.modTsk fun k =>
    { k with lastForceAt := Vector.replicate 32 f, lastWriteP := Vector.replicate 32 p, floor := Vector.replicate 32 fl }

/-- A transaction that is not decided ends, with an ABORT on every ring it prepared (R390); a staged set without an owner here is
dropped with it. -/
def endUndecided (s : State) : State :=
  match s.txn.phase with
  | .committed => s
  | .none => s
  | _ => dropTxn stAborted.toNat 0 (abortRings s)

/-- An inauguration under way at a take-over is given up (R359). -/
def endInaugs (s : State) : State :=
  (allFin 4).foldl (fun s r =>
    match (ringOf s r).mode with
    | some m => if m.numbering.isSome && m.decided == none then abortInaug r m s else s
    | none => s) s

/-- A module that becomes active starts its program where SYS_RUN_CFG says so and none runs (R376). -/
def startAsActive (s : State) : State :=
  match s.sys.run with
  | .stopped => if s.rwp.runCfg.getLsbD 0 && (activeImage s).isNone then s.modSys fun y => { y with run := .starting } else s
  | _ => s

/-- What a take-over does before any other authority action (R389): class 0x0302, and the offset to an external grandmaster as the old
active module last mirrored it (R70, R384). -/
def takeOver (s : State) : State :=
  let s1 := event 0x0302 (det [(8, s.pair.ilkOffCt)]) s
  (s1.modPair fun p => { p with takeovers := satInc p.takeovers 1 }).modTim fun t => { t with offset := s.pair.gmOffset }

/-- The module as active (R373, R389 to R391). -/
def activated (s : State) : State :=
  let again := s.pair.before != .waiting
  let s1 := if again then takeOver s else s
  let synced := s.pair.up && s.pair.partner == some .standbySynced
  let s2 := setRole (if synced then .activeSynced else .activeAlone)
    (s1.modPair fun p => { p with healthySince := none, handover := none, fixed := false, joinStep := 0, joinFinal := false, rejoin := false })
  let s3 := if again then endInaugs (endUndecided (raiseFloors (jumpClassA s2))) else s2
  raise 34 (startAsActive s3)

/-- Become active (R373): a take-over is completed only where it breaks no promise of R52 to R56 (R57, R392). -/
def becomeActive (s : State) : State := keepPromises s (activated s)

/-- CLAIM_COMPLETE (R373): 100 µs of toggling without a break, with the partner declared not active throughout the last 50 µs. -/
def execClaimComplete (s : State) : Host.Outcome State Fault Refusal :=
  if s.pair.state == .claiming && s.pair.toggling && decide (s.pair.toggleSince + 100000 ≤ s.clk.now) && !s.pair.ilkIn &&
      decide (s.pair.ilkOffAt + 50000 ≤ s.clk.now) then ok (becomeActive s)
  else ok s

/-- CLAIM_BACKOFF_END (R372): 100 µs after the tie-break. -/
def execClaimBackoffEnd (s : State) : Host.Outcome State Fault Refusal :=
  match s.pair.backoff with
  | some t => if t ≤ s.clk.now then ok (tryClaim (s.modPair fun p => { p with backoff := none })) else ok s
  | none => ok s

/-! ## The interlock line (R370, R372, R374, R375) -/

/-- The module strapped PAIR_ID 1 gives way: from CLAIMING it backs off, from an active state it becomes a standby. -/
def giveWay (s : State) : State :=
  match s.pair.state with
  | .claiming =>
    event 0x0303 (det [(1, 1)])
      (setPairState s.pair.before ((stopToggling s).modPair fun p => { p with backoff := some (s.clk.now + 100000) }))
  | .activeSynced => flushMirrors (setRole .standbySynced (stopToggling s))
  | .activeAlone => flushMirrors (detach false (stopToggling s))
  | _ => s

/-- The line comes to be declared toggling while the module claims or is active. -/
def bothToggle (s : State) : State :=
  let s1 := if s.pair.state = .activeSynced ∨ s.pair.state = .activeAlone then event 0x0304 (det [(1, 2)]) s else s
  if s.sys.pairId then giveWay s1 else s1

/-- ILK_IN_TOGGLING (R370): a run of 16 rising edges ends. -/
def execIlkInToggling (s : State) : Host.Outcome State Fault Refusal :=
  let s1 := s.modPair fun p => { p with ilkIn := true, ilkRunAt := s.clk.now }
  if pairMember s && !s.pair.ilkIn then ok (bothToggle s1) else ok s1

/-- ILK_IN_STOPPED (R370): no run has ended within the last 50 µs. -/
def execIlkInStopped (s : State) : Host.Outcome State Fault Refusal :=
  if s.pair.ilkIn && decide (s.pair.ilkRunAt + 50000 ≤ s.clk.now) then
    ok (tryClaim (checkInterlock (s.modPair fun p => { p with ilkIn := false, ilkOffAt := s.clk.now, ilkOffCt := s.clk.ct })))
  else ok s

/-- ILK_TEST_PULSE (R375): every 10 s while the own line does not toggle; `seen` is what the readback shows. -/
def execIlkTestPulse (seen : Bool) (s : State) : Host.Outcome State Fault Refusal :=
  if pairMember s && !s.pair.toggling && decide (s.pair.pulseSentAt + 10000000000 ≤ s.clk.now) then
    let s1 := emit .ilkPulse (s.modPair fun p => { p with pulseSentAt := s.clk.now })
    ok (if seen then s1 else event 0x030F 0 s1)
  else ok s

/-- ILK_TEST_PULSE_RECEIVED (R375). -/
def execIlkTestPulseReceived (s : State) : Host.Outcome State Fault Refusal :=
  ok (s.modPair fun p => { p with pulseSeenAt := s.clk.now })

/-- ILK_PULSE_MISSING (R375): a toggling module has seen no pulse for 11 s. -/
def execIlkPulseMissing (s : State) : Host.Outcome State Fault Refusal :=
  if pairMember s && s.pair.toggling && decide (max s.pair.pulseSeenAt s.pair.toggleSince + 11000000000 ≤ s.clk.now) then
    ok (event 0x030F 0 (s.modPair fun p => { p with pulseSeenAt := s.clk.now }))
  else ok s

/-! ## Starting a pair (R376) -/

/-- The preferred module of the pair. -/
def preferred (s : State) : Bool := s.rwp.pairCfg.getLsbD 1 == s.sys.pairId

/-- A waiting or detached module goes on as R376 says: it joins an active partner; of two waiting modules the preferred one
claims, that of PAIR_ID 1 once it has the value of the PAIR_ID 0 module, which governs. -/
def proceed (s : State) : State :=
  if sendsCells s && s.pair.up then
    match s.pair.state with
    | .waiting =>
      if partnerActive s then enterJoining s
      else if s.pair.partner == some .waiting && (!s.sys.pairId || s.pair.prefKnown) && preferred s then claimIf s
      else s
    | .standbyDetached => if partnerActive s && !s.pair.fixed then enterJoining s else s
    | _ => s
  else s

/-- PAIR_START_TIMEOUT (R376): 2 s after the self-test the link is not up. -/
def execPairStartTimeout (s : State) : Host.Outcome State Fault Refusal :=
  if sendsCells s && s.pair.state == .waiting && !s.pair.up && decide (s.pair.startAt + 2000000000 ≤ s.clk.now) then
    ok (if claimOpen s then claimIf s else detach false s)
  else ok s

/-! ## Losing the partner (R393, R394) -/

/-- 100 µs have passed since an instant. -/
def after100us (s : State) (t : Option Nat) : Bool := (t.map fun x => decide (x + 100000 ≤ s.clk.now)).getD false

/-- The instant at which the link failed, while it is failed. -/
def failedSince (s : State) : Option Nat := if s.pair.failed then some s.pair.failedAt else none

/-- ACTIVE_ALONE_ENTRY (R393): 100 µs after the link failed or the partner reported SAFE_TALK. -/
def execActiveAloneEntry (s : State) : Host.Outcome State Fault Refusal :=
  if s.pair.state == .activeSynced && pairMember s && (after100us s (failedSince s) || after100us s s.pair.partnerSafeAt) then ok (goAlone false s)
  else ok s

/-- STANDBY_DETACH (R394): 100 µs after the link failed the partner is still declared active. -/
def execStandbyDetach (s : State) : Host.Outcome State Fault Refusal :=
  if s.pair.state == .standbySynced && pairMember s && s.pair.ilkIn && after100us s (failedSince s) then
    ok (detach false (event 0x0308 (det [(1, 5)]) s))
  else ok s

/-! ## Reverting and handing over (R395 to R398) -/

/-- A port is down while the active module's matching port is up. -/
def portMissing (s : State) (p : PortId) : Bool := !portUp s p && !s.pair.partnerDown.contains p

/-- No ring port is down while the active module's matching port is up. -/
def ringPortsUp (s : State) : Bool :=
  (allFin 4).all fun r => !(ringOf s r).active || (!portMissing s (eastPort r) && !portMissing s (westPort r))

/-- The preferred module is healthy (R395). -/
def healthy (s : State) : Bool :=
  s.pair.state == .standbySynced && s.vot.mode == 0 && s.tim.quality == .locked && ringPortsUp s

/-- Follow the health of the module: since when it has been healthy without a break. -/
def trackHealth (s : State) : State :=
  s.modPair fun p =>
    { p with healthySince := if healthy s then some (p.healthySince.getD s.clk.now) else none }

/-- PAIR_CFG.HOLD_OFF in ns. -/
def holdOffNs (s : State) : Nat := bitsOf s.rwp.pairCfg 16 12 * 1000000000

/-- REVERT_HOLD_OFF (R396, R397): the preferred module has been healthy for HOLD_OFF: it asks for the role, or at the third time
within an hour reverts no more. -/
def execRevertHoldOff (s0 : State) : Host.Outcome State Fault Refusal :=
  let s := trackHealth s0
  let due := (s.pair.healthySince.map fun t => decide (t + holdOffNs s ≤ s.clk.now)).getD false
  if pairMember s && preferred s && s.rwp.pairCfg.getLsbD 2 && !s.pair.revertOff && due then
    let l := lastHour s s.pair.reverts
    if 2 ≤ l.length then ok (event 0x030B 0 (s.modPair fun p => { p with revertOff := true }))
    else ok (pairSend .revertReq (s.modPair fun p => { p with reverts := l ++ [s.clk.now], healthySince := some s.clk.now }))
  else ok s

/-- REVERT_RATE_WINDOW_EXPIRY (R397): reverts of more than an hour ago count no more. -/
def execRevertRateWindowExpiry (s : State) : Host.Outcome State Fault Refusal :=
  ok (s.modPair fun p => { p with reverts := lastHour s p.reverts })

/-- Nothing holds a hand-over back: no prepared transaction, no inauguration, no open recovery (R396, R398). -/
def mayHandOver (s : State) : Bool :=
  s.txn.phase != .applying && s.txn.phase != .committed &&
    ((allFin 4).all fun r => (ringOf s r).mode.isNone && (ringOf s r).inaugBy.isNone) && openCount s == 0

/-- The open Class A transactions end with NOT_ACTIVE. -/
def endClassA (s : State) : State :=
  (allFin 4).foldl (fun s r => (ringOf s r).atxns.foldl (fun s a => failA r a stNotActive s) s) s

/-- The authority descriptors held since the hand-over began complete with NOT_ACTIVE. -/
def refuseHeld (since : Nat) (s : State) : State :=
  (allFin 32).foldl (fun s q =>
    ((s.hif.rings.get q).work.filter fun e => e.ended.isNone && e.desc.authority && decide (since ≤ e.fetchCt)).foldl
      (fun s e => endDesc q e.num (doneWith stNotActive 0) s) s) s

/-- Steps 2 and 3 of R396 end: the module stops toggling, sends RELINQUISH and is a standby. -/
def giveUp (h : Handover) (s : State) : State :=
  let s1 := event 0x030A (det [(1, bit h.desc.isSome)]) (endClassA s)
  flushMirrors (refuseHeld h.since (setRole .standbySynced (pairSend .relinquish (stopToggling s1))))

/-- The state of a hand-over is looked at: the role is given up, or a hand-over that has found no taker ends. -/
def tryHandOver (s : State) : State :=
  match s.pair.handover with
  | none => s
  | some h =>
    if s.pair.state = .activeSynced then
      if mayHandOver s && (decide (h.since + 100000000 ≤ s.clk.ct) || (allFin 4).all fun r => (ringOf s r).atxns.isEmpty) then giveUp h s else s
    else if h.limit ≤ s.clk.ct then
      let s1 := s.modPair fun p => { p with handover := none }
      match h.desc with
      | some (q, n) => tryClaim (endDesc q n (doneWith stTimeout 0) s1)
      | none => tryClaim s1
    else s

/-- REVERT_WAIT_TIMEOUT (R396): 100 ms after the hand-over began. -/
def execRevertWaitTimeout (s : State) : Host.Outcome State Fault Refusal := ok (tryHandOver s)

/-- The time to X of a transaction that is prepared (R402). -/
def preparedNs (s : State) : Nat := if s.txn.phase = .applying ∨ s.txn.phase = .committed then s.txn.x - s.clk.ct else 0

/-- Begin a hand-over on the active module with a synchronised partner, which has 200 ms, and the time to X of a prepared transaction, to
become active (R396, R402). -/
def beginHandOver (desc : Option (RingId × Nat)) (s : State) : State :=
  tryHandOver (s.modPair fun p =>
    { p with handover := some { since := s.clk.ct, limit := s.clk.ct + 200000000 + preparedNs s, desc := desc } })

/-- The partner has become active: the hand-over has succeeded. -/
def endHandOver (s : State) : State :=
  match s.pair.handover with
  | some h =>
    if s.pair.state ≠ .activeSynced ∧ partnerActive s then
      let s1 := s.modPair fun p => { p with handover := none }
      match h.desc with
      | some (q, n) => endDesc q n (doneOk []) s1
      | none => s1
    else s
  | none => s

/-! ## The registers and the descriptors (R401, R402) -/

/-- A PAIR register. -/
def pairWord (s : State) (off : Nat) : Nat :=
  let p := s.pair
  if off = 0 then
    (lastHour s p.reverts).length % 256 * 65536 + bit p.revertOff * 128 + bit p.up * 64 + bit p.ilkIn * 32 + bit p.toggling * 16 +
      bit s.sys.pairId * 8 + (if pairMember s then p.state.code else 0)
  else if off = 4 then s.rwp.pairCfg.toNat
  else if off = 8 then p.repeats.toNat * 65536 + p.delay.toNat
  else if off = 0xC then (if p.joinFinal then 5 else p.joinStep) * 65536 + joinDirty s % 65536
  else if off = 0x10 then p.changedCt % 4294967296
  else if off = 0x14 then p.changedCt / 4294967296
  else if off = 0x18 then p.splitMiss.toNat * 65536 + p.resyncs.toNat * 256 + p.takeovers.toNat
  else 0

/-- The partner's state as PAIR_STATUS gives it. -/
def partnerCode (s : State) : Nat := if s.pair.up then (s.pair.partner.map fun p => p.code).getD 0xFF else 0xFF

/-- The 64 bytes of PAIR_STATUS. -/
def pairStatusBytes (s : State) : List Byte :=
  let m := s.pair.lastMirrored.getD (0, 0)
  fitTo 64 (fields [(4, pairWord s 0), (4, pairWord s 4), (4, pairWord s 8), (4, pairWord s 0xC), (8, s.pair.changedCt), (4, pairWord s 0x18),
    (1, partnerCode s), (1, m.1), (2, 0), (4, m.2)])

/-- PAIR_STATUS. -/
def doPairStatus (e : Outst) (s : State) : State × Work :=
  if e.desc.len < 64 then (s, .finish (doneWith stBadDescriptor 4))
  else (bufWrite e.desc 0 (pairStatusBytes s) s, .finish (doneOk (fields [(1, s.pair.state.code), (1, partnerCode s)])))

/-- PAIR_STATUS (R402). -/
def execPairStatus (q : RingId) (s : State) : Host.Outcome State Fault Refusal := ok (serve q 0xA0 s doPairStatus)

/-- PAIR_SWITCH. -/
def doPairSwitch (q : RingId) (e : Outst) (s : State) : State × Work :=
  if mirrors s && s.pair.handover.isNone then
    (leaveService q e.num (beginHandOver (some (q, e.num)) s), .wait e.bound)
  else if hasAuthority s then (s, .finish (doneWith stBadState 0))
  else (s, .finish (doneWith stNotActive 0))

/-- PAIR_SWITCH (R396, R401). -/
def execPairSwitch (q : RingId) (s : State) : Host.Outcome State Fault Refusal := ok (serve q 0xA1 s (doPairSwitch q))

/-- PAIR_JOIN. -/
def doPairJoin (_ : Outst) (s : State) : State × Work :=
  if !pairMember s then (s, .finish (doneWith stBadState 0))
  else
    match s.pair.state with
    | .standbyDetached => (enterJoining s, .finish (doneOk []))
    | .activeAlone =>
      let s1 := s.modPair fun p => { p with fixed := false, refused := false }
      if canServeJoin s1 && (s.pair.partner == some .standbyDetached || s.pair.partner == some .standbyJoining) then (beginJoin s1, .finish (doneOk []))
      else (s1, .finish (doneWith stBadState 0))
    | _ => (s, .finish (doneWith stBadState 0))

/-- PAIR_JOIN (R377, R401). -/
def execPairJoin (q : RingId) (s : State) : Host.Outcome State Fault Refusal := ok (serve q 0xA2 s doPairJoin)

/-- What PAIR_DETACH does: a standby detaches itself; an active module goes on alone and joins no standby until PAIR_JOIN. -/
def detachPair (s : State) : State :=
  match s.pair.state with
  | .activeSynced => goAlone false (s.modPair fun p => { p with fixed := true })
  | .activeAlone => s.modPair fun p => { p with fixed := true, joinStep := 0, joinFinal := false }
  | _ => detach true s

/-- PAIR_DETACH. -/
def doPairDetach (_ : Outst) (s : State) : State × Work :=
  let role := hasAuthority s || s.pair.state == .standbySynced || s.pair.state == .standbyJoining || s.pair.state == .standbyDetached
  if pairMember s && role then (detachPair s, .finish (doneOk [])) else (s, .finish (doneWith stBadState 0))

/-- PAIR_DETACH (R401). -/
def execPairDetach (q : RingId) (s : State) : Host.Outcome State Fault Refusal := ok (serve q 0xA3 s doPairDetach)

/-- PAIR_REVERT_ARM. -/
def doPairRevertArm (_ : Outst) (s : State) : State × Work :=
  (s.modPair fun p => { p with revertOff := false, reverts := [] }, .finish (doneOk []))

/-- PAIR_REVERT_ARM (R397). -/
def execPairRevertArm (q : RingId) (s : State) : Host.Outcome State Fault Refusal := ok (serve q 0xA4 s doPairRevertArm)

end Sys2Proof.Machine
end

