-- ==== Sys2Proof/Machine/PairLink.lean ====
section
/-! DEFINITION. The Narrows link: cells, heartbeats, what arrives from the partner, and mirroring (R366 to R368, R376 to R387, R390, R399). -/

namespace Sys2Proof.Machine

/-! ## A cell arrives (R367, R368) -/

/-- A valid cell has arrived: it is acknowledged, and with it the unbroken run of valid cells goes on. -/
def noteCell (seq : Nat) (s : State) : State :=
  emit (.cellAck seq) (s.modPair fun p =>
    { p with
      goodSince := if p.cellAt + 20000 < s.clk.now then s.clk.now else p.goodSince, cellAt := s.clk.now,
      rxSeen := (seq :: p.rxSeen.filter fun n => n != seq).take 1024 })

/-- Take a cell: a repeat of one already taken is acknowledged and does nothing more. -/
def takeCell (seq : Nat) (f : State → State) (s : State) : State :=
  if sendsCells s then (if s.pair.rxSeen.contains seq then noteCell seq s else f (noteCell seq s)) else s

/-! ## The link (R366 to R368) -/

/-- The Narrows link has failed, with its cause in the order of R368. -/
def failLink (cause : Nat) (s : State) : State :=
  if s.pair.up then
    let s1 := event 0x0305 (det [(1, cause)]) (s.modPair fun p =>
      { p with up := false, failed := true, failedAt := s.clk.now, goodSince := s.clk.now, partner := none, partnerSafeAt := none,
               prefKnown := false, rxSeen := [], joinStep := if p.state = .activeAlone then 0 else p.joinStep })
    tryClaim s1
  else s.modPair fun p => { p with goodSince := s.clk.now }

/-- NARROWS_SILENCE (R368): no valid cell for 20 µs. -/
def execNarrowsSilence (s : State) : Host.Outcome State Fault Refusal :=
  if s.pair.up && decide (s.pair.cellAt + 20000 ≤ s.clk.now) then ok (failLink 1 s) else ok s

/-- NARROWS_DELAY_MEASURE (R367, R368): once every 1 ms, half of a round trip; above 10 µs the link has failed. -/
def execNarrowsDelayMeasure (roundTrip : Nat) (s : State) : Host.Outcome State Fault Refusal :=
  if s.pair.delayAt + 1000000 ≤ s.clk.now then
    let d := roundTrip / 2
    let s1 := s.modPair fun p => { p with delay := BitVec.ofNat 16 (min 65535 d), delayAt := s.clk.now }
    if pairMember s && decide (10000 < d) then ok (failLink 2 s1) else ok s1
  else ok s

/-- NARROWS_LOCK_LOSS (R366, R368): either lane has lost symbol lock. -/
def execNarrowsLockLoss (s : State) : Host.Outcome State Fault Refusal := if pairMember s then ok (failLink 4 s) else ok s

/-- The cells that have waited 25 µs for their acknowledgement. -/
def overdueCells (s : State) : List PairCell := s.pair.unacked.filter fun c => decide (c.sentAt + 25000 ≤ s.clk.now)

/-- Send a cell again. -/
def repeatCell (c : PairCell) (s : State) : State :=
  emit (.cell c.seq c.msg) (s.modPair fun p =>
    { p with
      sentAt := s.clk.now, repeats := satInc p.repeats 1,
      unacked := updFirst (fun x => x.seq == c.seq) (fun x => { x with sentAt := s.clk.now, tries := x.tries + 1 }) p.unacked })

/-- CELL_REPEAT (R367, R368): cells unacknowledged for 25 µs are sent again, at most three times; after the third the link has
failed, and a cell that no descriptor waits for is given up. -/
def execCellRepeat (s : State) : Host.Outcome State Fault Refusal :=
  let l := overdueCells s
  let s1 := (l.filter fun c => decide (c.tries < 3)).foldl (fun s c => repeatCell c s) s
  if l.any fun c => decide (3 ≤ c.tries) then
    ok (failLink 3 (s1.modPair fun p =>
      { p with unacked := p.unacked.filter fun c => c.desc.isSome || decide (c.tries < 3) || decide (s.clk.now < c.sentAt + 25000) }))
  else ok s1

/-- GLB_OPTION (R4). -/
def optionWord (s : State) : W32 := if safetyOption s then 5 else 2

/-- The PAIR_ID 0 module of two waiting ones writes its PREFERRED_ID into the partner (R376). -/
def sendPreferred (s : State) : State :=
  if !s.sys.pairId && s.pair.state == .waiting then pairSend (.mirror (.rwp 0x30004 s.rwp.pairCfg) none) s else s

/-- The link is declared up: valid cells for 100 ms without a break, with the delay within the limit. -/
def linkReady (s : State) : Bool :=
  sendsCells s && !s.pair.up && decide (s.clk.now ≤ s.pair.cellAt + 20000) && decide (s.pair.goodSince + 100000000 ≤ s.clk.now) &&
    decide (s.pair.delay.toNat ≤ 10000)

/-- NARROWS_LINK_UP (R368, R376, R377). -/
def execNarrowsLinkUp (feats : List W32) (i : LinkIdent) (s : State) : Host.Outcome State Fault Refusal :=
  if linkReady s then
    let s1 := s.modPair fun p =>
      { p with
        up := true, failed := false, joinBar := joinBarOf feats i.option (optionWord s), refused := false,
        clockId := some i.clock }
    let s2 := event 0x0306 (det [(2, s.pair.delay.toNat)]) s1
    ok (serveJoin (proceed (checkInterlock (sendPreferred (reportPoints allPoints s2)))))
  else ok s

/-- What the module looks after while the link idles: mirrored items no longer awaited, a hand-over, a join, its health. -/
def pollPair (s : State) : State := trackHealth (serveJoin (endHandOver (tryHandOver (flushMirrors s))))

/-- The ring ports of the rings in use that are down, as the model's heartbeat tells the partner for R395 (log entry 142). -/
def portsDown (s : State) : List PortId :=
  ((allFin 4).filter fun r => (ringOf s r).active).flatMap fun r => [eastPort r, westPort r].filter fun p => !portUp s p

/-- HEARTBEAT_SEND (R367): on a link idle for 2 µs; the completeness mark is the send CT, for every change before it has left. -/
def execHeartbeatSend (s : State) : Host.Outcome State Fault Refusal :=
  if sendsCells s && decide (s.pair.sentAt + 2000 ≤ s.clk.now) then
    let s1 := pollPair s
    ok (pairSend (.heartbeat s1.clk.ct s1.pair.state s1.pair.ilkIn s1.clk.ct (portsDown s1)) s1)
  else ok s

/-! ## Heartbeats (R367, R371, R376, R393) -/

/-- The active module finds that its partner is synchronised no more. -/
def noteDeparture (ct : Nat) (st : PairState) (s : State) : State :=
  if s.pair.state = .activeSynced ∧ s.pair.changedCt < ct then
    match st with
    | .standbyJoining => goAlone true s
    | .standbyDetached => goAlone false s
    | .waiting => goAlone false s
    | _ => s
  else s

/-- The synchronised standby finds that the active module goes on alone: detached by PAIR_DETACH, or, where its own program is
stopped, after a RUN, which it joins (R384). -/
def noteAlone (ct : Nat) (st : PairState) (s : State) : State :=
  if s.pair.state = .standbySynced ∧ s.pair.changedCt < ct ∧ st = .activeAlone ∧ s.pair.handover.isNone then
    if runsProgram s then detach true s else enterJoining s
  else s

/-- The active module's join ends where the partner joins no more. -/
def noteJoin (st : PairState) (s : State) : State :=
  if s.pair.state = .activeAlone ∧ s.pair.joinStep ≠ 0 ∧ st ≠ .standbyJoining ∧ st ≠ .standbySynced then
    s.modPair fun p => { p with joinStep := 0, joinFinal := false }
  else s

/-- A HEARTBEAT arrives. -/
def takeHeartbeat (ct : Nat) (st : PairState) (_ : Bool) (mark : Nat) (down : List PortId) (s : State) : State :=
  let was := partnerActive s
  let s1 := s.modPair fun p =>
    { p with
      partner := some st, mark := max p.mark mark, partnerDown := down,
      partnerSafeAt := if st = .safeTalk then some (p.partnerSafeAt.getD s.clk.now) else none }
  let s2 := if was then s1 else checkInterlock s1
  pollPair (tryClaim (proceed (noteJoin st (noteAlone ct st (noteDeparture ct st s2)))))

/-- NARROWS_HEARTBEAT. -/
def execNarrowsHeartbeat (seq ct : Nat) (st : PairState) (ilk : Bool) (x : HeartbeatTail) (s : State) : Host.Outcome State Fault Refusal :=
  ok (takeCell seq (takeHeartbeat ct st ilk x.mark x.down) s)

/-! ## Local channels, inputs and events (R380, R382, R383) -/

/-- NARROWS_EDGES (R382). -/
def execNarrowsEdges (seq : Nat) (changes : List PointChange) (s : State) : Host.Outcome State Fault Refusal :=
  ok (takeCell seq (fun s => s.modPair fun p => { p with points := recentChanges s.clk.ct (changes.reverse ++ p.points) }) s)

/-- The partner's record of a ring cycle arrives; a cycle that waits for it is settled (R380). -/
def takeAccepted (r : StraitId) (a : AcceptedRec) (s : State) : State :=
  let s1 := s.modPair fun p => { p with accepted := (a :: p.accepted).take 64 }
  if (ringOf s1 r).waiting && synced s1 then
    match partnerRecord s1 r with
    | some x => settleAgreed r x s1
    | none => s1
  else s1

/-- NARROWS_ACCEPTED. -/
def execNarrowsAccepted (seq : Nat) (r : StraitId) (due : Nat) (map : BitVec 256) (crc : W32) (s : State) :
    Host.Outcome State Fault Refusal :=
  ok (takeCell seq (takeAccepted r { ring := r, due := due, map := map, crc := crc }) s)

/-- A recognition of the partner (R383). -/
def takeRecognised (task ct : Nat) (s : State) : State :=
  match taskEntry s task with
  | some e => if synced s && runsProgram s then recognise e ct ct none s else s
  | none => s

/-- NARROWS_RECOGNISED. -/
def execNarrowsRecognised (seq task ct : Nat) (s : State) : Host.Outcome State Fault Refusal := ok (takeCell seq (takeRecognised task ct) s)

/-- NARROWS_STATE (R377). -/
def execNarrowsState (seq : Nat) (item : StateItem) (s : State) : Host.Outcome State Fault Refusal :=
  ok (takeCell seq (takeStateCell item) s)

/-! ## ROLE messages (R388, R390, R396) -/

/-- RELINQUISH (R388): the partner gives up authority. -/
def execRelinquish (seq : Nat) (s : State) : Host.Outcome State Fault Refusal :=
  ok (takeCell seq (fun s => tryClaim (s.modPair fun p => { p with partner := if partnerActive s then some .waiting else p.partner })) s)

/-- REVERT_REQ (R396). -/
def execRevertReq (seq : Nat) (s : State) : Host.Outcome State Fault Refusal :=
  ok (takeCell seq (fun s => if mirrors s && s.pair.handover.isNone then beginHandOver none s else s) s)

/-- The mode changes of a mirrored transaction end without effect. -/
def dropModes (s : State) : State :=
  (allFin 4).foldl (fun s r => modStrait r (fun x =>
    { x with mode := x.mode.bind fun m => if m.numbering.isNone && m.decided == none then none else some m }) s) s

/-- The decision on the prepared transaction arrives at the standby (R390). -/
def takeDecision (commit : Bool) (s : State) : State :=
  match s.txn.phase with
  | .applying =>
    let s1 := s.modPair fun p => { p with decided := some commit }
    if hasAuthority s then s else if commit then commitTxn s1 else dropTxn stAborted.toNat 0 (dropModes s1)
  | _ => s

/-- ROLE_DECISION. -/
def execRoleDecision (seq : Nat) (commit : Bool) (s : State) : Host.Outcome State Fault Refusal := ok (takeCell seq (takeDecision commit) s)

/-! ## Mirrored items on the standby (R384 to R387) -/

/-- What a mirrored change is told apart by, which has no descriptor here: a number that no descriptor has, from the sequence number of
its cell. -/
def mirrorNum (s : State) : Nat := 2 ^ 64 + s.pair.rxSeen.headD 0

/-- The standby can prepare a mirrored transaction: the set passes its own check, and its MAPPED bank holds the same image and a map
with the same CRC (R255, R384). -/
def canPrepare (mapped : Option (W64 × W32)) (s : State) : Bool := (checkTxn s s.clk.ct).isNone && switchMapped s == mapped

/-- A mirrored transaction is prepared, and held until the decision; one that this module cannot prepare differs from the
partner's. -/
def standbyApply (num : Byte) (x dT : Nat) (mapped : Option (W64 × W32)) (s : State) : State :=
  if !canPrepare mapped s then leaveSync 2 (dropTxn stRefused.toNat 0 s)
  else
    prepareRings x ((s.modTxn fun t =>
      { t with phase := .applying, num := num, x := x, w := txnWindow s, xReg := x, dT := dT, required := [], acked := [], apply := none }).modPair
        fun p => { p with decided := none })

/-- A mirrored image takes the place of what the bank holds. -/
def takeMirroredImage (bank : Nat) (bs : List Byte) (s : State) : State :=
  if (bankOf s (finOr bank)).state = .active then s else takeImage bank false bs s

/-- A mirrored force, checked as the active module checked it. -/
def takeMirroredForce (q : RingId) (sym : W32) (v : List Byte) (s : State) : State :=
  match forceCheck s sym v with
  | none =>
    let f := forceOf s q s.clk.ct sym v
    enterForce q (mirrorNum s) f.at_ (.set f) s
  | some _ => s

/-- The part of the retentive area that the active image uses. -/
def retentiveCrc (s : State) : W32 := crc32c (memRead s.pst.shadow 0 (retBytesNow s))

/-- The release that began last: its task and cycle. -/
def latestRelease (s : State) : Option (Nat × Nat) :=
  ((schedTasks s).foldl (fun (b : Option (Nat × Nat × Nat)) e =>
    match (taskRun s e.task).cycle with
    | some c =>
      let ct := (taskRun s e.task).lastCt
      match b with
      | some x => if x.1 < ct then some (ct, e.task, c) else b
      | none => some (ct, e.task, c)
    | none => b) none).map fun x => x.2

/-- The retentive CRC of the active module at the end of a release: compared where this module stands at the end of the same
release. -/
def compareRetentive (task cycle : Nat) (crc : W32) (s : State) : State :=
  if runsProgram s && quiet s && latestRelease s == some (task, cycle) && retentiveCrc s != crc then leaveSync 2 s else s

/-- The body of a mirrored page: of the page of chip time, only the epochs are the pair's. -/
def pairPage (page : Nat) (body : List Byte) (s : State) : List Byte :=
  if page = timePageNum then
    let own := timePage s
    own.take 20 ++ slice body 20 8 ++ own.drop 28
  else body

/-- The row of R513 of a mirrored page. -/
def pairRow (page : Nat) : Nat := if page = timePageNum then 3 else if page = keyPage then 4 else 6

/-- The key that a page of the signing key holds; a page without a key is all zeros. -/
def takeKey (page : Nat) (body : List Byte) (s : State) : State :=
  if page = keyPage then s.modPrg fun p => { p with key := if rd body 0 1 = 0 then none else some (slice body 1 97) } else s

/-- A write to a shared region of the store goes into this module's store too. -/
def takePage (page : Nat) (body : List Byte) (s : State) : State :=
  queuePage (pairRow page) page (pairPage page body s) .nothing (takeKey page body s)

/-- A shared register; before the pair is synchronised only PREFERRED_ID of the PAIR_ID 0 module governs (R376). -/
def takeShared (off : Nat) (w : W32) (s : State) : State :=
  if s.pair.state = .waiting ∨ s.pair.state = .claiming then
    (if off = 0x30004 ∧ s.sys.pairId then
      proceed ((rwpSet (rwpPut off ((s.rwp.pairCfg &&& ~~~ 2#32) ||| (w &&& 2#32))) s).modPair fun p => { p with prefKnown := true })
    else s)
  else if sharedRegs.contains off then rwpSet (rwpPut off w) s
  else s

/-- A mirrored item takes effect on the synchronised standby. -/
def takeMirrored (i : MirrorItem) (s : State) : State :=
  match i with
  | .txnStage kind ring bs => (stageObj kind ring bs s).2
  | .txnRws off v => setStaged s.txn.objs (s.txn.rws ++ [(off, v)]) s
  | .txnSwitch bank x => stageSwitch bank x s
  | .txnApply num x dT mapped => standbyApply num x dT mapped s
  | .txnAbandon => if s.txn.phase = .none then s else dropTxn stAborted.toNat 0 (dropModes s)
  | .image bank bs => takeMirroredImage bank bs s
  | .map _ bs => (loadMap bs s).1
  | .stop => if runsProgram s && s.tsk.stopAt.isNone then beginStop (s.clk.ct + 10000) none s else s
  | .trigger _ => s
  | .forceSet q sym v => takeMirroredForce q sym v s
  | .forceClear q sym => enterForce q (mirrorNum s) (forceInstantAt s q s.clk.ct) (.clear sym) s
  | .forceClearAll q => enterForce q (mirrorNum s) (forceInstantAt s q s.clk.ct) .clearAll s
  | .varWrite q items => enterWrite q (mirrorNum s) s.clk.ct (items.map fun x => { sym := x.1, value := x.2, written := false }) s
  | .buckets _ _ _ _ => takeTable i s
  | .tableLoad _ _ _ _ _ _ => takeTable i s
  | .tableUnload _ _ => takeTable i s
  | .taiUtc v o => (rwpSet (fun r => { r with taiUtc := v }) s).modPair fun p => { p with gmOffset := o }
  | .offset _ => s
  | .retentive task cycle crc => compareRetentive task cycle crc s
  | .storePage page body => takePage page body s
  | .rwp off w => takeShared off w s

/-- The item is a table change, which a join in step 2 takes too (R377). -/
def ofTable (i : MirrorItem) : Bool :=
  match i with
  | .buckets _ _ _ _ => true
  | .tableLoad _ _ _ _ _ _ => true
  | .tableUnload _ _ => true
  | _ => false

/-- The item is a shared register, which a waiting or claiming module takes too (R376). -/
def ofRegister (i : MirrorItem) : Bool :=
  match i with
  | .rwp _ _ => true
  | _ => false

/-- A mirrored item arrives: PAIR_STATUS reports the ring and index of the last one that has a descriptor (R391). -/
def takeMirror (i : MirrorItem) (source : Option (RingId × Nat)) (s : State) : State :=
  let s1 := match source with
    | some (q, n) => s.modPair fun p => { p with lastMirrored := some (q.val, n) }
    | none => s
  match s.pair.state with
  | .standbySynced => takeMirrored i s1
  | .standbyJoining => if ofTable i then takeMirrored i s1 else s
  | .waiting => if ofRegister i then takeMirrored i s else s
  | .claiming => if ofRegister i then takeMirrored i s else s
  | _ => s

/-- The item is one that this module will not acknowledge: a transaction that it cannot prepare (R255, R438). -/
def unprepared (i : MirrorItem) (s : State) : Bool :=
  match i with
  | .txnApply _ _ _ mapped => s.pair.state == .standbySynced && !canPrepare mapped s
  | _ => false

/-- NARROWS_MIRROR: the acknowledgement of a prepare is that of its cell, and follows the check. -/
def execNarrowsMirror (seq : Nat) (item : MirrorItem) (source : Option (RingId × Nat)) (s : State) : Host.Outcome State Fault Refusal :=
  if sendsCells s && !s.pair.rxSeen.contains seq && unprepared item s then ok (takeMirror item source s)
  else ok (takeCell seq (takeMirror item source) s)

/-! ## Acknowledgements (R367, R385, R438) -/

/-- What an acknowledged cell sets off: the partner holds the prepared set, or a mirrored item takes effect. -/
def cellAcked (c : PairCell) (ct : Nat) (s : State) : State :=
  match c.msg with
  | .mirror (.txnApply _ _ _ _) _ => if s.txn.phase = .applying then s.modTxn fun t => { t with acked := t.acked ++ [.partner] } else s
  | _ => runMirrored c ct s

/-- NARROWS_CELL_ACK: the partner acknowledged a cell at chip time `ct`. -/
def execNarrowsCellAck (seq ct : Nat) (s : State) : Host.Outcome State Fault Refusal :=
  match s.pair.unacked.find? fun c => c.seq == seq with
  | some c => ok (cellAcked c ct (s.modPair fun p => { p with unacked := p.unacked.filter fun x => x.seq != seq }))
  | none => ok s

/-- RETENTIVE_CRC_MIRROR (R384): every 1 s, at the end of the release that began last; with it goes TAI − UTC. -/
def execRetentiveCrcMirror (s : State) : Host.Outcome State Fault Refusal :=
  if mirrors s && decide (s.pair.crcAt + 1000000000 ≤ s.clk.now) && quiet s then
    let s1 := mirrorTime (s.modPair fun p => { p with crcAt := s.clk.now })
    match latestRelease s with
    | some (t, c) => ok (if hasRetentive s then mirror (.retentive t c (retentiveCrc s)) s1 else s1)
    | none => ok s1
  else ok s

/-! ## Time and frames of the standby (R379, R399) -/

/-- A Sync on the followed port (R62, R66, R379): a standby tells its offset, and leaves sync beyond 10 µs. -/
def syncFrom (o : Int) (s : State) : State :=
  let s1 := takeSync o s
  if pairMember s && !hasAuthority s then
    let s2 := pairSend (.mirror (.offset o) none) s1
    if decide (10000 < o.natAbs) then leaveSync 1 s2 else s2
  else mirrorTime s1

/-- SYNC_RECEIVED (R69, R71): of the module's gPTP domain, on the port followed. -/
def execSyncReceived (p : PortId) (m : InDomain Int) (s : State) : Host.Outcome State Fault Refusal :=
  if s.tim.seeded && s.tim.slavePort == some p && m.domain == ptpDomain s then ok (syncFrom m.value s) else ok s

/-- The station whose counts are read next on a ring. -/
def frameCheckStation (s : State) (r : StraitId) : Nat := s.clk.now / 100000000 % max 1 (ringOf s r).count

/-- STANDBY_FRAME_CHECK (R399): every 100 ms the active module reads the counts of one station per ring. -/
def execStandbyFrameCheck (s : State) : Host.Outcome State Fault Refusal :=
  if pairMember s && hasAuthority s && decide (s.pair.frameCheckAt + 100000000 ≤ s.clk.now) then
    ok (((allFin 4).filter fun r => originates s r && (ringOf s r).count != 0).foldl
      (fun s r => openA r none (frameCheckStation s r) 0 4 [0] 16 0 0 s) (s.modPair fun p => { p with frameCheckAt := s.clk.now }))
  else ok s

end Sys2Proof.Machine
end

