-- ==== Sys2Proof/Machine/Descr.lean ====
section
/-! DEFINITION. What the module checks and computes at the fetch of a descriptor: layouts, run states, roles, service bounds and admission
(R162, R217, R231, R337, R364, R402, R417, R418, R425 to R429, R602, R628). -/

namespace Sys2Proof.Machine

/-- The descriptor in 64 fetched bytes (R417). -/
def descOf (bs : List Byte) : Desc :=
  { opcode := BitVec.ofNat 8 (rd bs 0 1), flags := BitVec.ofNat 8 (rd bs 1 1), tag := BitVec.ofNat 16 (rd bs 2 2), len := rd bs 4 4,
    deadline := rd bs 8 8, buf := rd bs 16 8, param := fitTo 40 (slice bs 24 40) }

/-- The assigned opcodes. -/
def assignedOps : List Nat :=
  [0x01, 0x02, 0x03, 0x04, 0x05, 0x06, 0x07, 0x10, 0x11, 0x12, 0x13, 0x14, 0x15, 0x16] ++
  [0x20, 0x21, 0x22, 0x23, 0x24, 0x25, 0x26, 0x28, 0x29, 0x2A, 0x2B, 0x2C, 0x2D, 0x2E, 0x2F] ++
  [0x30, 0x31, 0x34, 0x35, 0x36, 0x37, 0x40, 0x41, 0x42, 0x43, 0x44, 0x45, 0x46, 0x47] ++
  [0x50, 0x51, 0x52, 0x53, 0x54, 0x60, 0x61, 0x68, 0x69, 0x6A, 0x6B, 0x70, 0x71, 0x72, 0x73, 0x74, 0x75, 0x76] ++
  [0x80, 0x81, 0x82, 0x83, 0x84, 0x85, 0x86, 0x87, 0x90, 0x91, 0x92, 0xA0, 0xA1, 0xA2, 0xA3, 0xA4]

/-! ## Layouts (R88, R163, R214, R263, R303, R361, R402, R430, R432, R504, R535, R550, R606, R629) -/

/-- The PARAM bytes named by an opcode, as offset and length, where its chapter says that every other byte is zero. -/
def namedParam (d : Desc) : Option (List (Nat × Nat)) :=
  match d.opcode.toNat with
  | 0x68 => some [(24, 4)]
  | 0x69 => some [(24, 16)]
  | 0x6A => some []
  | 0x6B => some []
  | 0x28 => some []
  | 0x29 => some []
  | 0x2A => some [(24, 1)]
  | 0x2B => some [(24, 2)]
  | 0x30 => some [(24, 1)]
  | 0x31 => some [(24, 1)]
  | 0x34 => some [(24, 6), (32, 8)]
  | 0x35 => some [(24, 4)]
  | 0x36 => some []
  | 0x37 => some []
  | 0x20 => some [(24, 1)]
  | 0x21 => some []
  | 0x22 => some [(24, 3), (32, 8)]
  | 0x23 => some [(24, 1)]
  | 0x24 => some []
  | 0x25 => some [(24, 3), (40, 16)]
  | 0x26 => some [(24, 1), (40, 16)]
  | 0x80 => some []
  | 0x81 => some [(24, 1)]
  | 0x82 => some [(24, 1)]
  | 0x83 => some [(24, 1)]
  | 0x84 => some []
  | 0x40 => some [(24, 1)]
  | 0x41 => some [(24, 6), (32, 4)]
  | 0x42 => some [(24, 1)]
  | 0x43 => some [(24, 1)]
  | 0x44 => some [(24, 2)]
  | 0x45 => some [(24, 1)]
  | 0x46 => some [(24, 1), (28, 2)]
  | 0x47 => some [(24, 1)]
  | 0xA0 => some []
  | 0xA1 => some []
  | 0xA2 => some []
  | 0xA3 => some []
  | 0xA4 => some []
  | 0x85 => some []
  | 0x86 => some [(24, 4)]
  | 0x87 => if d.par 24 1 = 2 then some [(24, 1), (32, 8)] else some [(24, 4)]
  | 0x70 => some [(24, 4), (40, 16)]
  | 0x71 => some [(24, 8)]
  | 0x72 => some []
  | 0x73 => some [(24, 1)]
  | 0x74 => some []
  | 0x75 => some []
  | 0x76 => some []
  | _ => none

/-- The byte offset of the first PARAM byte that should be zero and is not. -/
def strayParam (d : Desc) : Option Nat :=
  match namedParam d with
  | none => none
  | some l => ((List.range 40).map fun i => i + 24).find? fun o => d.par o 1 != 0 && !(l.any fun f => decide (f.1 ≤ o) && decide (o < f.1 + f.2))

/-- The opcodes whose LEN is 0. -/
def lenZeroOps : List Nat :=
  [0x69, 0x6A, 0x6B, 0x2E, 0x2F, 0x28, 0x29, 0x2A, 0x35, 0x37, 0x22, 0x23, 0x25, 0x81, 0x82, 0x83, 0x84, 0x43, 0xA1, 0xA2, 0xA3, 0xA4,
   0x85, 0x70, 0x72, 0x73, 0x74, 0x75, 0x76]

/-- LEN breaks the layout of the opcode. -/
def badLen (d : Desc) : Bool :=
  let n := d.len
  if lenZeroOps.contains d.opcode.toNat then n != 0
  else
    match d.opcode.toNat with
    | 0x11 => d.par 24 1 == 6 && n % 8 != 0
    | 0x26 => n != (if d.par 24 1 = 2 then 0 else 104)
    | 0x2C => n % 16 != 0 || (decide (d.par 25 1 ≤ 28) && decide (2 ^ d.par 25 1 * 32 < n))
    | 0x2D => n % 24 != 0
    | 0x30 => decide (n < roundUp (4 * d.par 24 1) 8)
    | 0x34 => if d.par 28 2 ≤ 8 then n != 0 else decide (n < roundUp (d.par 28 2) 8)
    | 0x40 => decide (n < 136)
    | 0x41 => decide (n < roundUp (d.par 28 2) 8 + d.par 32 4)
    | 0x42 => decide (n < 16)
    | 0x44 => decide (n < 64)
    | 0x45 => decide (n < 32)
    | 0x46 => decide (n < roundUp (d.par 28 2) 8)
    | 0x47 => decide (n < 16)
    | 0x52 => n != (if d.par 25 1 = 0 then 48 else 32)
    | 0x68 => n % 32 != 0
    | 0x71 => n != 4096
    | 0x80 => decide (n < 208)
    | 0x92 => n != 16
    | 0xA0 => decide (n < 64)
    | _ => false

/-- The range of `n` bytes of the bulk partition lies within one allocated buffer (R418). -/
def inBulk (s : State) (off n : Nat) : Bool := s.hif.bulk.any fun b => decide (b.offset ≤ off) && decide (off + n ≤ b.offset + b.size)

/-- The PARAM fields of an opcode that have a range: their offsets, and whether they lie outside it. -/
def paramTests (s : State) (d : Desc) : List (Nat × Bool) :=
  let b := d.par 24 1
  match d.opcode.toNat with
  | 0x04 => [(24, decide (31 < b))]
  | 0x05 => [(24, d.par 24 8 % 4096 != 0 || d.par 24 8 == 0)]
  | 0x07 => [(24, !inBulk s (d.par 24 8) d.len), (32, decide (1 < d.par 32 1))]
  | 0x11 => [(24, outRange 1 6 b), (25, b == 3 && decide (3 < d.par 25 1))]
  | 0x13 => [(24, decide (1 < b))]
  | 0x16 => [(24, decide (1 < b))]
  | 0x20 => [(24, decide (1 < b))]
  | 0x22 => [(25, decide (1 < d.par 25 1))]
  | 0x25 => [(26, decide (1 < d.par 26 1))]
  | 0x26 => [(24, decide (2 < b))]
  | 0x2B => [(25, decide (256 < b + (if d.par 25 1 = 0 then 256 else d.par 25 1)))]
  | 0x2C => [(25, outRange 10 28 (d.par 25 1)), (26, d.par 26 2 != 0), (32, d.par 32 8 % 64 != 0)]
  | 0x30 => [(24, outRange 1 64 b)]
  | 0x31 => [(24, outRange 1 64 b)]
  | 0x34 => [(28, outRange 1 4096 (d.par 28 2))]
  | 0x40 => [(24, decide (3 < b))]
  | 0x41 => [(24, decide (3 < b)), (27, !requestOp (d.par 27 1)), (28, outRange 1 16384 (d.par 28 2))]
  | 0x42 => [(24, decide (3 < b))]
  | 0x43 => [(24, decide (3 < b))]
  | 0x44 => [(24, decide (3 < b))]
  | 0x45 => [(24, decide (3 < b))]
  | 0x46 => [(24, outRange 8 9 b), (28, outRange 60 1514 (d.par 28 2))]
  | 0x47 => [(24, outRange 8 9 b)]
  | 0x52 => [(24, decide (2 < b)), (25, decide (1 < d.par 25 1))]
  | 0x60 => [(24, decide (32767 < d.par 24 4))]
  | 0x81 => [(24, decide (2 < b))]
  | 0x82 => [(24, decide (2 < b))]
  | 0x83 => [(24, decide (2 < b))]
  | 0x86 => [(24, d.par 24 4 != 0x5A5AA5A5)]
  | 0x87 =>
    [(24, outRange 1 2 b), (25, b == 1 && decide (1 < d.par 25 1)), (26, b == 1 && outRange 1 7 (d.par 26 1)), (27, b == 1 && outRange 1 7 (d.par 27 1))]
  | 0x91 => [(24, decide (7 < b))]
  | 0x92 => [(24, decide (7 < b))]
  | _ => []

/-- The byte offset of the first field found bad, in the order of the fields (R418). -/
def badField (s : State) (d : Desc) : Option Nat :=
  if !assignedOps.contains d.opcode.toNat then some 0
  else if d.flags.toNat / 8 ≠ 0 then some 1
  else if d.len % 8 ≠ 0 ∨ badLen d then some 4
  else if d.buf % 8 ≠ 0 ∨ (d.len = 0 ∧ d.buf ≠ 0) ∨ (d.bulk ∧ d.len ≠ 0 ∧ !inBulk s d.buf d.len) then some 16
  else (((paramTests s d).filter fun t => t.2).map (·.1) ++ (strayParam d).toList).min?

/-! ## Run state and role (R217, R364, R602, R628) -/

/-- The descriptors served in SAFE_TALK (R602, R628). -/
def safeTalkOps : List Nat :=
  [0x01, 0x02, 0x03, 0x04, 0x05, 0x06, 0x07, 0x24, 0x2B, 0x2F, 0x36, 0x40, 0x44, 0x45, 0x47, 0x50, 0x51, 0x54, 0x60, 0x61, 0x68, 0x69, 0x6A,
   0x6B, 0x70, 0x71, 0x72, 0x73, 0x74, 0x75, 0x76, 0x80, 0x85, 0x86, 0x87, 0x90, 0x91, 0xA0]

/-- The status reads, and SYS_RESTART, served in STARTING (R217, R604). -/
def startingOps : List Nat :=
  [0x02, 0x03, 0x04, 0x15, 0x16, 0x24, 0x2B, 0x2F, 0x36, 0x40, 0x44, 0x45, 0x51, 0x54, 0x61, 0x6B, 0x76, 0x80, 0x85, 0x86, 0x90, 0x91, 0xA0]

/-- What the run state and the role answer at once (R217, R364, R602). -/
def stateRefusal (s : State) (d : Desc) : Option Done :=
  if s.sys.run = .safeTalk ∧ !safeTalkOps.contains d.opcode.toNat then some (doneWith stSafeTalk 0)
  else if s.sys.run = .starting ∧ !startingOps.contains d.opcode.toNat then some (doneWith stBusy 0)
  else if d.authority && !hasAuthority s then some (doneWith stNotActive 0)
  else none

/-! ## Service bounds (R425) -/

/-- Microseconds in ns. -/
def micros (n : Nat) : Nat := n * 1000

/-- The bound of R337 for a request to a station that takes `req` bytes and answers with at most `rsp`. -/
def requestEnd (s : State) (ring station req rsp from_ : Nat) : Option Nat :=
  match fin? 4 ring with
  | some r => (ringOf s r).sched.map fun k => completionCt s r k station req rsp (max from_ (ringOf s r).sentUntil)
  | none => none

/-- The service bound of a descriptor in ns: what its chapter states, or 200 µs (R425). -/
def serviceBound (s : State) (d : Desc) : Nat :=
  let kib := (d.len + 1023) / 1024
  match d.opcode.toNat with
  | 0x01 => micros 10
  | 0x02 => micros 10
  | 0x03 => micros 10
  | 0x04 => micros 10
  | 0x05 => micros 50
  | 0x06 => micros 50
  | 0x07 => micros 20 + 500 * kib
  | 0x20 => micros 20000 + micros 95000 * d.len / 1048576
  | 0x21 => micros 50 + micros 1 * kib
  | 0x22 => micros 50
  | 0x23 => micros 50
  | 0x24 => micros 20
  | 0x25 => micros 2100000
  | 0x26 => micros 300
  | 0x2C => micros 200 + micros 1 * (d.len / 16)
  | 0x2D => micros 50 + micros 2 * (d.len / 24)
  | 0x2E => micros 50
  | 0x2F => micros 10
  | 0x40 => micros 20
  | 0x43 => micros 100000 + 6 * ((fin? 4 (d.par 24 1)).map fun r => ringNs (ringOf s r)).getD 0
  | 0x44 => micros 20 + ((requestEnd s (d.par 24 1) (d.par 25 1) 0 16 s.clk.ct).map fun t => t - s.clk.ct).getD 0
  | 0x45 => micros 10
  | 0x46 => micros 50
  | 0x50 => micros 50 + micros 1 * kib
  | 0x51 => micros 50 + micros 2 * d.par 28 4
  | 0x52 => micros 300
  | 0x53 => micros 16000
  | 0x54 => micros 10
  | 0x60 => micros 50 + micros 1 * kib
  | 0x61 => micros 10
  | 0x68 => micros 20 + 500 * kib
  | 0x69 => micros 10
  | 0x6A => micros 10
  | 0x6B => micros 10
  | 0x70 => micros 300
  | 0x71 => micros 2100
  | 0x72 => micros 300000
  | 0x73 => micros 200000
  | 0x74 => micros 10
  | 0x75 => micros 50
  | 0x76 => micros 10
  | 0x80 => micros 20
  | 0x81 => micros 35000
  | 0x82 => micros 10
  | 0x83 => micros 50
  | 0x84 => micros 60
  | 0x85 => micros 10
  | 0x87 => micros 5000
  | 0xA0 => micros 20
  | 0xA1 => micros 200000 + preparedNs s
  | 0xA2 => micros 50
  | 0xA3 => micros 50
  | 0xA4 => micros 10
  | _ => micros 200

/-! ## Admission (R426, R427) -/

/-- The end of the work that waits for the service cores, at `ct`. -/
def serviceEnd (s : State) (ct : Nat) : Nat :=
  match s.hif.svc with
  | [] => ct
  | (q, n) :: rest =>
    let first := max ct (s.hif.svcStart + ((findDesc q n s).map fun e => serviceBound s e.desc).getD 0)
    rest.foldl (fun t x => t + ((findDesc x.1 x.2 s).map fun e => serviceBound s e.desc).getD 0) first

/-- The release CT of a symbol's writer at or after `t`, where a program runs and the writer is periodic (R426). -/
def writerRelease (s : State) (t : Nat) (sym : W32) : Option Nat :=
  if runsProgram s && s.tsk.stopAt.isNone then
    match (findSym s sym).bind fun y => taskEntry s y.writer with
    | some e =>
      match e.kind with
      | .periodic => some (firstGrid s e t)
      | _ => none
    | none => none
  else none

/-- The bound of the previous VAR_WRITE of a ring pair: the floor where its work has ended. -/
def previousWrite (s : State) (q : RingId) : Option Nat :=
  match ((s.hif.rings.get q).work.filter fun e => e.desc.opcode.toNat == 0x31 && e.ended.isNone).getLast? with
  | some e => e.bound
  | none => some (s.tsk.floor.get q)

/-- The latest of instants, all of which must be known. -/
def latestOf : List (Option Nat) → Option Nat
  | [] => some 0
  | x :: r =>
    match x, latestOf r with
    | some a, some b => some (max a b)
    | _, _ => none

/-- The bound of a VAR_WRITE (R426); one that will be refused is bounded by the handling of R425. -/
def writeBound (s : State) (q : RingId) (ct : Nat) (d : Desc) (dma : List Byte) : Option Nat :=
  match parseWrites s (bufRead d dma s) (d.par 24 1) 0 0 with
  | .error _ => some (ct + micros 20)
  | .ok items =>
    match previousWrite s q with
    | some b =>
      let t := max (applyInstant s q ct) b
      latestOf (items.map fun i => writerRelease s t i.sym)
    | none => none

/-- The instant or bound that an opcode's chapter fixes for a descriptor of the fetch path, `none` for none (R426, R427). -/
def fixedInstant (s : State) (q : RingId) (ct : Nat) (d : Desc) (dma : List Byte) : Option Nat :=
  match d.opcode.toNat with
  | 0x31 => writeBound s q ct d dma
  | 0x34 => some (forceInstantAt s q ct)
  | 0x35 => some (forceInstantAt s q ct)
  | 0x37 => some (forceInstantAt s q ct)
  | 0x41 => requestEnd s (d.par 24 1) (d.par 25 1) (d.par 28 2) (d.par 32 4) ct
  | 0x13 => namedInstant s (d.par 24 1) (d.par 25 1) (d.par 32 8)
  | _ => none

/-- The latest bound of the earlier descriptors of a ring pair that are not complete (R52). -/
def earlierBound (r : RingPair) : Option Nat := latestOf ((r.outst.filter fun e => e.doneCt.isNone).map fun e => e.bound)

/-- The descriptor begins its work only when every earlier one of its ring pair is complete (R429). -/
def Desc.fences (d : Desc) : Bool := d.flags.getLsbD 0 || (decide (0x10 ≤ d.opcode.toNat) && decide (d.opcode.toNat < 0x20))

/-- The bound of a descriptor's own work, at its fetch. -/
def ownBound (s : State) (q : RingId) (ct : Nat) (d : Desc) (dma : List Byte) : Option Nat :=
  if onFetchPath d.opcode.toNat then fixedInstant s q ct d dma
  else if d.fences then (earlierBound (s.hif.rings.get q)).map fun b => max (serviceEnd s ct) b + serviceBound s d
  else some (serviceEnd s ct + serviceBound s d)

/-- A firmware activation is pending (R426). -/
def activationPending (s : State) : Bool :=
  s.fwu.activating.isSome || s.fwu.pausing ||
    (allFin 32).any fun q => (s.hif.rings.get q).work.any fun e => e.desc.opcode.toNat == 0x73 && e.ended.isNone

/-- The estimate of R426; `none` for infinity. -/
def estimate (s : State) (q : RingId) (own : Option Nat) : Option Nat :=
  match own, earlierBound (s.hif.rings.get q) with
  | some a, some b => some (max a b + (if activationPending s then 200000000 else 0))
  | _, _ => none

/-- The estimate meets the deadline: that of a TBL_UPDATE falls before it, any other not after it (R162, R426). -/
def inTime (d : Desc) (t : Nat) : Bool := if d.opcode = 0x2D then decide (t < d.deadline) else decide (t ≤ d.deadline)

/-- ADMIT_REFUSED where the estimate misses the deadline; DETAIL in µs, saturating (R162, R423, R426, R427). -/
def admission (s : State) (q : RingId) (d : Desc) (own : Option Nat) : Option Done :=
  if d.deadline = 0 then none
  else
    match estimate s q own with
    | none => some (doneWith stAdmitRefused 4294967295)
    | some t => if inTime d t then none else some (doneWith stAdmitRefused (min 4294967295 ((t - d.deadline) / 1000)))

/-- How a descriptor ends at its fetch, where it is not admitted (R418, R426). -/
def fetchRefusal (s : State) (q : RingId) (d : Desc) (own : Option Nat) : Option Done :=
  match badField s d with
  | some o => some (doneWith stBadDescriptor o)
  | none => (stateRefusal s d).orElse fun _ => admission s q d own

end Sys2Proof.Machine
end

