-- ==== Sys2Proof/Machine/Rings.lean ====
section
/-! DEFINITION. The ring pairs and the PCI Express endpoint: set-up, doorbells, fetch, fences, posting, interrupts, faults and resets (R404
to R422, R429, R441, R564, R593). -/

namespace Sys2Proof.Machine

/-- A ring pair. -/
def ringPair (s : State) (q : RingId) : RingPair := s.hif.rings.get q

/-- The number of submission slots S. -/
def RingPair.sqSize (r : RingPair) : Nat := 2 ^ r.sqLog2.toNat

/-- The number of completion slots C. -/
def RingPair.cqSize (r : RingPair) : Nat := 2 ^ r.cqLog2.toNat

/-- HIF_RPq_STATE.RUNNING. -/
def RingPair.running (r : RingPair) : Bool := r.enable || !r.outst.isEmpty

/-- HIF_RPq_STATE.TXN_OWNER: the ring pair owns the open transaction. -/
def txnOwner (s : State) (q : RingId) : Bool := s.txn.phase != .none && s.txn.owner == q

/-- HIF_RPq_STATE as a word. -/
def rpState (s : State) (q : RingId) : Nat :=
  let r := ringPair s q
  r.cause.toNat * 16777216 + bit (txnOwner s q) * 8192 + bit r.stopped * 4096 + bit r.running * 2048 + bit r.overflow * 1024 + min 256 r.held

/-- HIF_RPq_COUNT as a word. -/
def rpCount (s : State) (q : RingId) : Nat := (ringPair s q).discarded.toNat * 65536 + (ringPair s q).refused.toNat

/-! ## Set-up (R411, R412, R416) -/

/-- The set-up that R411 checks at enable; VECTOR has no value above 31. -/
def RingPair.setUpOk (r : RingPair) : Bool :=
  decide (r.sqBase.toNat % 4096 = 0) && decide (r.cqBase.toNat % 4096 = 0) && !outRange 4 12 r.sqLog2.toNat && !outRange 4 12 r.cqLog2.toNat

/-- The size and vector fields of a word written to HIF_RPq_CFG. -/
def RingPair.putSizes (w : W32) (r : RingPair) : RingPair :=
  { r with sqLog2 := w.extractLsb' 24 4, cqLog2 := w.extractLsb' 20 4, vector := w.extractLsb' 8 5 }

/-- The priority field of a word written to HIF_RPq_CFG. -/
def RingPair.putPrio (w : W32) (r : RingPair) : RingPair := { r with prio := w.extractLsb' 16 2 }

/-- Both indices at 0, as on enable and reset. -/
def RingPair.rewind (r : RingPair) : RingPair :=
  { r with sqTail := 0, sqHead := 0, cqHead := 0, cqTail := 0, phase := true, used := 0, unsent := 0 }

/-- The descriptors whose work goes on after a reset of the ring pair (R416): those that wait for a message only are withdrawn. -/
def RingPair.goOn (r : RingPair) : List Outst :=
  r.outst.filter fun e => e.ended.isNone && e.desc.opcode.toNat != 0x42 && e.desc.opcode.toNat != 0x47

/-- The completions of a ring pair are discarded and counted (R405, R416). -/
def RingPair.discard (r : RingPair) : RingPair :=
  { r with outst := [], dead := r.dead ++ r.goOn, discarded := satInc r.discarded r.outst.length }

/-- Class 0x0403 where completions were discarded. -/
def noteDiscard (q : RingId) (n : Nat) (s : State) : State := if n = 0 then s else event 0x0403 (det [(1, q.val), (2, n)]) s

/-- Enable: the set-up is checked (R411). A write while RUNNING is 1 is discarded as a whole. -/
def enableRing (q : RingId) (w : W32) (s : State) : State :=
  let r := ringPair s q
  if r.enable then modRing q (RingPair.putPrio w) s
  else if r.running then s
  else
    let r1 := (r.putSizes w).putPrio w
    if r1.setUpOk then modRing q (fun _ => { r1.rewind with enable := true }) s
    else modRing q (fun _ => { r1 with cause := 1 }) s

/-- What waits on the fetch path of a ring pair, newest work included, ends with ABORTED (R416, R425). -/
def abortWaiting (q : RingId) (s : State) : State :=
  ((ringPair s q).outst.filter fun e => e.ended.isNone && onFetchPath e.desc.opcode.toNat).foldl
    (fun s e => endDesc q e.num (doneWith stAborted 0) s) s

/-- Disable (R416); with ENABLE 0 already, a plain write of the set-up fields. -/
def disableRing (q : RingId) (w : W32) (s : State) : State :=
  if (ringPair s q).enable then abortWaiting q (modRing q (fun r => { r.putPrio w with enable := false }) s)
  else modRing q (fun r => (r.putSizes w).putPrio w) s

/-- Reset of a ring pair (R416, R441). -/
def resetRing (q : RingId) (w : W32) (s : State) : State :=
  let n := (ringPair s q).outst.length
  let own := txnOwner s q
  let s1 := modRing q (fun r =>
    { ((r.discard.rewind.putSizes w).putPrio w) with enable := false, stopped := false, overflow := false, cause := 0 }) s
  let s2 := noteDiscard q n s1
  if own then abandonTxn 3 s2 else s2

/-- RING_ENABLE (R411). -/
def execRingEnable (q : RingId) (w : W32) (s : State) : Host.Outcome State Fault Refusal := ok (enableRing q w s)

/-- RING_DISABLE (R416). -/
def execRingDisable (q : RingId) (w : W32) (s : State) : Host.Outcome State Fault Refusal := ok (disableRing q w s)

/-- RING_RESET (R416). -/
def execRingReset (q : RingId) (w : W32) (s : State) : Host.Outcome State Fault Refusal := ok (resetRing q w s)

/-! ## Stopping (R406, R413) -/

/-- Stop a ring pair with a cause, with class 0x0401. -/
def stopRing (q : RingId) (cause : Nat) (s : State) : State :=
  if (ringPair s q).stopped then s
  else event 0x0401 (det [(1, q.val), (1, cause)]) (modRing q (fun r => { r with stopped := true, cause := BitVec.ofNat 8 cause }) s)

/-- The descriptor fetched from a slot whose work has not ended. -/
def descAt (s : State) (q : RingId) (slot : Option Nat) : Option Outst :=
  slot.bind fun n => (ringPair s q).outst.find? fun e => e.slot == n && e.ended.isNone

/-- A DMA fault (R406): counted, the ring pair stops, and a descriptor whose buffer it was ends with DMA_ERROR. -/
def dmaFault (q : RingId) (cause : Nat) (slot : Option Nat) (s : State) : State :=
  let s1 := stopRing q cause (s.modHif fun h => { h with errDma := satInc h.errDma 1 })
  match descAt s q slot with
  | some e => endDesc q e.num (doneWith stDmaError 0) s1
  | none => s1

/-- DMA_TIMEOUT (R406): a read for which no completion has come within HIF_CTRL.DMA_TIMEOUT milliseconds. -/
def execDmaTimeout (q : RingId) (slot : Lasting (Option Nat)) (s : State) : Host.Outcome State Fault Refusal :=
  if slot.us < s.hif.dmaTimeout.toNat * 1000 then ok s else ok (dmaFault q 4 slot.value s)

/-- DMA_ERROR (R406): cause 4 for a read, 5 for a write. -/
def execDmaError (q : RingId) (write : Bool) (slot : Option Nat) (s : State) : Host.Outcome State Fault Refusal :=
  ok (dmaFault q (if write then 5 else 4) slot s)

/-! ## Doorbells (R412, R413) -/

/-- A write to HIF_DBq_SQ_TAIL: discarded while ENABLE is 0 and by a stopped ring pair; bits [31:12] have no effect (R10). -/
def writeSqTail (q : RingId) (w : W32) (s : State) : State :=
  let r := ringPair s q
  let v := (w.extractLsb' 0 12).toNat
  if !r.enable || r.stopped then s
  else if r.sqSize ≤ v then stopRing q 2 s
  else modRing q (fun r => { r with sqTail := w.extractLsb' 0 12 }) s

/-- SQ_TAIL_DOORBELL: a write of 8 or 16 bits is discarded (R9). -/
def execSqTailDoorbell (q : RingId) (d : DoorbellWrite) (s : State) : Host.Outcome State Fault Refusal :=
  match d.width with
  | .byte => ok s
  | .half => ok s
  | .word => ok (writeSqTail q d.val s)

/-- How many completion slots a write of CQ_HEAD frees. -/
def RingPair.freed (r : RingPair) (v : Nat) : Nat := (v + r.cqSize - r.cqHead.toNat) % r.cqSize

/-- A write to HIF_DBq_CQ_HEAD: discarded while ENABLE is 0 and by a stopped ring pair; bits [31:12] have no effect (R10). -/
def writeCqHead (q : RingId) (w : W32) (s : State) : State :=
  let r := ringPair s q
  let v := (w.extractLsb' 0 12).toNat
  if !r.enable || r.stopped then s
  else if r.cqSize ≤ v ∨ r.used < r.freed v then stopRing q 3 s
  else modRing q (fun r => { r with cqHead := w.extractLsb' 0 12, used := r.used - r.freed v }) s

/-- CQ_HEAD_DOORBELL: a write of 8 or 16 bits is discarded (R9). -/
def execCqHeadDoorbell (q : RingId) (d : DoorbellWrite) (s : State) : Host.Outcome State Fault Refusal :=
  match d.width with
  | .byte => ok s
  | .half => ok s
  | .word => ok (writeCqHead q d.val s)

/-! ## The doorbell pages in BAR2 (R9, R10, R13) -/

/-- The word of a BAR2 offset: the four registers of a ring pair's page of 4 KiB; every other offset is reserved and reads zero. -/
def doorbellWord (s : State) (off : Nat) : W32 :=
  match fin? 32 (off / 0x1000) with
  | none => 0
  | some q =>
    let r := ringPair s q
    match off % 0x1000 with
    | 0x000 => r.sqTail.setWidth 32
    | 0x004 => r.cqHead.setWidth 32
    | 0x008 => r.sqHead.setWidth 32
    | 0x00C => BitVec.ofNat 32 (bit r.phase * 4096 + r.cqTail.toNat)
    | _ => 0

/-- What a read of `n` bytes of BAR2 returns: the addressed bytes of the register (R9). -/
def doorbellRead (s : State) (off n : Nat) : Nat := (doorbellWord s (off / 4 * 4)).toNat / 256 ^ (off % 4) % 256 ^ n

/-- A write of BAR2: the two writable registers of a page take a write of 32 bits, and every other write is discarded (R9, R10, R13). -/
def doorbellWrite (off : Nat) (width : Width) (w : W32) (s : State) : State :=
  match width, fin? 32 (off / 0x1000), off % 0x1000 with
  | .word, some q, 0x000 => writeSqTail q w s
  | .word, some q, 0x004 => writeCqHead q w s
  | _, _, _ => s

/-! ## Fetch (R414, R415) -/

/-- The module may access host memory: the link is up in D0, and no service pause runs (R405, R620). -/
def hostReachable (s : State) : Bool := s.hif.linkUp && !s.hif.d3 && !s.fwu.pausing && !s.sys.inReset

/-- The module may fetch: step 6 has ended, and fewer than eight descriptors wait for the service cores, of which the first is
at work (R415, R593). -/
def mayFetch (s : State) : Bool := hostReachable s && s.sys.selfTestEnded && !noFirmware s && decide (s.hif.svc.length ≤ 8)

/-- A ring pair has a descriptor that may be fetched. -/
def RingPair.waits (r : RingPair) : Bool := r.enable && !r.stopped && r.sqHead != r.sqTail && decide (r.outst.length < 256)

/-- The ring pairs of a priority, beginning after the one fetched from last. -/
def inTurn (s : State) (p : Fin 4) : List RingId :=
  let last := s.hif.lastRing.get p
  ((allFin 32).filter fun q => decide (last < q)) ++ (allFin 32).filter fun q => decide (q ≤ last)

/-- The ring pair from which the next descriptor is fetched: the highest PRIO, equal PRIO in turn (R415). -/
def nextRing (s : State) : Option RingId :=
  [3, 2, 1, 0].findSome? fun p : Fin 4 =>
    (inTurn s p).find? fun q => (ringPair s q).waits && (ringPair s q).prio.toNat == p.val

/-- The fetched descriptor as the module keeps it. -/
def newOutst (s : State) (q : RingId) (d : Desc) (dma : List Byte) : Outst :=
  let r := ringPair s q
  let own := ownBound s q s.clk.ct d dma
  let no := fetchRefusal s q d own
  { num := r.nextNum, slot := r.sqHead.toNat, desc := d, fetchCt := s.clk.ct, bound := if no.isSome then some s.clk.ct else own,
    admitted := no.isNone, fenced := no.isNone && d.fences && (r.outst.any fun e => e.doneCt.isNone), waiting := false, ended := no, doneCt := none }

/-- A descriptor enters the order of the service cores (R425). -/
def enterService (q : RingId) (num : Nat) (s : State) : State :=
  s.modHif fun h => { h with svc := h.svc ++ [(q, num)], svcStart := if h.svc.isEmpty then s.clk.ct else h.svcStart }

/-- A descriptor that may begin its work enters that order where its opcode needs the service cores. -/
def dispatch (q : RingId) (e : Outst) (s : State) : State :=
  if e.ended.isSome || e.fenced || onFetchPath e.desc.opcode.toNat then s else enterService q e.num s

/-- Fetch one descriptor of a ring pair: check, admit and dispatch it (R414, R418, R425, R426). -/
def fetchFrom (q : RingId) (bytes dma : List Byte) (s : State) : State :=
  let e := newOutst s q (descOf bytes) dma
  let s1 := modRing q (fun r =>
    { r with sqHead := BitVec.ofNat 12 ((r.sqHead.toNat + 1) % r.sqSize), nextNum := r.nextNum + 1, outst := r.outst ++ [e] }) s
  let p : Fin 4 := finOr (ringPair s q).prio.toNat
  settle q (dispatch q e (s1.modHif fun h => { h with lastRing := vmod h.lastRing p fun _ => q }))

/-- DESCRIPTOR_FETCH (R415). -/
def execDescriptorFetch (bytes dma : List Byte) (s : State) : Host.Outcome State Fault Refusal :=
  if mayFetch s then
    match nextRing s with
    | some q => ok (fetchFrom q bytes dma s)
    | none => ok s
  else ok s

/-! ## Fences (R429) -/

/-- The fenced descriptors of a ring pair whose earlier ones are all complete; at most the first that is not complete. -/
def RingPair.cleared (r : RingPair) : Option Outst :=
  match r.outst.find? fun e => e.doneCt.isNone with
  | some e => if e.fenced then some e else none
  | none => none

/-- The fence of a descriptor clears. -/
def clearFence (q : RingId) (e : Outst) (s : State) : State :=
  dispatch q { e with fenced := false } (modRing q (RingPair.modWork e.num fun x => { x with fenced := false }) s)

/-- A descriptor of a reset ring pair no longer waits for its fence: those before it are gone. -/
def clearDead (q : RingId) (s : State) : State :=
  ((ringPair s q).dead.filter fun e => e.fenced).foldl (fun s e => clearFence q e s) s

/-- FENCE_CLEAR (R429). -/
def execFenceClear (s : State) : Host.Outcome State Fault Refusal :=
  ok ((allFin 32).foldl (fun s q =>
    let s1 := clearDead q s
    match (ringPair s1 q).cleared with
    | some e => clearFence q e s1
    | none => s1) s)

/-! ## Posting (R409, R419 to R422) -/

/-- The 16 bytes of a completion (R420). -/
def completionBytes (e : Outst) (d : Done) (phase : Bool) : List Byte :=
  fields [(8, e.fetchCt), (2, e.desc.tag.toNat), (1, d.status.toNat), (1, bit phase + 2 * bit (!d.result.isEmpty)), (4, d.detail.toNat)]

/-- The write-back into the descriptor's submission slot (R419): DONE_CT, and the result. -/
def writeBack (r : RingPair) (e : Outst) (d : Done) (ct : Nat) (s : State) : State :=
  let a := r.sqBase.toNat + 64 * e.slot
  let s1 := emit (.dmaWrite (a + 8) (leBytes 8 ct)) s
  if d.result.isEmpty then s1 else emit (.dmaWrite (a + 24) (fitTo 40 d.result)) s1

/-- The ring pair after a posting: the tail moves on, and PHASE is inverted at its wrap. -/
def RingPair.posted (r : RingPair) : RingPair :=
  let t := (r.cqTail.toNat + 1) % r.cqSize
  { r with outst := r.outst.drop 1, cqTail := BitVec.ofNat 12 t, phase := if t = 0 then !r.phase else r.phase, used := r.used + 1 }

/-- Send the completion vector of a ring pair. -/
def sendRingVector (q : RingId) (s : State) : State :=
  sendMsix ⟨(ringPair s q).vector.toNat, by have := (ringPair s q).vector.isLt; omega⟩ (modRing q (fun r => { r with unsent := 0 }) s)

/-- A completion was posted: its message is sent, or moderated (R409). -/
def moderate (q : RingId) (irq : Bool) (s : State) : State :=
  let s1 := modRing q (fun r => { r with unsent := r.unsent + 1, firstUnsentAt := if r.unsent = 0 then s.clk.now else r.firstUnsentAt }) s
  let r := ringPair s1 q
  if irq || r.coalUs == 0 || decide (max 1 r.coalCount.toNat ≤ r.unsent) then sendRingVector q s1 else s1

/-- COMPLETION_POST (R421, R422): the oldest completion of the ring pair, where a slot is free. -/
def execCompletionPost (q : RingId) (s : State) : Host.Outcome State Fault Refusal :=
  let r := ringPair s q
  if r.stopped || !hostReachable s || decide (r.cqSize ≤ r.used) then ok s
  else
    match r.outst with
    | e :: _ =>
      match e.doneCt, e.ended with
      | some ct, some d =>
        let s1 := emit (.dmaWrite (r.cqBase.toNat + 16 * r.cqTail.toNat) (completionBytes e d r.phase)) (writeBack r e d ct s)
        ok (moderate q (e.desc.flags.getLsbD 1) (modRing q RingPair.posted s1))
      | _, _ => ok s
    | [] => ok s

/-- COAL_TIMER (R409). -/
def execCoalTimer (q : RingId) (s : State) : Host.Outcome State Fault Refusal :=
  let r := ringPair s q
  if 0 < r.unsent ∧ r.firstUnsentAt + r.coalUs.toNat * 1000 ≤ s.clk.now then ok (sendRingVector q s) else ok s

/-! ## Interrupts (R410) -/

/-- A write to HIF_IRQ_CAUSE (R410). -/
def clearCauses (w : W32) (s : State) : State := s.modHif fun h => { h with cause := h.cause &&& ~~~ w.extractLsb' 0 10 }

/-- IRQ_CAUSE_CLEAR (R410). -/
def execIrqCauseClear (w : W32) (s : State) : Host.Outcome State Fault Refusal := ok (clearCauses w s)

/-- Unmask a vector: a message that is pending is sent (R410). -/
def unmaskVector (v : Fin 64) (s : State) : State :=
  let e := s.hif.msix.get v
  let s1 := s.modHif fun h => { h with msix := vmod h.msix v fun e => { e with masked := false, pending := false } }
  if e.pending then emit (.msix v.val e.addr e.data) s1 else s1

/-- MSIX_UNMASK (R410). -/
def execMsixUnmask (v : Fin 64) (s : State) : Host.Outcome State Fault Refusal := ok (unmaskVector v s)

/-! ## The endpoint (R404, R405, R445, R564, R593) -/

/-- The code of a reset in class 0x0404. -/
def hifResetCode : HifResetKind → Nat
  | .linkDown => 1
  | .hotReset => 2
  | .functionLevel => 3

/-- A ring pair after a reset of the host interface: its counts and the work that goes on are kept. -/
def RingPair.hifReset (q : RingId) (r : RingPair) : RingPair :=
  let d := r.discard
  { (State.resetHif.rings.get q) with discarded := d.discarded, refused := d.refused, dead := d.dead, nextNum := d.nextNum }

/-- The host interface after its reset: the bulk buffers, the error counts and the order of the service cores are kept. -/
def Hif.reset (linkUp : Bool) (h : Hif) : Hif :=
  { State.resetHif with
    width := if linkUp then h.width else 0, rate := if linkUp then h.rate else 0, linkUp := linkUp, bme := linkUp, errDma := h.errDma, errBad := h.errBad,
    rings := Vector.ofFn fun q : Fin 32 => (h.rings.get q).hifReset q, svc := h.svc, svcStart := h.svcStart, bulk := h.bulk }

/-- HIF_RESET (R405). -/
def execHifReset (k : HifResetKind) (s : State) : Host.Outcome State Fault Refusal :=
  let s1 := s.modHif (Hif.reset (s.hif.linkUp && k == .functionLevel))
  let s2 := (allFin 32).foldl (fun t q => noteDiscard q (ringPair s q).outst.length t) s1
  ok (event 0x0404 (det [(1, hifResetCode k)]) (abandonTxn 4 s2))

/-- An alarm of the real-time clock that fired while VIN was absent is sent when the link comes up (R564). -/
def sendHeldAlarm (s : State) : State :=
  if s.rtc.vecDue then raise 40 (s.modRtc fun r => { r with vecDue := false }) else s

/-- PCIE_LINK_UP (R593). -/
def execPcieLinkUp (width rate : BitVec 4) (s : State) : Host.Outcome State Fault Refusal :=
  if s.sys.inReset then ok s
  else
    ok (sendHeldAlarm (event 0x0405 (det [(1, width.toNat), (1, rate.toNat)])
      (s.modHif fun h => { h with linkUp := true, width := width, rate := rate, bme := true })))

/-- PCIE_POWER_STATE_CHANGE (R405). -/
def execPciePowerStateChange (d3 : Bool) (s : State) : Host.Outcome State Fault Refusal :=
  ok (s.modHif fun h => { h with d3 := d3 })

/-- PCIE_UNCORRECTABLE_ERROR (R445). -/
def execPcieUncorrectableError (status : W32) (s : State) : Host.Outcome State Fault Refusal :=
  ok (event 0x040A (det [(4, status.toNat)]) s)

/-! ## Ring housekeeping (R430, R431) -/

/-- NOP. -/
def execNop (q : RingId) (s : State) : Host.Outcome State Fault Refusal := ok (serve q 0x01 s fun _ s => (s, .finish (doneOk [])))

/-- TIME_READ: chip time and its quality. -/
def execTimeRead (q : RingId) (s : State) : Host.Outcome State Fault Refusal :=
  ok (serve q 0x02 s fun _ s => (s, .finish (doneOk (fields [(8, s.clk.ct), (1, s.tim.quality.code), (31, 0)]))))

/-- GLB_OPTION (R2). -/
def glbOption (s : State) : Nat := if safetyOption s then 5 else 2

/-- MODULE_INFO: identification and features. -/
def execModuleInfo (q : RingId) (s : State) : Host.Outcome State Fault Refusal :=
  ok (serve q 0x03 s fun _ s =>
    (s, .finish (doneOk (fields ([(4, glbId s), (4, glbOption s)] ++ (List.range 8).map fun i => (4, (featWord i).toNat))))))

/-- RING_STATUS. -/
def doRingStatus (e : Outst) (s : State) : State × Work :=
  match fin? 32 (e.desc.par 24 1) with
  | some p => (s, .finish (doneOk (fields [(4, rpState s p), (2, (ringPair s p).sqHead.toNat), (2, (ringPair s p).cqTail.toNat), (4, rpCount s p)])))
  | none => (s, .finish (doneWith stBadDescriptor 24))

/-- RING_STATUS (R430). -/
def execRingStatus (q : RingId) (s : State) : Host.Outcome State Fault Refusal := ok (serve q 0x04 s doRingStatus)

/-- The size of the bulk partition in bytes (R40). -/
def bulkSize (s : State) : Nat := 17179869184 - bulkBase s

/-- Two ranges overlap. -/
def rangesMeet (a n b m : Nat) : Bool := decide (a < b + m) && decide (b < a + n)

/-- Where a buffer of `n` bytes fits: the lowest of the start of the partition and the ends of the buffers (R431). -/
def bulkPlace (s : State) (n : Nat) : Option Nat :=
  ((0 :: s.hif.bulk.map fun b => b.offset + b.size).filter fun o =>
    decide (o + n ≤ bulkSize s) && !(s.hif.bulk.any fun b => rangesMeet o n b.offset b.size)).min?

/-- BULK_ALLOC: NO_SPACE where no free range is large enough. -/
def doBulkAlloc (e : Outst) (s : State) : State × Work :=
  let n := e.desc.par 24 8
  match bulkPlace s n with
  | some o => (s.modHif fun h => { h with bulk := h.bulk ++ [{ offset := o, size := n }] }, .finish (doneOk (fields [(8, o)])))
  | none => (s, .finish (doneWith stNoSpace 0))

/-- BULK_ALLOC (R431). -/
def execBulkAlloc (q : RingId) (s : State) : Host.Outcome State Fault Refusal := ok (serve q 0x05 s doBulkAlloc)

/-- A descriptor uses a bulk buffer: its BUF with BULK, or the offset of a BULK_COPY, lies in it. -/
def usesBulk (d : Desc) (b : BulkBuf) : Bool :=
  d.len != 0 && ((d.bulk && rangesMeet d.buf d.len b.offset b.size) || (d.opcode.toNat == 7 && rangesMeet (d.par 24 8) d.len b.offset b.size))

/-- A descriptor in progress uses a bulk buffer. -/
def bulkInUse (s : State) (b : BulkBuf) : Bool :=
  (allFin 32).any fun q => (ringPair s q).work.any fun e => e.ended.isNone && usesBulk e.desc b

/-- BULK_FREE: BAD_STATE while a descriptor in progress uses the buffer. -/
def doBulkFree (e : Outst) (s : State) : State × Work :=
  match s.hif.bulk.find? fun b => b.offset == e.desc.par 24 8 with
  | some b =>
    if bulkInUse s b then (s, .finish (doneWith stBadState 0))
    else (s.modHif fun h => { h with bulk := h.bulk.filter fun x => x.offset != b.offset }, .finish (doneOk []))
  | none => (s, .finish (doneWith stNotFound 0))

/-- BULK_FREE (R431). -/
def execBulkFree (q : RingId) (s : State) : Host.Outcome State Fault Refusal := ok (serve q 0x06 s doBulkFree)

/-- BULK_COPY; the buffer named by the offset may have been freed since the fetch. -/
def doBulkCopy (dma : List Byte) (e : Outst) (s : State) : State × Work :=
  let d := e.desc
  let o := d.par 24 8
  if !inBulk s o d.len then (s, .finish (doneWith stBadDescriptor 24))
  else if d.par 32 1 = 0 then
    (s.modMem fun m => { m with dram := memWrite m.dram (bulkBase s + o) (bufRead d dma s) }, .finish (doneOk []))
  else (bufWrite d 0 (memRead s.mem.dram (bulkBase s + o) d.len) s, .finish (doneOk []))

/-- BULK_COPY (R430). -/
def execBulkCopy (q : RingId) (dma : List Byte) (s : State) : Host.Outcome State Fault Refusal := ok (serve q 0x07 s (doBulkCopy dma))

end Sys2Proof.Machine
end

