-- ==== Sys2Proof/Machine/StoreCmds.lean ====
section
/-! DEFINITION. The commands of the persistent store: page writes, the RWP ring, scans, back-offs, the power-fail warning and the
descriptors (R507 to R535). -/

namespace Sys2Proof.Machine

/-! ## Page writes (R511, R513) -/

/-- The page write that comes next: of the lowest row, the oldest (R513). -/
def nextPage (l : List PageReq) : Option PageReq :=
  l.foldl (fun b r =>
    match b with
    | some x => if r.row < x.row then some r else b
    | none => some r) none

/-- The page write belongs to a descriptor of several pages. -/
def PageReq.ofDesc (q : RingId) (num : Nat) (r : PageReq) : Bool :=
  match r.use_ with
  | .prgSave q' n _ _ _ => q' == q && n == num
  | .fwuBlock q' n _ => q' == q && n == num
  | _ => false

/-- The pages of a descriptor that are still to be written are given up, and it ends with MEDIA_ERROR (R511, R522). -/
def failPages (q : RingId) (num : Nat) (s : State) : State :=
  endDesc q num (doneWith stMediaError 0) (s.modPst fun p => { p with queue := p.queue.filter fun r => !r.ofDesc q num })

/-- ACTIVE_SLOT is set to a slot, as a write to SYS_RUN_CFG would (R260). -/
def chooseSlot (slot : Nat) (s : State) : State :=
  let w := (s.rwp.runCfg &&& 1#32) ||| (if slot = 1 then 2#32 else 0)
  mirror (sharedItem s 0x1040 w) (rwpSet (rwpPut 0x1040 w) s)

/-- The whole image is written: it is read back and checked (R228, R260). -/
def endPrgSave (q : RingId) (num slot : Nat) (active : Bool) (s : State) : State :=
  let r := slotBytes slot s
  match r.1.map (checkImage s.prg.key) with
  | none => endDesc q num (doneWith stMediaError 0) r.2
  | some (.error (n, at_)) => endDesc q num (doneWith stRefused (n + at_ * 256)) r.2
  | some (.ok i) => endDesc q num (doneOk (fields [(8, i.id.toNat)])) (if active then chooseSlot slot r.2 else r.2)

/-- A block of firmware is written (R615). -/
def endFwuBlock (q : RingId) (num : Nat) (s : State) : State :=
  let n := s.fwu.next + 1
  endDesc q num (doneOk (fields [(4, n)])) (s.modFwu fun u => { u with next := n })

/-- What follows when a page write has ended. -/
def pageEnded (r : PageReq) (good : Bool) (s : State) : State :=
  match r.use_ with
  | .nothing => s
  | .keySet q num key =>
    if good then endDesc q num (doneOk []) (s.modPrg fun p => { p with key := key }) else failPages q num s
  | .pwdSet q num region write pw =>
    if good then
      endDesc q num (doneOk []) (s.modPst fun x =>
        { x with pwd := vmod x.pwd region fun y => if write then { y with write := pw } else { y with read := pw } })
    else failPages q num s
  | .refresh => if good then event 0x070E (det [(4, r.page)]) s else s
  | .prgSave q num slot active last =>
    if !good then failPages q num s else if last then endPrgSave q num slot active s else s
  | .fwuBlock q num last => if !good then failPages q num s else if last then endFwuBlock q num s else s

/-- Write the page that comes next, of which `fails` comparisons fail. -/
def servePage (fails : Nat) (s : State) : State :=
  match nextPage s.pst.queue with
  | none => s
  | some r =>
    let s1 := s.modPst fun p => { p with queue := p.queue.erase r }
    let w := writePage r.page r.body 0 0 fails s1
    pageEnded r w.1 w.2

/-- PAGE_WRITE (R511, R513). -/
def execPageWrite (fails : Fin 3) (s : State) : Host.Outcome State Fault Refusal :=
  if s.pst.ready then ok (servePage fails.val s) else ok s

/-- RWP_RECORD_WRITE (R519): nothing to write where no RWP value has changed. -/
def execRwpRecordWrite (s : State) : Host.Outcome State Fault Refusal :=
  if s.pst.ready && s.rwp.changed && !s.pst.rwpBad then ok (writeRwp s) else ok s

/-! ## The daily scan (R523) -/

/-- Service firmware runs and may use the store. -/
def firmwareRuns (s : State) : Bool := !s.sys.inReset && s.sys.selfTestEnded && !noFirmware s && !s.fwu.pausing

/-- One day in ns. -/
def dayNs : Nat := 86400000000000

/-- Five years of 365.25 days in ns (log entry 50). -/
def fiveYearsNs : Nat := 157788000000000000

/-- Chip time is known well enough for a scan. -/
def qualityKnown (s : State) : Bool := s.tim.quality == .seeded || s.tim.quality == .locked

/-- The readable copy of a page is more than five years old. -/
def agedPage (s : State) (p : PstPage) : Bool :=
  match readChoice s p with
  | none => false
  | some c => decide ((if c then p.c1 else p.c0).ct + fiveYearsNs < s.clk.ct)

/-- TRAILER_SCAN: every page that has been written and is due is listed; corrected errors are counted (R509). -/
def execTrailerScan (fixed : Nat) (s : State) : Host.Outcome State Fault Refusal :=
  if firmwareRuns s && qualityKnown s && decide (s.pst.scanAt + dayNs ≤ s.clk.now) then
    ok (s.modPst fun p => { p with eccFixed := satInc p.eccFixed fixed, scanAt := s.clk.now, refresh := (p.pages.filter fun x => agedPage s x).map fun x => x.num })
  else ok s

/-- PAGE_REFRESH: at most one page every 10 ms, with its body unchanged. -/
def execPageRefresh (s : State) : Host.Outcome State Fault Refusal :=
  if firmwareRuns s && decide (s.pst.refreshAt + 10000000 ≤ s.clk.now) then
    match s.pst.refresh with
    | [] => ok s
    | n :: rest =>
      let s1 := s.modPst fun p => { p with refresh := rest, refreshAt := s.clk.now }
      match peekPage s n with
      | some b => ok (queuePage 7 n b .refresh s1)
      | none => ok s1
  else ok s

/-! ## Back-off (R525) -/

/-- BACKOFF_END: the back-off of a region has run out in operating time. -/
def execBackoffEnd (r : Fin 3) (s : State) : Host.Outcome State Fault Refusal :=
  match (s.pst.pwd.get r).until_ with
  | some u => if u ≤ s.clk.opNs then ok (modPwd r (fun x => { x with until_ := none }) s) else ok s
  | none => ok s

/-! ## The power-fail warning (R529, R638) -/

/-- POWER_FAIL_WARNING: one retentive save for each warning. -/
def execPowerFailWarning (cut : Option Nat) (s : State) : Host.Outcome State Fault Refusal :=
  if s.sys.warned || s.sys.inReset then ok s
  else
    let s1 := s.modSys fun y => { y with warned := true }
    ok (if s.pst.ready then (retentiveSave 0 cut s1).2 else s1)

/-- WARNING_REARM (R638). -/
def execWarningRearm (s : State) : Host.Outcome State Fault Refusal := ok (s.modSys fun y => { y with warned := false })

/-! ## What the pages hold that the model keeps elsewhere (R515, R519, R613) -/

/-- The 64 bytes of a journal slot (R515). -/
def Journal.bytes64 (kind : Nat) (j : Journal) : List Byte :=
  if j.state = 0 then List.replicate 64 0
  else
    let b := fields [(4, j.seq.toNat), (4, kind * 268435456 + j.group), (1, j.state), (7, 0), (8, j.tag.toNat), (4, j.first), (4, j.count), (28, 0)]
    b ++ leBytes 4 (crc32c b).toNat

/-- The page of the journal slots (R517). -/
def journalPage (s : State) : List Byte :=
  (s.pst.journal.get 0).bytes64 1 ++ (s.pst.journal.get 1).bytes64 1 ++ (s.pst.journal.get 2).bytes64 2 ++ (s.pst.journal.get 3).bytes64 2

/-- The page of a ring record. -/
def ringBytes (s : State) (i : Fin 64) : List Byte :=
  match s.pst.ring.get i with
  | some r => r.bytes
  | none => List.replicate 256 0

/-- The page at which a firmware slot begins (R44). -/
def fwPage (i : Fin 2) : Nat := 0x8000 + 8192 * i.val

/-- The slot record of a firmware slot (R613); its layout is the model's (log entry 20). -/
def slotRecord (x : FwSlot) : List Byte := fitTo 256 (fields [(1, x.state.code), (1, x.tries), (2, 0), (4, x.version.toNat), (4, x.svn.toNat)])

/-- A page as a read of the store returns it. -/
def storePage (n : Nat) (s : State) : Option (List Byte) × State :=
  if 0xF000 ≤ n then (some (List.replicate 256 0), s)
  else if n = 0xE040 then (some (journalPage s), s)
  else if n = fwPage 0 + 8176 then (some (slotRecord (fwSlot s 0)), s)
  else if n = fwPage 1 + 8176 then (some (slotRecord (fwSlot s 1)), s)
  else
    match if 0xE000 ≤ n then fin? 64 (n - 0xE000) else none with
    | some i => (some (ringBytes s i), s)
    | none => readPage n s

/-- Consecutive pages of the store, `none` where one is unreadable. -/
def storePages : Nat → Nat → State → Option (List Byte) × State
  | _, 0, s => (some [], s)
  | n, k + 1, s =>
    let r := storePage n s
    match r.1 with
    | none => (none, r.2)
    | some b =>
      let q := storePages (n + 1) k r.2
      (q.1.map fun x => b ++ x, q.2)

/-! ## Descriptors (R535) -/

/-- The regions with a read password that a range of pages touches. -/
def regionsRead (first last : Nat) : List (Fin 3) :=
  (allFin 3).filter fun r => (List.range (last + 1 - first)).any fun i => regionOf (first + i) == some r

/-- Check the read password of each region in turn. -/
def checkReads (given : List Byte) : List (Fin 3) → State → Bool × State
  | [], s => (true, s)
  | r :: rs, s =>
    let x := checkPwd r false given s
    if x.1 then checkReads given rs x.2 else x

/-- PST_READ: the range lies within the 16 MiB of the store. -/
def doPstRead (e : Outst) (s : State) : State × Work :=
  let off := e.desc.par 24 4
  let n := e.desc.len
  if 16777216 < off + n then (s, .finish (doneWith stBadDescriptor 24))
  else if n = 0 then (s, .finish (doneOk []))
  else
    let first := off / 256
    let last := (off + n - 1) / 256
    let p := checkReads (slice e.desc.param 16 16) (regionsRead first last) s
    if p.1 then
      let r := storePages first (last + 1 - first) p.2
      match r.1 with
      | none => (r.2, .finish (doneWith stMediaError 0))
      | some bs => (bufWrite e.desc 0 (slice bs (off % 256) n) r.2, .finish (doneOk []))
    else (p.2, .finish (doneWith stAccessDenied 0))

/-- PST_READ (R535). -/
def execPstRead (q : RingId) (s : State) : Host.Outcome State Fault Refusal := ok (serve q 0x50 s doPstRead)

/-- The 32 bytes of a trailer (R508); the CRC of a copy beyond correction is a free value. -/
def trailer (free : W64) (c : PageCopy) : List Byte :=
  let b := fields [(4, c.seq.toNat), (4, c.kind * 268435456 + c.group), (8, c.writes), (8, c.ct), (4, 0)]
  b ++ leBytes 4 (if c.bad then free.toNat else (crc32c (c.body ++ b)).toNat)

/-- Both trailers of a page; of a ring record, which has no copies, the writes alone (R521). -/
def trailersOf (n : Nat) (s : State) : List Byte × State :=
  match if 0xE000 ≤ n then fin? 64 (n - 0xE000) else none with
  | some i => (fields [(8, 0), (8, s.pst.rwpCount.get i), (48, 0)], s)
  | none =>
    let p := pstPage s n
    let f := freeValue s
    (trailer f.1 p.c0 ++ trailer f.1 p.c1, if p.c0.bad || p.c1.bad then f.2 else s)

/-- The trailers of consecutive pages. -/
def trailersFrom : Nat → Nat → State → List Byte × State
  | _, 0, s => ([], s)
  | n, k + 1, s =>
    let a := trailersOf n s
    let r := trailersFrom (n + 1) k a.2
    (a.1 ++ r.1, r.2)

/-- PST_INFO: nothing is copied where the buffer is too small. -/
def doPstInfo (e : Outst) (s : State) : State × Work :=
  let n := e.desc.par 24 4
  let k := e.desc.par 28 4
  if 65536 < n + k then (s, .finish (doneWith stBadDescriptor 24))
  else if e.desc.len < 64 * k then (s, .finish (doneWith stNoSpace 0))
  else
    let r := trailersFrom n k s
    (bufWrite e.desc 0 r.1 r.2, .finish (doneOk []))

/-- PST_INFO (R535). -/
def execPstInfo (q : RingId) (s : State) : Host.Outcome State Fault Refusal := ok (serve q 0x51 s doPstInfo)

/-- A password that is set and does not match. -/
def wrongPwd (want given : List Byte) : Bool := want != List.replicate 16 0 && want != given

/-- The passwords that a change needs, checked as one attempt (R525, R526). -/
def checkChange (r : Fin 3) (readToo : Bool) (read write : List Byte) (s : State) : Bool × State :=
  let x := s.pst.pwd.get r
  let set := x.write != List.replicate 16 0 || (readToo && x.read != List.replicate 16 0)
  if !set then (true, s)
  else if backedOff s r then (false, s)
  else if wrongPwd x.write write || (readToo && wrongPwd x.read read) then (false, failedAttempt r (bit !readToo) s)
  else (true, s.modPst fun p => { p with pwd := vmod p.pwd r fun x => { x with fails := 0, next := 1 } })

/-- PST_PWD_SET: BUF holds the present password, the new one and, for a read password, the write password. -/
def doPstPwdSet (q : RingId) (dma : List Byte) (e : Outst) (s : State) : State × Work :=
  match fin? 3 (e.desc.par 24 1) with
  | none => (s, .finish (doneWith stBadDescriptor 24))
  | some r =>
    let bs := bufRead e.desc dma s
    let read := decide (e.desc.par 25 1 = 0)
    let new := slice bs 16 16
    let c := checkChange r read (slice bs 0 16) (if read then slice bs 32 16 else slice bs 0 16) s
    if c.1 then
      let after := c.2.modPst fun x => { x with pwd := vmod x.pwd r fun y => if read then { y with read := new } else { y with write := new } }
      (queuePage 4 passwordPage (passwordBody after) (.pwdSet q e.num r (!read) new) c.2, .wait e.bound)
    else (c.2, .finish (doneWith stAccessDenied 0))

/-- PST_PWD_SET (R526). -/
def execPstPwdSet (q : RingId) (dma : List Byte) (s : State) : Host.Outcome State Fault Refusal := ok (serve q 0x52 s (doPstPwdSet q dma))

/-- PST_RET_SAVE: BAD_STATE where the active image has no retentive symbol, MEDIA_ERROR where the save is not committed. -/
def doPstRetSave (_ : Outst) (s : State) : State × Work :=
  if hasRetentive s then
    let r := retentiveSave 2 none s
    (r.2, .finish (if r.1 then doneOk [] else doneWith stMediaError 0))
  else (s, .finish (doneWith stBadState 0))

/-- PST_RET_SAVE (R529). -/
def execPstRetSave (q : RingId) (s : State) : Host.Outcome State Fault Refusal := ok (serve q 0x53 s doPstRetSave)

/-- PST_RET.LAST. -/
def retLast (s : State) : Nat :=
  match (newerSlot s 1).state with
  | 2 => 1
  | 3 => 2
  | _ => bit (committedGroup s 1).isSome

/-- PST_RET_INFO: of the last committed save. -/
def doPstRetInfo (_ : Outst) (s : State) : State × Work :=
  match committedGroup s 1 with
  | some j => (s, .finish (doneOk (fields [(8, j.tag.toNat), (8, j.ct), (2, j.bytes), (1, retLast s)])))
  | none => (s, .finish (doneOk (fields [(18, 0), (1, retLast s)])))

/-- PST_RET_INFO (R535). -/
def execPstRetInfo (q : RingId) (s : State) : Host.Outcome State Fault Refusal := ok (serve q 0x54 s doPstRetInfo)

end Sys2Proof.Machine
end

