-- ==== Sys2Proof/Machine/RtcCmds.lean ====
section
/-! DEFINITION. The commands of the real-time clock: counting, reading, setting, the alarm, synchronisation, compensation and VBAT (R554 to R570). -/

namespace Sys2Proof.Machine

/-- The chip runs, so that it can record events: the always-on island runs without it. -/
def chipUp (s : State) : Bool := s.sys.vinPresent && !s.sys.inReset

/-- An event of the always-on island; nothing records it while the chip does not run. -/
def rtcEvent (cls : Nat) (detail : W64) (s : State) : State := if chipUp s then event cls detail s else s

/-! ## The alarm (R562 to R564) -/

/-- The alarm time as a number in calendar order. -/
def alarmKey (s : State) : Nat := calendarKey s.rtc.almDate s.rtc.almTime

/-- The alarm fires; while the chip does not run, its vector waits for the host link. -/
def fireAlarm (skipped : Bool) (s : State) : State :=
  let s1 := s.modRtc fun r => { r with arm := false, fired := true, skipped := skipped }
  if chipUp s then raise 40 (event 0x0802 (det [(1, bit skipped)]) s1) else s1.modRtc fun r => { r with vecDue := true }

/-- The alarm can fire. -/
def alarmLive (s : State) : Bool := s.rtc.arm && s.rtc.valid

/-- The alarm judges an adjustment of the calendar from `old` (R563). -/
def judgeAdjust (old : Calendar) (s : State) : State :=
  let a := alarmKey s
  let new := s.rtc.cal.key
  if alarmLive s && decide (old.key < a) && decide (a ≤ new) then fireAlarm (decide (a < new)) s else s

/-- A write to RTC_ALM_CTRL; arming at or after the alarm time fires at once (R563). -/
def writeAlarmCtrl (w : W32) (s : State) : State :=
  let s1 := s.modRtc fun r =>
    { r with arm := w.getLsbD 0, fired := r.fired && !w.getLsbD 1, skipped := r.skipped && !w.getLsbD 2 }
  if alarmLive s1 && decide (alarmKey s1 ≤ s1.rtc.cal.key) then fireAlarm true s1 else s1

/-- RTC_ALARM_ARM (R563). -/
def execRtcAlarmArm (w : W32) (s : State) : Host.Outcome State Fault Refusal := ok (writeAlarmCtrl w s)

/-! ## Counting (R554, R555, R562, R566) -/

/-- VALID is cleared: both registers must be written again (R560). -/
def clearValid (s : State) : State := s.modRtc fun r => { r with valid := false, dateOk := false }

/-- A seconds transition. -/
def secondPasses (s : State) : State :=
  let wrapped := s.rtc.cal.last
  let s1 := s.modRtc fun r => { r with secAt := r.secAt + 32768, cal := r.cal.next }
  if wrapped then rtcEvent 0x0808 0 (clearValid s1)
  else if alarmLive s1 && s1.rtc.cal.key == alarmKey s1 then fireAlarm false s1
  else s1

/-- RTC_SECOND: 32,768 ticks after the last transition, while counting is not halted. -/
def execRtcSecond (s : State) : Host.Outcome State Fault Refusal :=
  if !s.rtc.halt && decide (s.rtc.secAt + 32768 ≤ (crystalTick s : Int)) then ok (secondPasses s) else ok s

/-- The phase accumulator now, in units of 10^-7 tick: it gathers the correction at every tick (R566). -/
def accNow (s : State) : Int := s.rtc.acc + s.rtc.corr * ((crystalTick s : Int) - s.rtc.accTick)

/-- RTC_PHASE_STEP (R566): past a whole tick, one count is skipped (c positive) or repeated; a step in the tick of a write of
the time is dropped (R570). -/
def execRtcPhaseStep (s : State) : Host.Outcome State Fault Refusal :=
  let a := accNow s
  if s.rtc.setAt = (crystalTick s : Int) then ok s
  else if 10000000 ≤ a then
    ok (s.modRtc fun r => { r with acc := a - 10000000, accTick := crystalTick s, secAt := r.secAt - 1 })
  else if a ≤ -10000000 then
    ok (s.modRtc fun r => { r with acc := a + 10000000, accTick := crystalTick s, secAt := r.secAt + 1 })
  else ok s

/-! ## Reading (R556) -/

/-- RTC_SUB_READ: the set is copied and frozen anew. -/
def execRtcSubRead (firmware : Bool) (s : State) : Host.Outcome State Fault Refusal := ok (setFreeze (requester firmware) (some (rtcCopy s)) s)

/-- RTC_DATE_READ: the set is copied and frozen where no freeze is in progress. -/
def execRtcDateRead (firmware : Bool) (s : State) : Host.Outcome State Fault Refusal :=
  let r := requester firmware
  if (s.rtc.frozen.get r).isSome then ok s else ok (setFreeze r (some (rtcCopy s)) s)

/-- RTC_TIME_READ: the freeze ends. -/
def execRtcTimeRead (firmware : Bool) (s : State) : Host.Outcome State Fault Refusal := ok (setFreeze (requester firmware) none s)

/-- RTC_FREEZE_TIMEOUT: a freeze of 100 ms ends by itself. -/
def execRtcFreezeTimeout (firmware : Bool) (s : State) : Host.Outcome State Fault Refusal :=
  let r := requester firmware
  match s.rtc.frozen.get r with
  | some f => if f.since + 100000000 ≤ s.clk.now then ok (setFreeze r none s) else ok s
  | none => ok s

/-! ## Setting (R558 to R561) -/

/-- The calendar is set: the prescaler starts from 0, class 0x0801 records the adjustment, and the alarm judges it, unless
counting is halted. -/
def setCalendar (c : Calendar) (sync : Bool) (s : State) : State :=
  let old := s.rtc.cal
  let d : Int := (c.seconds : Int) - old.seconds
  let s1 := s.modRtc fun r => { r with cal := c, secAt := crystalTick s, setAt := crystalTick s }
  let s2 := rtcEvent 0x0801 (det [(4, signedNat 32 d), (1, bit sync)]) s1
  if s.rtc.halt then s2 else judgeAdjust old s2

/-- VALID once both registers have been accepted since it was cleared (R560). -/
def accepted (dateToo : Bool) (s : State) : State :=
  s.modRtc fun r => { r with dateOk := r.dateOk || dateToo, valid := r.valid || r.dateOk || dateToo }

/-- A write to RTC_DATE is held until RTC_TIME is written (R12, R559). -/
def writeRtcDate (w : W32) (s : State) : State := s.modBar fun b => { b with held := assocSet 0x6004 w b.held }

/-- RTC_DATE_WRITE (R559). -/
def execRtcDateWrite (w : W32) (s : State) : Host.Outcome State Fault Refusal := ok (writeRtcDate w s)

/-- A discarded write: BAD_WRITE, and class 0x0805 with a field code that the spec does not give. -/
def refuseTime (s : State) : State :=
  let f := freeValue s
  event 0x0805 (det [(1, f.1.toNat)]) (f.2.modRtc fun r => { r with badWrite := true })

/-- A write to RTC_TIME, with a held date or with the present one (R558 to R560). -/
def writeRtcTime (w : W32) (s : State) : State :=
  let held := assoc? 0x6004 s.bar.held
  let c := Calendar.ofWords (held.getD s.rtc.cal.dateWord) w
  let s1 := s.modBar fun b => { b with held := b.held.filter fun x => x.1 != 0x6004 }
  if c.valid then setCalendar c false (accepted held.isSome s1) else refuseTime s1

/-- RTC_TIME_WRITE (R558 to R560). -/
def execRtcTimeWrite (w : W32) (s : State) : Host.Outcome State Fault Refusal := ok (writeRtcTime w s)

/-- A write of HALT: at the release the prescaler starts from 0, and the alarm judges what was set meanwhile (R558, R563). -/
def writeHalt (halt : Bool) (s : State) : State :=
  if halt then
    (if s.rtc.halt then s else s.modRtc fun r => { r with halt := true, haltFrom := r.cal })
  else if s.rtc.halt then
    judgeAdjust s.rtc.haltFrom (s.modRtc fun r => { r with halt := false, secAt := crystalTick s })
  else s

/-- RTC_HALT (R558). -/
def execRtcHalt (halt : Bool) (s : State) : Host.Outcome State Fault Refusal := ok (writeHalt halt s)

/-! ## Synchronisation (R561) -/

/-- Chip time as UTC, in ns since 1970 (R64). -/
def chipUtcNs (s : State) : Nat := s.clk.ct - (s.rwp.taiUtc &&& 0xFFFF#32).toNat * 1000000000

/-- The calendar is set to the UTC second that was awaited (R561), where the calendar can hold it. -/
def applySync (t : Nat) (s : State) : State :=
  let s1 := s.modRtc fun r => { r with syncTo := none }
  if s.rtc.halt || decide (t < 946684800) || decide (946684800 + calendarSpan ≤ t) then s1
  else setCalendar (Calendar.ofSeconds (t - 946684800)) true (accepted true s1)

/-- The comparison of the calendar with chip time (R561): a difference above 10 ms is removed at the next whole second of
UTC. -/
def compareSync (s : State) : State :=
  let d : Int := (rtcUtcNs s : Int) - (chipUtcNs s : Int)
  s.modRtc fun r =>
    { r with syncAt := s.clk.now, syncTo := if 10000000 < d.natAbs then some (chipUtcNs s / 1000000000 + 1) else none }

/-- A comparison is due: SYNC is set, chip time is locked, counting is not halted, and 60 s have passed. -/
def syncDue (s : State) : Bool :=
  s.rwp.rtcSync.getLsbD 1 && s.tim.quality == .locked && !s.rtc.halt && firmwareRuns s &&
    decide (s.rtc.syncAt + 60000000000 ≤ s.clk.now)

/-- The calendar cannot be read (R557): class 0x0807, and no comparison is made. -/
def unreadable (s : State) : State := event 0x0807 0 (s.modRtc fun r => { r with syncAt := s.clk.now })

/-- The comparison that is due, if the calendar can be read. -/
def syncRead (s : State) : State :=
  let s1 := (freeValue s).2
  if calendarRead s then compareSync s1 else unreadable s1

/-- RTC_SYNC (R557, R561): the adjustment that is due, or else the comparison with the calendar as the routine reads it. -/
def execRtcSync (s : State) : Host.Outcome State Fault Refusal :=
  match s.rtc.syncTo with
  | some t => if t * 1000000000 ≤ chipUtcNs s then ok (applySync t s) else ok s
  | none => if syncDue s then ok (syncRead s) else ok s

/-! ## Compensation (R565 to R567) -/

/-- TRIM of RTC_TRIM, signed. -/
def rtcTrim (s : State) : Int := (s.rwp.rtcTrim.extractLsb' 0 8).toInt

/-- A new correction: what the accumulator has gathered so far is kept. -/
def takeCorrection (temp : Int) (s : State) : State :=
  let c := Config.rtcCurve temp + rtcTrim s
  let k := clampInt (-3000) 3000 c
  s.modRtc fun r => { r with acc := accNow s, accTick := crystalTick s, temp := temp, corr := k, compLimit := decide (k ≠ c), compFault := false }

/-- RTC_COMPENSATION: once every 60 s; a reading outside −55 to +150 °C leaves the correction (R567). -/
def execRtcCompensation (temp : Int) (s : State) : Host.Outcome State Fault Refusal :=
  if s.rtc.compAt + 60000000000 ≤ s.clk.now then
    let s1 := s.modRtc fun r => { r with compAt := s.clk.now }
    if temp < -550 ∨ 1500 < temp then
      ok (rtcEvent 0x0806 (det [(2, signedNat 16 temp)]) (s1.modRtc fun r => { r with compFault := true }))
    else ok (takeCorrection temp s1)
  else ok s

/-! ## VBAT and the crystal (R568, R569) -/

/-- VBAT_CHECK: once every 60 s while VIN is present. -/
def execVbatCheck (mv : W16) (s : State) : Host.Outcome State Fault Refusal :=
  if s.sys.vinPresent && decide (s.rtc.vbatAt + 60000000000 ≤ s.clk.now) then
    let low := decide (mv.toNat < 2200)
    let s1 := s.modRtc fun r => { r with vbatAt := s.clk.now, vbatLow := low }
    if low then ok (rtcEvent 0x0803 (det [(2, mv.toNat)]) s1) else ok s1
  else ok s

/-- VBAT_LOST: below 2.0 V while VIN is absent; the alarm registers keep nothing, and what they hold then is free. -/
def execVbatLost (s : State) : Host.Outcome State Fault Refusal :=
  if s.sys.vinPresent then ok s
  else
    let d := freeValue s
    let t := freeValue d.2
    let c := freeValue t.2
    ok (c.2.modRtc fun r =>
      { r with
        vbatLost := true, lossDue := true, almDate := d.1.setWidth 32, almTime := t.1.setWidth 32, arm := c.1.getLsbD 0, fired := c.1.getLsbD 1,
        skipped := c.1.getLsbD 2 })

/-- OSC_STOP: the crystal gives no edge for 4 ms. -/
def execOscStop (s : State) : Host.Outcome State Fault Refusal := ok (s.modRtc fun r => { r with oscStop := true, lossDue := true })

/-- What either latch makes the next power-up do (R569). -/
def rtcLoss (s : State) : State :=
  if s.rtc.lossDue then
    event 0x0804 (det [(1, bit s.rtc.vbatLost + 2 * bit s.rtc.oscStop)])
      (clearValid (s.modRtc fun r => { r with lossDue := false, cal := .first, secAt := crystalTick s }))
  else s

/-! ## Chip time from the clock (R66 to R68) -/

/-- Chip time is seeded: the record of R66, whichever of its rows applies, and step 6 follows. -/
def seedTime (ct : Nat) (source : BitVec 2) (q : Quality) (s : State) : State :=
  let s1 := (s.modClk fun c => { c with ct := ct, frac := 0 }).modTim fun t =>
    { t with seeded := true, source := source, quality := q, savedAt := s.clk.now }
  let s2 := qualityRecord .free q 0 s1
  let s3 := if q = .free then s2 else event 0x0C03 (det [(1, Quality.free.code), (1, q.code)]) s2
  selectRole (s3.modSys fun y => { y with step := 6 })

/-- The chip time last saved, 0 where none was. -/
def savedTime (s : State) : Nat := ((savedTimePage s).map fun b => rd b 0 8).getD 0

/-- The seed from the calendar, at the UTC second it shows (R67); a calendar that the routine of R557 cannot read is reported, and seeds
nothing (DEDUCED, log entry 144). -/
def seedFromCalendar (s : State) : State :=
  let s1 := (freeValue s).2
  if calendarRead s then seedTime ((946684800 + s.rtc.cal.seconds + (s.rwp.taiUtc &&& 0xFFFF#32).toNat) * 1000000000) 1 .seeded s1
  else event 0x0807 0 s1

/-- CHIP_TIME_SEED (R67, R68): in step 5, at a seconds transition of a valid clock, or 60 s after the saved chip time. -/
def execChipTimeSeed (s : State) : Host.Outcome State Fault Refusal :=
  if s.sys.step ≠ 5 ∨ s.sys.inReset then ok s
  else if s.rtc.valid then (if rtcTicks s = 0 then ok (seedFromCalendar s) else ok s)
  else ok (seedTime (savedTime s + 60000000000) 0 .free s)

/-- CHIP_TIME_SAVE (R68, R590): once every 60 s. -/
def execChipTimeSave (s : State) : Host.Outcome State Fault Refusal :=
  if s.tim.seeded && chipUp s && decide (s.tim.savedAt + 60000000000 ≤ s.clk.now) then
    ok (saveTimePage (s.modTim fun t => { t with savedAt := s.clk.now }))
  else ok s

end Sys2Proof.Machine
end

