-- ==== Sys2Proof/Machine/Start.lean ====
section
/-! DEFINITION. Supplies, resets, the power-up sequence, the built-in self-test, restarts and fuses (R588 to R609, R637 to R642, R654). -/

namespace Sys2Proof.Machine

/-! ## Registers of start-up -/

/-- SYS_START.STEP: 8 when the sequence has ended. -/
def startStep (s : State) : Nat := if s.sys.step = 7 ∧ s.sys.run ≠ .starting then 8 else s.sys.step

/-- SYS_START as a word. -/
def sysStart (s : State) : Nat := s.sys.resetKind * 1048576 + s.sys.failedStep * 65536 + s.sys.failedPart * 256 + startStep s

/-- SYS_START_MS as a word. -/
def sysStartMs (s : State) : Nat := s.sys.bistMs.toNat * 65536 + s.sys.totalMs.toNat

/-- FUSE_STATUS as a word. -/
def fuseStatus (s : State) : Nat :=
  let w := fuseWdg s
  bit s.fuse.readOk + 2 * bit (s.fuse.pendingWdg.isSome || s.fuse.pendingIdent.isSome) + 4 * bit s.fuse.ident.isSome + 8 * bit w.hw +
    w.opening.toNat * 16 + w.n.toNat * 256 + 2048 * bit (s.fuse.wdg.isSome && !s.fuse.fault)

/-! ## Assertion of a reset (R588, R638, R639, R654) -/

/-- The chip is held in reset: DRAM and every register are lost (R588, codes 2 and 3). -/
def assertReset (kind : Nat) (s : State) : State :=
  (chipReset kind (s.modSys fun y => { y with powerLostAt := some (opTicks s) })).modSys fun y => { y with inReset := true }

/-- The reset kind that the next release counts as: a power-on stands, and the first reset otherwise (R638). -/
def noteKind (kind : Nat) (s : State) : State := if s.sys.inReset then s else s.modSys fun y => { y with nextKind := kind }

/-- The supervisor asserts a supply reset. -/
def supplyReset (mv : W16) (s : State) : State :=
  if s.sys.inReset then s else assertReset 3 (noteKind 3 (s.modSys fun y => { y with vinMv := mv }))

/-- SUPPLY_RESET (R638): VIN below 8.7 V for 5 µs. -/
def execSupplyReset (mv : W16) (s : State) : Host.Outcome State Fault Refusal := ok (supplyReset mv s)

/-- OVER_TEMPERATURE (R654): the supply reset holds until every die is below 135 °C. -/
def execOverTemperature (hot : Bool) (mv : W16) (s : State) : Host.Outcome State Fault Refusal :=
  if hot then ok ((supplyReset mv s).modSys fun y => { y with hotStop := true })
  else ok (s.modSys fun y => { y with hotStop := false })

/-- EXTERNAL_RESET (R639): PORST_N low long enough to be taken. -/
def execExternalReset (s : State) : Host.Outcome State Fault Refusal :=
  if s.sys.inReset then ok s else ok (assertReset 2 (noteKind 2 s))

/-- VIN_ABSENT (R500, R590, R638): the always-on island runs from VBAT, and latches the operating-time count. -/
def execVinAbsent (s : State) : Host.Outcome State Fault Refusal :=
  if s.sys.vinPresent then
    let s1 := if s.sys.inReset then s else assertReset 3 (noteKind 3 s)
    ok (s1.modSys fun y => { y with vinPresent := false, powerLostAt := some (opTicks s), lostEvent := some (opTicks s) })
  else ok s

/-- VIN_PRESENT (R638): the next release starts a power-on. -/
def execVinPresent (s : State) : Host.Outcome State Fault Refusal :=
  if s.sys.vinPresent then ok s else ok (s.modSys fun y => { y with vinPresent := true, nextKind := 1 })

/-! ## The power-up sequence, steps 1 to 4 (R592, R595, R596) -/

/-- Step 1: the fuses are read; PAIR_ID was sampled at the release of PORST_N (R641), and PHY_RST_N is released (R642). -/
def readFuses (pairId agree : Bool) (s : State) : State :=
  (s.modFuse fun f => { f with readOk := agree, fault := !agree }).modSys fun y =>
    { y with
      phyReset := false, pairId := if y.resetKind ≤ 3 then pairId else y.pairId, safeCause := if agree then y.safeCause else 10, step := 2 }

/-- The signing key and the state of the saved configuration, as the store holds them (R229, R440). -/
def restoreKey (s : State) : State :=
  let p := pstPage s keyPage
  let k := if 0 < p.c0.writes + p.c1.writes then
      (peekPage s keyPage).bind fun b => if rd b 0 1 = 0 then none else some (slice b 1 97)
    else none
  (s.modPrg fun x => { x with key := k }).modTxn fun t => { t with saved := (committedGroup s 2).isSome }

/-- The events of the loss of power and of the supply reset before this power-up (R610), and the number of forces lost (R212). -/
def powerEvents (s : State) : State :=
  let s1 := if s.sys.resetKind = 1 then
      (match s.sys.lostEvent with
       | some t => event 0x0A04 (det [(8, t)]) (s.modSys fun y => { y with lostEvent := none })
       | none => s)
    else s
  let s2 := if s.sys.resetKind = 3 then event 0x0A05 (det [(2, s.sys.vinMv.toNat)]) s1 else s1
  if s.sys.forcesLost = 0 then s2 else eventFree (det [(4, s.sys.forcesLost)]) (s2.modSys fun y => { y with forcesLost := 0 })

/-- Step 2: recovery of the store and of the event recorder, and what they restore. -/
def recoverAll (s : State) : State :=
  let s1 := restoreKey (noteDropped (recoverEvr (recoverStore s)))
  (rtcLoss (powerEvents (restoreModes (restoreMeter (restoreTimePage s1))))).modSys fun y => { y with step := 3 }

/-- A step of the sequence has failed: SAFE_TALK without its firmware part (R596). -/
def failStep (n : Nat) (s : State) : State :=
  let d := det [(1, n), (2, 0)]
  let s1 := s.modSys fun y => { y with failedStep := n }
  enterSafeTalk 9 (if s.evr.ready then event 0x0A02 d s1
    else traceGen 5 0 0xFFFF (fields [(2, 0x0A02), (2, 0), (8, d.toNat)]) s.clk.ct s1)

/-- Step 4: the boot loader chooses and loads the firmware (R619, R623). -/
def loadFirmware (s : State) : State :=
  let r := chooseFirmware s
  if r.1 then
    let s1 := r.2.modFwu fun u =>
      if (u.slots.get u.running).state == .trial then { u with trialAt := some s.clk.now, goodSince := some s.clk.now } else u
    s1.modSys fun y => { y with step := 5 }
  else failStep 4 r.2

/-- The restart record of the trace (R77, R85, R588). -/
def restartRecord (s : State) : State := traceGen 10 0 0 (fields [(4, s.sys.resetKind)]) s.clk.ct s

/-- Steps 1 to 4 in order; each begins only when the one before it has passed. -/
def powerUp (pairId fusesAgree storeOk marchOk : Bool) (s : State) : State :=
  let s1 := readFuses pairId fusesAgree (restartRecord s)
  if !storeOk then failStep 2 s1
  else
    let s2 := recoverAll s1
    if !marchOk then failStep 3 s2 else loadFirmware (s2.modSys fun y => { y with step := 4 })

/-- The release of the chip. -/
def releaseChip (s : State) : State := if s.sys.inReset then chipReset s.sys.nextKind s else s

/-- POWER_UP_RELEASE (R592, R639): also after a chip restart, where nothing holds the chip. -/
def execPowerUpRelease (pairId fusesAgree storeOk marchOk : Bool) (s : State) : Host.Outcome State Fault Refusal :=
  if !s.sys.vinPresent || s.sys.hotStop then ok s
  else
    let s1 := releaseChip s
    if s1.sys.step = 1 then ok (powerUp pairId fusesAgree storeOk marchOk s1) else ok s1

/-! ## The built-in self-test (R597, R598) -/

/-- A part fails, in the order of R597: 1 lanes, 2 and 3 DRAM, 4 feature registers, 5 comparator, 6 field die, 7 network. -/
def partFails (failed : List (Nat × Nat)) (part : Nat) : Bool := failed.any fun x => x.1 == part

/-- Every failure of the test, in the order of R597: those of the lanes, those named by part, and that of the comparator. -/
def bistFailures (failed : List (Nat × Nat)) (laneParts : Vector Byte 3) (pattern : Option (Fin 778)) : List (Nat × Nat) :=
  (((allFin 3).filter fun l => laneParts.get l != 0).map fun l => (1, l.val)) ++ (failed.filter fun x => decide (2 ≤ x.1) && decide (x.1 ≤ 4)) ++
    (if pattern.isSome then [(5, 0)] else []) ++ failed.filter fun x => decide (6 ≤ x.1) && decide (x.1 ≤ 7)

/-- The results of the lane self-tests (R280). -/
def laneResults (none_ : Bool) (laneParts : Vector Byte 3) (micros : W16) (s : State) : State :=
  s.modLanes fun v => Vector.ofFn fun l : Fin 3 =>
    let part := laneParts.get l
    { v.get l with
      state := if part != 0 then .failed else if none_ then .inService else .selfTest,
      testDone := true, testPass := part == 0, testPart := part, testMicros := micros }

/-- The results of the comparator (R296, R301) and of the field die: the barrier link is up and its first delay measured. -/
def blockResults (failed : List (Nat × Nat)) (pattern : Option (Fin 778)) (delay : Nat) (s : State) : State :=
  let s1 := injectTest pattern s
  if partFails failed 6 then s1
  else
    reportPoints allPoints (s1.modFio fun x =>
      { x with barrierOk := true, faulted := false, realigned := true, echoAt := s.clk.now, delay := BitVec.ofNat 16 (min 65535 delay) })

/-- Step 6 has ended. -/
def endSelfTest (millis : W16) (s : State) : State :=
  (s.modSys fun y =>
    { y with
      selfTestEnded := true, step := 8, bistMs := millis,
      totalMs := BitVec.ofNat 16 (min 65535 ((s.clk.now - y.releaseAt) / 1000000)) }).modPair fun p => { p with startAt := s.clk.now }

/-- Class 0x0A01: how start-up ended. -/
def startedEvent (how : Nat) (s : State) : State :=
  event 0x0A01 (det [(1, s.sys.resetKind), (1, how), (2, 0), (4, (s.clk.now - s.sys.releaseAt) / 1000000)]) s

/-- Step 7: a pair member waits, a module alone starts by itself or stays STOPPED (R217, R376, R592). -/
def afterSelfTest (s : State) : State :=
  let s1 := setMode 0 s
  let s2 := s1.modSys fun y => { y with run := .stopped }
  if pairMember s1 then startedEvent 2 s2
  else if s1.rwp.runCfg.getLsbD 0 then startedEvent 1 (s1.modSys fun y => { y with run := .starting, step := 7 })
  else startedEvent 0 s2

/-- A failed self-test: class 0x0A02 for each part, and SAFE_TALK. -/
def failSelfTest (failed : List (Nat × Nat)) (s : State) : State :=
  let s1 := failed.foldl (fun s x => event 0x0A02 (det [(1, 6), (1, x.1), (1, x.2)]) s) s
  enterSafeTalk (if partFails failed 4 then 2 else 1)
    (s1.modSys fun y => { y with failedStep := 6, failedPart := ((failed.map (·.1)).min?).getD 0 % 256 })

/-- BUILT_IN_SELF_TEST (R595, R597): step 6 of the sequence. -/
def execBuiltInSelfTest (failed : SelfTestFails) (laneMicros : W16) (delay : Nat) (millis : W16) (s : State) :
    Host.Outcome State Fault Refusal :=
  let bad := bistFailures failed.blocks failed.laneParts failed.pattern
  if s.sys.step ≠ 6 ∨ s.sys.inReset then ok s
  else
    let s1 := endSelfTest millis (blockResults bad failed.pattern delay (laneResults bad.isEmpty failed.laneParts laneMicros s))
    if !bad.isEmpty then ok (failSelfTest bad s1)
    else if s.fuse.fault then ok (enterSafeTalk 10 s1)
    else ok (afterSelfTest s1)

/-! ## Restarts (R589, R596, R604, R605) -/

/-- A restart is asked for: it is performed within 25 ms, at an instant that is a free value (R604). -/
def requestRestart (kind : Nat) (s : State) : State :=
  let f := freeValue s
  f.2.modSys fun y => { y with restart := some { kind := kind, at_ := s.clk.now + f.1.toNat % 25000001 } }

/-- A restart waits for a committed transaction and for a program switch (R605). -/
def restartHeld (s : State) : Bool := s.txn.phase == .committed || s.prg.sw.isSome

/-- The restart that is due is performed. -/
def dueRestart (s : State) : State :=
  match s.sys.restart with
  | some r => if r.at_ ≤ s.clk.now ∧ !restartHeld s then chipRestart r.kind s else s
  | none => s

/-- What happens while no command waits: time passes, the edges lost in the last 100 µs are recorded (R476), the lane control copies for
lanes that are being resynchronised (R282), a join goes on (R377), what waits for gate time leaves (R334, R335), the events of the
metering unit go to the recorder (R55), and a restart that is due is performed (log entry 1). -/
def idle (s : State) : State := dueRestart (meterTick (joinTick (resyncTick (gateTick (rollEdges (tick s))))))

/-- SYS_RESTART: BAD_STATE while a restart is under way (R608). -/
def doSysRestart (_ : Outst) (s : State) : State × Work :=
  if s.sys.restart.isSome then (s, .finish (doneWith stBadState 0))
  else (requestRestart 5 (event 0x0A06 (det [(1, s.sys.run.code)]) s), .finish (doneOk []))

/-- SYS_RESTART (R604). -/
def execSysRestart (q : RingId) (s : State) : Host.Outcome State Fault Refusal := ok (serve q 0x86 s doSysRestart)

/-- A write to SYS_CMD, served only while SYS_SAFE.CAUSE is 9 (R596). -/
def writeSysCmd (w : W32) (s : State) : State :=
  if s.sys.safeCause = 9 ∧ w = 0x5A5AA5A5#32 ∧ s.sys.restart.isNone then requestRestart 5 s else s

/-- SYS_CMD_RESTART (R596). -/
def execSysCmdRestart (w : W32) (s : State) : Host.Outcome State Fault Refusal := ok (writeSysCmd w s)

/-- SYS_START_INFO: everything at one instant. -/
def doStartInfo (_ : Outst) (s : State) : State × Work :=
  (s, .finish (doneOk (fields [(4, sysStart s), (4, s.sys.safeCause), (8, s.sys.safeCt), (8, opTicks s), (4, s.sys.pcycles.toNat), (4, sysStartMs s),
    (4, fuseStatus s), (4, glbOption s)])))

/-- SYS_START_INFO (R606). -/
def execSysStartInfo (q : RingId) (s : State) : Host.Outcome State Fault Refusal := ok (serve q 0x85 s doStartInfo)

/-! ## Fuses (R609, R637) -/

/-- The field is neither programmed nor about to be. -/
def fuseFree (s : State) (field : Nat) : Bool :=
  if field = 1 then s.fuse.wdg.isNone && s.fuse.pendingWdg.isNone else s.fuse.ident.isNone && s.fuse.pendingIdent.isNone

/-- Program a field; it takes effect at the next power-on or external reset. -/
def programFuse (d : Desc) (f : Fuse) : Fuse :=
  if d.par 24 1 = 1 then
    { f with pendingWdg := some { hw := d.par 25 1 == 1, opening := BitVec.ofNat 3 (d.par 26 1), n := BitVec.ofNat 3 (d.par 27 1) } }
  else { f with pendingIdent := some (BitVec.ofNat 64 (d.par 32 8)) }

/-- FUSE_PROGRAM: in STOPPED or SAFE_TALK, with VPP_FUSE within its range. -/
def doFuseProgram (vpp : Bool) (e : Outst) (s : State) : State × Work :=
  let field := e.desc.par 24 1
  if !(s.sys.run == .stopped || s.sys.run == .safeTalk) || !fuseFree s field || !vpp then (s, .finish (doneWith stBadState 0))
  else (event 0x0A08 (det [(1, field)]) (s.modFuse (programFuse e.desc)), .finish (doneOk []))

/-- FUSE_PROGRAM (R609). -/
def execFuseProgram (q : RingId) (vpp : Bool) (s : State) : Host.Outcome State Fault Refusal := ok (serve q 0x87 s (doFuseProgram vpp))

end Sys2Proof.Machine
end

