-- ==== Sys2Proof/Machine/Firmware.lean ====
section
/-! DEFINITION. Firmware update: transfer, verification, activation, the service pause, confirmation and fallback (R611 to R630). -/

namespace Sys2Proof.Machine

/-- A firmware descriptor is served: the idle time of a transfer begins anew (R617). -/
def touchFwu (s : State) : State := s.modFwu fun u => { u with lastOpAt := s.clk.now }

/-- Serve a firmware descriptor. -/
def serveFwu (q : RingId) (op : Nat) (s : State) (f : Outst → State → State × Work) : State := serve q op s fun e s => f e (touchFwu s)

/-- A trial runs (R613, R622). -/
def trialRuns (s : State) : Bool := s.fwu.trialAt.isSome || (slotIn s .trial).isSome

/-! ## Writing an update (R614 to R617) -/

/-- The slot that a transfer may use: neither CONFIRMED nor TRIAL. -/
def targetSlot (s : State) : Option (Fin 2) :=
  (allFin 2).find? fun i => (fwSlot s i).state != .confirmed && (fwSlot s i).state != .trial

/-- FWU_BEGIN (R614). -/
def doFwuBegin (e : Outst) (s : State) : State × Work :=
  if s.fwu.transfer.isSome || trialRuns s then (s, .finish (doneWith stBadState 0))
  else
    match targetSlot s with
    | none => (s, .finish (doneWith stBadState 0))
    | some i =>
      let c := checkPwd 1 true (slice e.desc.param 16 16) s
      if c.1 then
        let n := e.desc.par 24 4
        let s1 := modSlot i (fun _ => { state := .receiving, version := 0, svn := 0, tries := 0, total := n, good := false }) c.2
        (event 0x0B01 (det [(1, i.val), (3, 0), (4, n)]) (s1.modFwu fun u => { u with transfer := some i, next := 0 }),
          .finish (doneOk (fields [(1, i.val)])))
      else (c.2, .finish (doneWith stAccessDenied 0))

/-- FWU_BEGIN. -/
def execFwuBegin (q : RingId) (s : State) : Host.Outcome State Fault Refusal := ok (serveFwu q 0x70 s doFwuBegin)

/-- The blocks of an image of a length. -/
def blocksOf (total : Nat) : Nat := (total + 4095) / 4096

/-- The most bytes of an image (R611). -/
def maxImage : Nat := 2093056

/-- Queue the sixteen pages of a block. -/
def queueBlock (q : RingId) (num : Nat) (i : Fin 2) (index : Nat) (bs : List Byte) (s : State) : State :=
  (List.range 16).foldl (fun s k =>
    queuePage 6 (fwPage i + 16 * index + k) (slice bs (256 * k) 256) (.fwuBlock q num (decide (k = 15))) s) s

/-- FWU_BLOCK (R615): the CRC of every block is checked on arrival. -/
def doFwuBlock (q : RingId) (dma : List Byte) (e : Outst) (s : State) : State × Work :=
  match s.fwu.transfer with
  | none => (s, .finish (doneWith stBadState 0))
  | some i =>
    let bs := bufRead e.desc dma s
    let k := e.desc.par 24 4
    if (crc32c bs).toNat ≠ e.desc.par 28 4 then (s, .finish (doneRefused 0x70 0 0 0))
    else if k + 1 = s.fwu.next then (s, .finish (doneOk (fields [(4, s.fwu.next)])))
    else if k = s.fwu.next ∧ k < blocksOf (min maxImage (fwSlot s i).total) then (queueBlock q e.num i k bs s, .wait e.bound)
    else (s, .finish (doneWith stBadState 0))

/-- FWU_BLOCK. -/
def execFwuBlock (q : RingId) (dma : List Byte) (s : State) : Host.Outcome State Fault Refusal := ok (serveFwu q 0x71 s (doFwuBlock q dma))

/-- Reason 0x71: the header of an image, or a missing block (R616). -/
def badFirmware (total next : Nat) (bs : List Byte) : Bool :=
  rd bs 0 4 != 0x5746564E || rd bs 4 2 != 1 || rd bs 60 4 != (crc32c (bs.take 60)).toNat || rd bs 16 4 % 16 != 0 ||
    rd bs 20 4 != 64 + rd bs 16 4 + 144 || rd bs 20 4 != total || decide (maxImage < total) || decide (next < blocksOf total)

/-- The first reason of R616 that refuses an image, read back from the store; `none` for a good one. -/
def verifyReason (s : State) (total : Nat) (bs : List Byte) : Option Nat :=
  if badFirmware total s.fwu.next bs then some 0x71
  else if s.fuse.stepping.toNat < rd bs 24 1 then some 0x72
  else if sha384 (bs.take (total - 144)) ≠ slice bs (total - 144) 48 then some 0x73
  else if !p384Verify Config.firmwareKey (slice bs (total - 144) 48) (slice bs (total - 96) 96) then some 0x74
  else if rd bs 12 4 < s.fwu.svnMin.toNat then some 0x75
  else none

/-- The transfer ends with its slot in a state. -/
def closeTransfer (i : Fin 2) (f : FwSlot → FwSlot) (s : State) : State :=
  (modSlot i f s).modFwu fun u => { u with transfer := none, next := 0 }

/-- FWU_VERIFY (R616): a slot that cannot be read back does not match its digest. -/
def doFwuVerify (_ : Outst) (s : State) : State × Work :=
  match s.fwu.transfer with
  | none => (s, .finish (doneWith stBadState 0))
  | some i =>
    let total := (fwSlot s i).total
    let r := readPages (fwPage i) ((min maxImage total + 255) / 256) s
    let bs := (r.1.map fun b => b.take total).getD []
    let why := if r.1.isNone then some 0x73 else verifyReason s total bs
    let s1 := event 0x0B02 (det [(1, i.val), (1, why.getD 0)]) r.2
    match why with
    | some n =>
      (closeTransfer i (fun x => { x with state := .empty }) s1, .finish (doneRefused n 0 0 0))
    | none =>
      (closeTransfer i (fun x =>
          { x with state := .verified, version := BitVec.ofNat 32 (rd bs 8 4), svn := BitVec.ofNat 32 (rd bs 12 4), good := true }) s1,
        .finish (doneOk (fields [(1, i.val), (3, 0), (4, rd bs 8 4), (4, rd bs 12 4)])))

/-- FWU_VERIFY. -/
def execFwuVerify (q : RingId) (s : State) : Host.Outcome State Fault Refusal := ok (serveFwu q 0x72 s doFwuVerify)

/-- FWU_ABORT (R617): BAD_STATE where no transfer is open. -/
def doFwuAbort (_ : Outst) (s : State) : State × Work :=
  if s.fwu.transfer.isSome then (abandonTransfer 1 s, .finish (doneOk [])) else (s, .finish (doneWith stBadState 0))

/-- FWU_ABORT. -/
def execFwuAbort (q : RingId) (s : State) : Host.Outcome State Fault Refusal := ok (serveFwu q 0x75 s doFwuAbort)

/-- FWU_IDLE_TIMEOUT (R617): 600 s without a firmware descriptor. -/
def execFwuIdleTimeout (s : State) : Host.Outcome State Fault Refusal :=
  if s.fwu.transfer.isSome && decide (s.fwu.lastOpAt + 600000000000 ≤ s.clk.now) then ok (abandonTransfer 2 s) else ok s

/-! ## Activation and the service pause (R618 to R621, R626) -/

/-- A switch window is open (R239). -/
def windowOpen (s : State) : Bool :=
  match s.prg.sw with
  | some w => decide (w.x ≤ s.clk.ct + w.w)
  | none => false

/-- FWU_ACTIVATE is refused in the present state (R618). -/
def activateBarred (s : State) : Bool :=
  trialRuns s || s.fwu.transfer.isSome || mirrors s || windowOpen s || (s.txn.phase == .committed && decide (s.txn.x ≤ s.clk.ct + 300000000))

/-- The slot may be activated. -/
def activatable (s : State) (i : Fin 2) : Bool :=
  let x := fwSlot s i
  x.state == .verified || (x.state == .previous && decide (s.fwu.svnMin.toNat ≤ x.svn.toNat))

/-- FWU_ACTIVATE (R618, R619, R626): in SAFE_TALK a firmware chip restart; else the service pause begins with
SERVICE_PAUSE_START, and a synchronised standby is detached first. -/
def doFwuActivate (q : RingId) (e : Outst) (s : State) : State × Work :=
  match fin? 2 (e.desc.par 24 1) with
  | none => (s, .finish (doneWith stNotFound 0))
  | some i =>
    if activateBarred s || !activatable s i then (s, .finish (doneWith stBadState 0))
    else if s.sys.run = .safeTalk then
      (requestRestart 6 (modSlot i (fun x => { x with state := .trial, tries := 0 }) s), .finish (doneOk (fields [(4, 0)])))
    else
      let synced := s.pair.state == .standbySynced && pairMember s
      let s1 := if synced then detach true s else s
      (s1.modFwu fun u => { u with activating := some ((q, e.num), i), joinAfter := synced }, .wait e.bound)

/-- FWU_ACTIVATE. -/
def execFwuActivate (q : RingId) (s : State) : Host.Outcome State Fault Refusal := ok (serveFwu q 0x73 s (doFwuActivate q))

/-- A pause into a slot begins; the slot of an activation is on trial from here on, so that a loss of power falls back (R627). -/
def beginPause (i : Fin 2) (fallback : Bool) (s : State) : State :=
  let s1 := if fallback then s else modSlot i (fun x => { x with state := .trial, tries := 1 }) s
  s1.modFwu fun u => { u with pauseSlot := some i, pauseAt := s.clk.now, fallback := fallback }

/-- SERVICE_PAUSE_START (R619): once an activation has been accepted. -/
def execServicePauseStart (s : State) : Host.Outcome State Fault Refusal :=
  match s.fwu.activating with
  | some (_, i) => if s.fwu.pausing then ok s else ok (beginPause i false s)
  | none => ok s

/-- The new firmware runs on trial from the end of the pause. -/
def beginTrial (i : Fin 2) (s : State) : State :=
  startPeriod (s.modFwu fun u => { u with running := i, trialAt := some s.clk.now, goodSince := some s.clk.now, hostConfirm := false })

/-- The boot loader restarts the CONFIRMED firmware, and the named slot is EMPTY (R619). -/
def abandonActivation (i : Fin 2) (s : State) : State :=
  startPeriod ((modSlot i (fun x => { x with state := .empty, good := false }) s).modFwu fun u => { u with joinAfter := false })

/-- The fallback firmware runs: it is CONFIRMED, and the trial slot FAILED (R625). -/
def endFallback (i : Fin 2) (intact : Bool) (s : State) : State :=
  let s1 := failTrial (otherSlot i) 1 s
  if intact then startPeriod ((modSlot i (fun x => { x with state := .confirmed }) s1).modFwu fun u => { u with running := i })
  else serviceRestart (modSlot i (fun x => { x with state := .empty, good := false }) s1)

/-- What the pause leaves behind. -/
def pauseResult (i : Fin 2) (intact : Bool) (s : State) : State :=
  if s.fwu.fallback then endFallback i intact s else if intact then beginTrial i s else abandonActivation i s

/-- The descriptor of the activation completes with the duration of the pause. -/
def endActivate (intact : Bool) (us : Nat) (s : State) : State :=
  match s.fwu.activating with
  | some ((q, n), _) =>
    endDesc q n (if intact then doneOk (fields [(4, us)]) else doneRefused 0x73 0 0 0) (s.modFwu fun u => { u with activating := none })
  | none => s

/-- SERVICE_PAUSE_END (R619, R621, R627): the lane decisions that waited follow. -/
def execServicePauseEnd (intact : Bool) (s : State) : Host.Outcome State Fault Refusal :=
  match s.fwu.pauseSlot with
  | none => ok s
  | some i =>
    let us := (s.clk.now - s.fwu.pauseAt) / 1000
    let s1 := pauseResult i intact s
    let s2 := s1.modFwu fun u => { u with pauseSlot := none, fallback := false, pauseMs := BitVec.ofNat 16 (min 65535 (us / 1000)) }
    ok (decideNow (endActivate intact us (event 0x0B05 (det [(1, i.val), (3, 0), (4, us)]) s2)))

/-! ## Confirmation and fallback (R622, R625) -/

/-- FWU_CONFIRM (R622, R627). -/
def doFwuConfirm (_ : Outst) (s : State) : State × Work :=
  if s.fwu.trialAt.isSome then (s.modFwu fun u => { u with hostConfirm := u.hostConfirm || s.rwp.fwuCfg.getLsbD 0 }, .finish (doneOk []))
  else if (slotIn s .failed).isSome || s.rwp.fwuCfg.getLsbD 0 then (s, .finish (doneWith stBadState 0))
  else (s, .finish (doneOk []))

/-- FWU_CONFIRM. -/
def execFwuConfirm (q : RingId) (s : State) : Host.Outcome State Fault Refusal := ok (serveFwu q 0x74 s doFwuConfirm)

/-- A minute in ns: the time in which a trial is to be confirmed. -/
def trialNs : Nat := 60000000000

/-- The conditions of confirmation, its own checks apart (R622). -/
def mayConfirm (s : State) : Bool :=
  !s.fwu.pausing &&
    match s.fwu.trialAt, s.fwu.goodSince with
    | some t, some g =>
      decide (s.clk.now ≤ t + trialNs) && decide (g + 10000000000 ≤ s.clk.now) && (!s.rwp.fwuCfg.getLsbD 0 || s.fwu.hostConfirm)
    | _, _ => false

/-- The trial slot is CONFIRMED, the other one PREVIOUS unless it is EMPTY, and a standby joins again (R622, R626). -/
def confirmTrial (s : State) : State :=
  let i := s.fwu.running
  let x := fwSlot s i
  let s1 := modSlot (otherSlot i) (fun y => if y.state == .empty then y else { y with state := .previous })
    (modSlot i (fun y => { y with state := .confirmed }) s)
  let s2 := s1.modFwu fun u =>
    { u with trialAt := none, goodSince := none, hostConfirm := false, joinAfter := false, svnMin := if u.svnMin.toNat < x.svn.toNat then x.svn else u.svnMin }
  let s3 := if s.fwu.joinAfter then s2.modPair fun p => { p with fixed := false } else s2
  event 0x0B06 (det [(1, i.val), (3, 0), (4, x.version.toNat)]) s3

/-- FIRMWARE_CONFIRMED (R622). -/
def execFirmwareConfirmed (s : State) : Host.Outcome State Fault Refusal := if mayConfirm s then ok (confirmTrial s) else ok s

/-- The trial has failed by its time: a fallback pause, or step 2 of the ladder where there is no firmware to fall back to
(R625). -/
def fallBack (s : State) : State :=
  let i := s.fwu.running
  if fallbackSlot s (otherSlot i) then beginPause (otherSlot i) true s else stepTwo (failTrial i 1 s)

/-- FIRMWARE_TRIAL_TIMEOUT (R625). -/
def execFirmwareTrialTimeout (s : State) : Host.Outcome State Fault Refusal :=
  match s.fwu.trialAt with
  | some t => if !s.fwu.pausing && decide (t + trialNs ≤ s.clk.now) then ok (fallBack s) else ok s
  | none => ok s

/-! ## Registers (R628) -/

/-- FWU_STATUS as a word. -/
def fwuStatus (s : State) : Nat :=
  s.fwu.running.val + 8 * bit s.fwu.transfer.isSome + 16 * bit s.fwu.pausing + 65536 * (s.fwu.next % 65536)

/-- FWU_SLOT0 or FWU_SLOT1 as a word. -/
def fwuSlotWord (s : State) (i : Fin 2) : Nat :=
  let x := fwSlot s i
  x.version.toNat / 256 * 256 + 8 * x.tries + x.state.code

/-- FWU_TRIAL as a word: the seconds left are rounded down. -/
def fwuTrial (s : State) : Nat :=
  s.fwu.pauseMs.toNat * 65536 + ((s.fwu.trialAt.map fun t => (t + trialNs - s.clk.now) / 1000000000).getD 0)

/-- FWU_STATUS_READ. -/
def doFwuStatus (_ : Outst) (s : State) : State × Work :=
  (s, .finish (doneOk (fields [(4, fwuStatus s), (4, fwuSlotWord s 0), (4, fwuSlotWord s 1), (4, fwuTrial s)])))

/-- FWU_STATUS_READ (R628). -/
def execFwuStatusRead (q : RingId) (s : State) : Host.Outcome State Fault Refusal := ok (serveFwu q 0x76 s doFwuStatus)

end Sys2Proof.Machine
end

