-- ==== Sys2Proof/Machine/MeterCmds.lean ====
section
/-! DEFINITION. The saves of the metering unit, its registers and its descriptors (R495, R497, R498, R504, R505). -/

namespace Sys2Proof.Machine

/-! ## The save (R497, R498) -/

/-- The body of a save page (R498). -/
def savePage (saves : W32) (s : State) : List Byte :=
  let ps := (allFin 8).map (pointOf s)
  let bitsOfPoints (f : MeterPoint → Bool) : Nat := ((allFin 8).map fun i => if f (pointOf s i) then 2 ^ i.val else 0).sum
  let b := fields [(8, s.clk.ct / 1000000000 * 1000000000), (8, opTicks s), (4, saves.toNat), (1, bitsOfPoints MeterPoint.selAbs),
      (1, bitsOfPoints MeterPoint.on), (2, 0)] ++
    (ps.flatMap fun p => fields [(8, p.impMj), (8, p.expMj), (8, signedNat 64 p.selMj)]) ++
    (ps.flatMap fun p => leBytes 4 (p.vFs * p.iFs)) ++ leBytes 4 0
  b ++ leBytes 4 (crc32c b).toNat

/-- A save that is not completed within 1 ms is skipped. -/
def skipSave (s : State) : State := s.modMtr fun m => { m with skipped := satInc m.skipped 1 }

/-- Write the capture to the page that does not hold the latest completed save, of which `fails` comparisons fail. -/
def writeSave (fails : Nat) (s : State) : State :=
  let n := s.mtr.saves + 1
  let page := !s.mtr.page
  let w := writePage (mtrPage page) (savePage n s) 0 0 fails s
  if w.1 then w.2.modMtr fun m => { m with saves := n, page := page } else skipSave w.2

/-- ENERGY_SAVE (R497): at each whole second of chip time, after the end of the interval that ends there. -/
def execEnergySave (fails : Fin 3) (inTime : Bool) (s : State) : Host.Outcome State Fault Refusal :=
  let sec := s.clk.ct / 1000000000
  if !s.mtr.begun || sec = s.mtr.savedSec || s.sys.inReset then ok s
  else
    let s1 := s.modMtr fun m => { m with savedSec := sec }
    if inTime && firmwareRuns s && s.pst.ready then ok (writeSave fails.val s1) else ok (skipSave s1)

/-! ## Registers -/

/-- MTR_Pp_STATUS as a word. -/
def mtrStatus (p : MeterPoint) : Nat :=
  bit p.vLost + 2 * bit p.iLost + 4 * bit p.vClipLast + 8 * bit p.iClipLast + 32 * bit p.noload + 64 * bit p.harmInvalid + 256 * bit p.zcLost +
    512 * bit p.saturated + 1024 * bit p.sag.isSome + 2048 * bit p.swell.isSome + 4096 * bit p.interruption.isSome + 65536 * p.lostInt.toNat

/-- A register of a metering point by its relative offset, but for those with RWS and RWP fields. -/
def mtrPointWord (p : MeterPoint) (off : Nat) : Nat :=
  match off with
  | 0x20 => p.vRms.toNat
  | 0x24 => p.iRms.toNat
  | 0x28 => p.power.toNat
  | 0x2C => p.freq.toNat
  | 0x30 => p.thdV.toNat * 65536 + p.thdI.toNat
  | 0x34 => p.roll.toNat
  | 0x38 => mtrStatus p
  | 0x40 => p.impMj % 4294967296
  | 0x44 => p.impMj / 4294967296
  | 0x48 => p.expMj % 4294967296
  | 0x4C => p.expMj / 4294967296
  | 0x50 => signedNat 64 p.selMj % 4294967296
  | 0x54 => signedNat 64 p.selMj / 4294967296
  | _ => 0

/-! ## Descriptors (R504) -/

/-- The 64-byte record of a point. -/
def mtrRecord (p : MeterPoint) : List Byte :=
  fields [(8, p.ct), (8, p.impMj), (8, p.expMj), (8, signedNat 64 p.selMj), (4, p.roll.toNat), (4, p.power.toNat), (4, p.vRms.toNat),
    (4, p.iRms.toNat), (4, p.freq.toNat), (2, p.thdV.toNat), (2, p.thdI.toNat), (4, mtrStatus p), (4, 0)]

/-- MTR_READ: nothing is copied where the buffer is too small. -/
def doMtrRead (e : Outst) (s : State) : State × Work :=
  if e.desc.len < 512 then (s, .finish (doneWith stNoSpace 0))
  else (bufWrite e.desc 0 ((allFin 8).flatMap fun i => mtrRecord (pointOf s i)) s, .finish (doneOk []))

/-- MTR_READ (R504). -/
def execMtrRead (q : RingId) (s : State) : Host.Outcome State Fault Refusal := ok (serve q 0x90 s doMtrRead)

/-- The 520 bytes of the last valid window of a point; zeros where there was none. -/
def harmBytes (p : MeterPoint) : List Byte :=
  fitTo 520 (fields [(8, p.harmCt), (8, 0)] ++ p.harm.flatMap fun x => fields [(4, x.1), (4, x.2)])

/-- MTR_HARM: nothing is copied where the buffer is too small. -/
def doMtrHarm (e : Outst) (s : State) : State × Work :=
  match fin? 8 (e.desc.par 24 1) with
  | none => (s, .finish (doneWith stBadDescriptor 24))
  | some i =>
    if e.desc.len < 520 then (s, .finish (doneWith stNoSpace 0))
    else (bufWrite e.desc 0 (harmBytes (pointOf s i)) s, .finish (doneOk []))

/-- MTR_HARM (R504). -/
def execMtrHarm (q : RingId) (s : State) : Host.Outcome State Fault Refusal := ok (serve q 0x91 s doMtrHarm)

/-- MTR_PRESET (R504, R505): it waits for the next interval boundary. -/
def doMtrPreset (q : RingId) (dma : List Byte) (e : Outst) (s : State) : State × Work :=
  match fin? 8 (e.desc.par 24 1) with
  | none => (s, .finish (doneWith stBadDescriptor 24))
  | some i =>
    let c := checkPwd 2 true (slice (bufRead e.desc dma s) 0 16) s
    if !c.1 then (c.2, .finish (doneWith stAccessDenied 0))
    else
      let x : MtrPreset :=
        { ring := q, num := e.num, imp := e.desc.par 32 8, exp := e.desc.par 40 8, sel := (BitVec.ofNat 64 (e.desc.par 48 8)).toInt }
      (leaveService q e.num (modPoint i (fun p => { p with presets := p.presets ++ [x] }) c.2), .wait e.bound)

/-- MTR_PRESET. -/
def execMtrPreset (q : RingId) (dma : List Byte) (s : State) : Host.Outcome State Fault Refusal := ok (serve q 0x92 s (doMtrPreset q dma))

end Sys2Proof.Machine
end

