-- ==== Sys2Proof/Machine/Registers.lean ====
section
/-! DEFINITION. BAR0: what a read of each register returns, and what a write does (R5, R8 to R13, R46, R123, R602). -/

namespace Sys2Proof.Machine

/-! ## Words of the blocks (R8, R10) -/

/-- A count of 64 bits as its low or its high word. -/
def half64 (hi : Bool) (n : Nat) : Nat := if hi then n / 4294967296 % 4294967296 else n % 4294967296

/-- A flag of each of the first `n` things, bit by bit. -/
def flagBits (n : Nat) (f : Nat → Bool) : Nat := ((List.range n).map fun i => bit (f i) * 2 ^ i).sum

/-- GLB. -/
def glbWord (s : State) (off : Nat) : Nat :=
  if off = 0 then glbId s
  else if off = 4 then glbOption s
  else if off = 8 then half64 false s.fuse.serial.toNat
  else if off = 12 then half64 true s.fuse.serial.toNat
  else if 0x40 ≤ off ∧ off < 0x60 then (featWord ((off - 0x40) / 4)).toNat
  else 0

/-- SYS. -/
def sysWord (s : State) (off : Nat) : Nat :=
  if off = 0x1000 then sysStart s
  else if off = 0x1004 then s.sys.safeCause
  else if off = 0x1008 then half64 false s.sys.safeCt
  else if off = 0x100C then half64 true s.sys.safeCt
  else if off = 0x1010 then half64 false (opTicks s)
  else if off = 0x1014 then half64 true (opTicks s)
  else if off = 0x1018 then s.sys.pcycles.toNat
  else if off = 0x101C then sysStartMs s
  else if off = 0x1044 then runWord s
  else if off = 0x1048 then
    ((activeBank s).map fun b => b.val).getD 0 * 256 + bit s.prg.key.isSome * 128 + (bankOf s 1).state.code * 16 + (bankOf s 0).state.code
  else if off = 0x104C then half64 false (bankId s 0)
  else if off = 0x1050 then half64 true (bankId s 0)
  else if off = 0x1054 then half64 false (bankId s 1)
  else if off = 0x1058 then half64 true (bankId s 1)
  else if off = 0x105C then half64 false s.prg.lastX
  else if off = 0x1060 then half64 true s.prg.lastX
  else if off = 0x1064 then s.prg.switches.toNat * 65536 + s.prg.failed.toNat * 256 + min 255 s.prg.dropped.length
  else 0

/-- FUSE. -/
def fuseWord (s : State) (off : Nat) : Nat :=
  let n := (s.fuse.ident.getD 0).toNat
  if off = 0x2000 then fuseStatus s
  else if off = 0x2004 then half64 false n
  else if off = 0x2008 then half64 true n
  else 0

/-- TIM, but for its RWS and RWP registers. TIM_OFFSET and TIM_RATE are signed. -/
def timWord (s : State) (off : Nat) : Nat :=
  if off = 0x4000 then half64 false s.clk.ct
  else if off = 0x4004 then half64 true s.clk.ct
  else if off = 0x4008 then timStatus s
  else if off = 0x4010 then signedNat 32 s.tim.offset
  else if off = 0x4014 then signedNat 32 s.tim.rate
  else 0

/-- RTC, as the host sees it (R556), but for its RWP fields. -/
def rtcWord (s : State) (off : Nat) : Nat :=
  if off = 0x6000 then rtcTicks s
  else if off = 0x6004 then (rtcDateSeen s (requester false)).toNat
  else if off = 0x6008 then (rtcTimeSeen s (requester false)).toNat
  else if off = 0x600C then bit s.rtc.halt
  else if off = 0x6010 then rtcStatus s.rtc
  else if off = 0x6014 then s.rtc.almDate.toNat
  else if off = 0x6018 then s.rtc.almTime.toNat
  else if off = 0x601C then bit s.rtc.arm + 2 * bit s.rtc.fired + 4 * bit s.rtc.skipped
  else if off = 0x6024 then rtcComp s.rtc
  else 0

/-- The window of the system channel is open now (R574, R575). -/
def wdgOpen (s : State) : Bool := s.wdg.running && decide (wdgOpening s ≤ wdgElapsed s) && decide (wdgElapsed s < s.wdg.len)

/-- WDG, but for its RWS and RWP registers. -/
def wdgWord (s : State) (off : Nat) : Nat :=
  let w := fuseWdg s
  if off = 0x7004 then s.wdg.lastStep * 256 + bit (wdgOpen s) * 4 + bit s.wdg.start * 2 + bit s.wdg.running
  else if off = 0x7008 then s.wdg.question.toNat
  else if off = 0x700C then s.wdg.answer.toNat
  else if off = 0x7010 then bit w.hw * 256 + w.n.toNat * 16 + w.opening.toNat
  else if off = 0x7014 then s.wdg.step1Count.toNat * 65536 + min 7 (liveStamps s).length
  else if off = 0x7018 then (if s.wdg.running then s.wdg.len - wdgElapsed s else 0)
  else if 0x7040 ≤ off ∧ off < 0x7060 then (s.wdg.faults.get (finOr ((off - 0x7040) / 4))).toNat
  else 0

/-- A register of ring pair `q` by its relative offset; RESET reads 0. -/
def rpWord (s : State) (q : RingId) (off : Nat) : Nat :=
  let r := ringPair s q
  if off = 0x00 then half64 false r.sqBase.toNat / 4096 * 4096
  else if off = 0x04 then half64 true r.sqBase.toNat
  else if off = 0x08 then half64 false r.cqBase.toNat / 4096 * 4096
  else if off = 0x0C then half64 true r.cqBase.toNat
  else if off = 0x10 then
    bit r.enable * 2147483648 + r.sqLog2.toNat * 16777216 + r.cqLog2.toNat * 1048576 + r.prio.toNat * 65536 + r.vector.toNat * 256
  else if off = 0x14 then r.coalUs.toNat * 65536 + r.coalCount.toNat
  else if off = 0x18 then rpState s q
  else if off = 0x1C then rpCount s q
  else 0

/-- A word of an MSI-X table entry: address, upper address, data, and the mask bit (R404, log entry 43). -/
def msixWord (e : MsixEntry) (k : Nat) : Nat :=
  match k with
  | 0 => half64 false e.addr.toNat
  | 1 => half64 true e.addr.toNat
  | 2 => e.data.toNat
  | _ => bit e.masked

/-- HIF with the MSI-X table and its pending bits. -/
def hifWord (s : State) (off : Nat) : Nat :=
  let h := s.hif
  if off = 0x8000 then h.dmaTimeout.toNat
  else if off = 0x8004 then h.width.toNat * 4096 + h.rate.toNat * 256 + bit h.d3 * 2 + bit h.bme
  else if off = 0x8008 then h.cause.toNat
  else if off = 0x800C then h.errDma.toNat * 65536 + h.errBad.toNat
  else if 0x8400 ≤ off ∧ off < 0x8C00 then rpWord s (finOr ((off - 0x8400) / 64)) (off % 64)
  else if 0xA000 ≤ off ∧ off < 0xA400 then msixWord (h.msix.get (finOr ((off - 0xA000) / 16))) (off % 16 / 4)
  else if 0xB000 ≤ off ∧ off < 0xB008 then flagBits 32 fun i => (h.msix.get (finOr ((off - 0xB000) * 8 + i))).pending
  else 0

/-- CFG. -/
def cfgWord (s : State) (off : Nat) : Nat :=
  let t := s.txn
  if off = 0xC000 then t.num.toNat * 16777216 + t.owner.val * 65536 + stagedKinds s * 256 + t.phase.code
  else if off = 0xC004 then half64 false t.xReg
  else if off = 0xC008 then half64 true t.xReg
  else if off = 0xC00C then t.lastReason.toNat * 65536 + t.lastStatus.toNat * 256 + t.lastTxn.toNat
  else if off = 0xC010 then bit t.saved
  else 0

/-- NET, but for its RWS registers. -/
def netWord (s : State) (off : Nat) : Nat :=
  if off = 0x20008 then half64 false s.fuse.mac.toNat
  else if off = 0x2000C then half64 true s.fuse.mac.toNat
  else if 0x20100 ≤ off ∧ off < 0x20128 then portWord s (finOr ((off - 0x20100) / 4))
  else if 0x21000 ≤ off ∧ off < 0x25000 then ringWord s (finOr ((off - 0x21000) / 4096)) (off % 4096)
  else 0

/-- FIO_STATUS. A group's sag levels stay set while it restores (R470). -/
def fioStatus (s : State) : Nat :=
  let g := fun i => s.fio.groups.get (finOr i)
  flagBits 4 (fun i => (g i).overload) * 4096 + flagBits 4 (fun i => (g i).sag2) * 256 + flagBits 4 (fun i => (g i).sag1 || (g i).sag2) * 16 +
    bit s.fio.setup * 4 + bit s.fio.safe * 2 + bit s.fio.barrierOk

/-- FIO_CHn_CFG. -/
def chanCfgWord (c : ChanCfg) : Nat :=
  c.debounce * 65536 + c.safe * 256 + bit c.wiredOr * 32 + bit c.wireBreak * 16 + bit c.pulsed * 8 + c.mode

/-- FIO. -/
def fioWord (s : State) (off : Nat) : Nat :=
  let f := s.fio
  let c := fun i => f.chans.get (finOr i)
  if off = 0x40000 then fioStatus s
  else if off = 0x40004 then flagBits 32 fun i => (c i).cfg.input && (c i).state
  else if off = 0x40008 then flagBits 32 fun i => (c i).on
  else if off = 0x4000C then flagBits 32 fun i => (c i).cfg.mode == 4 && (c i).readback
  else if off = 0x40010 then f.timeout
  else if off = 0x40014 then f.errors.toNat * 65536 + f.delay.toNat
  else if off = 0x40018 then f.edgesLost.toNat
  else if 0x40020 ≤ off ∧ off < 0x40030 then
    let g := f.groups.get (finOr ((off - 0x40020) / 4))
    g.ma.toNat * 65536 + g.mv.toNat
  else if 0x40100 ≤ off ∧ off < 0x40180 then
    let x := c ((off - 0x40100) / 4)
    x.shutdowns.toNat * 65536 + x.latched.toNat * 256 + x.diag.toNat
  else if 0x40200 ≤ off ∧ off < 0x40280 then chanCfgWord (c ((off - 0x40200) / 4)).cfg
  else 0

/-- MTR, but for its RWS and RWP registers. -/
def mtrWord (s : State) (off : Nat) : Nat :=
  if off = 0x50004 then s.mtr.saves.toNat
  else if off = 0x50008 then s.mtr.skipped.toNat * 65536 + bit s.mtr.page
  else if 0x51000 ≤ off ∧ off < 0x51800 then mtrPointWord (pointOf s (finOr ((off - 0x51000) / 256))) (off % 256)
  else 0

/-- The write counts of every page that has been written, by page number. -/
def wornCounts (s : State) : List (Nat × Nat) :=
  (s.pst.pages.map fun p => (p.num, pageWrites s p)) ++ ((allFin 64).map fun i => (ringPage i, s.pst.rwpCount.get i))

/-- PST_WEAR: the most-worn page, the least such number where several are equal (log entry 44). -/
def wearWord (s : State) : Nat :=
  let w := (wornCounts s).foldl (fun a x => if a.2 < x.2 ∨ (a.2 = x.2 ∧ x.1 < a.1) then x else a) (0, 0)
  w.1 * 65536 + min 100 (w.2 / 100000000)

/-- The byte of a region in PST_PWD. -/
def pwdByte (p : PwdRegion) : Nat :=
  let set := fun (x : List Byte) => x != List.replicate 16 0
  min 31 p.fails * 8 + bit p.until_.isSome * 4 + bit (set p.write) * 2 + bit (set p.read)

/-- PST. -/
def pstWord (s : State) (off : Nat) : Nat :=
  let p := s.pst
  let ct := ((committedGroup s 1).map fun j => j.ct).getD 0
  if off = 0x60000 then
    bit (!p.wornPages.isEmpty) * 64 + bit (!p.warned.isEmpty) * 32 + bit p.retSaving * 16 + bit p.recovering * 8 +
      bit (!p.queue.isEmpty || s.evr.body) * 2 + bit p.ready
  else if off = 0x60004 then wearWord s
  else if off = 0x60008 then (usableRecs s).length * 16777216 + p.records.toNat
  else if off = 0x6000C then min 32768 (retBytesNow s) * 65536 + ((committedGroup s 1).map fun j => j.count).getD 0 % 256 * 256 + retLast s
  else if off = 0x60010 then half64 false ct
  else if off = 0x60014 then half64 true ct
  else if off = 0x60018 then pwdByte (p.pwd.get 0) + pwdByte (p.pwd.get 1) * 256 + pwdByte (p.pwd.get 2) * 65536
  else if off = 0x6001C then p.eccBad.toNat * 65536 + p.eccFixed.toNat
  else 0

/-- EVR. -/
def evrWord (s : State) (off : Nat) : Nat :=
  if off = 0x70000 then evrStatus s
  else if off = 0x70004 then min 32767 s.evr.next
  else if off = 0x70008 then s.evr.overflow.toNat
  else if off = 0x7000C then s.evr.dropped.toNat
  else 0

/-- CMT. -/
def cmtWord (s : State) (off : Nat) : Nat :=
  let c := s.cmt
  if off = 0x80000 then bit c.trigArm * 4 + bit c.stopFull * 2 + bit c.enable
  else if off = 0x80008 then c.head.toNat
  else if off = 0x8000C then c.tail.toNat
  else if off = 0x80010 then c.lost.toNat
  else if off = 0x80014 then c.peakKib.toNat * 65536 + min 65535 (c.rateRead s.clk.now / 1000000)
  else if off = 0x80018 then c.trigClass.toNat * 65536 + c.trigPost.toNat
  else if off = 0x8001C then c.status
  else 0

/-- FWU, but for FWU_CFG. -/
def fwuWord (s : State) (off : Nat) : Nat :=
  if off = 0x90000 then fwuStatus s
  else if off = 0x90004 then fwuSlotWord s 0
  else if off = 0x90008 then fwuSlotWord s 1
  else if off = 0x90010 then fwuTrial s
  else if off = 0x90014 then s.fwu.svnMin.toNat
  else 0

/-- The blocks of R46. -/
def blockWord (s : State) (off : Nat) : Nat :=
  if off < 0x1000 then glbWord s off
  else if off < 0x2000 then sysWord s off
  else if off < 0x4000 then fuseWord s off
  else if off < 0x6000 then timWord s off
  else if off < 0x7000 then rtcWord s off
  else if off < 0x8000 then wdgWord s off
  else if off < 0xC000 then hifWord s off
  else if off < 0x10000 then cfgWord s off
  else if off < 0x18000 then (if off < 0x10040 then votWord s (off - 0x10000) else 0)
  else if off < 0x20000 then (if off < 0x18300 then laneWord s (finOr ((off - 0x18000) / 256)) (off % 256) else 0)
  else if off < 0x30000 then netWord s off
  else if off < 0x40000 then pairWord s (off - 0x30000)
  else if off < 0x50000 then fioWord s off
  else if off < 0x60000 then mtrWord s off
  else if off < 0x70000 then pstWord s off
  else if off < 0x80000 then evrWord s off
  else if off < 0x90000 then cmtWord s off
  else if off < 0xA0000 then fwuWord s off
  else 0

/-- The RWP bits of a register as they read: on the -ES, WDG_CFG.ENABLE reads 1 (R573). -/
def rwpSeen (s : State) (off : Nat) : W32 :=
  (rwpWord s.rwp off &&& rwpMask off) ||| (if off = 0x7000 ∧ safetyOption s then 0x10000#32 else 0)

/-- The present value of a register: the RWS value in effect, the RWP value, or the word of its block; a reserved offset reads 0
(R10, R13). CMT_FILTER.ERRORS reads 1. -/
def liveWord (s : State) (off : Nat) : W32 :=
  if off % 4 ≠ 0 then 0
  else if rwsOffsets.contains off then (rwsWord s.rws off &&& rwsMask off) ||| (if off = 0x80004 then 1#32 else 0)
  else if rwpOffsets.contains off then
    rwpSeen s off ||| (if off = 0x600C then BitVec.ofNat 32 (bit s.rtc.halt) else 0)
  else BitVec.ofNat 32 (blockWord s off)

/-! ## Pairs (R12) -/

/-- The offsets of the lower registers of the values that span two. RTC_DATE and RTC_TIME have a rule of their own for reads
(R556). -/
def pairLows : List Nat :=
  [0x8, 0x1008, 0x1010, 0x104C, 0x1054, 0x105C, 0x2004, 0x4000, 0x4018, 0x6014, 0xC004, 0x10018] ++
    ((List.range 32).flatMap fun q => [0x8400 + 64 * q, 0x8408 + 64 * q]) ++
    ((List.range 3).map fun l => 0x18018 + 0x100 * l) ++ [0x20008, 0x30010] ++
    ((List.range 8).flatMap fun p => [mtrOff p 0x40, mtrOff p 0x48, mtrOff p 0x50]) ++ [0x60010]

/-- What a 32-bit read of a BAR0 register returns: the shadow where one is latched (R12), else the present value. -/
def regRead (s : State) (off : Nat) : W32 := (assoc? off s.bar.shadow).getD (liveWord s off)

/-- What a read of 1 or 2 bytes returns: the addressed bytes of the register (R9). -/
def regReadPart (s : State) (off n : Nat) : Nat := (regRead s (off / 4 * 4)).toNat / 256 ^ (off % 4) % 256 ^ n

/-- A read of BAR0 as it touches the shadows: of a lower register, it latches the higher one; of a higher register, it takes the
shadow away. -/
def latchRead (off : Nat) (s : State) : State :=
  if pairLows.contains off then s.modBar fun b => { b with shadow := assocSet (off + 4) (liveWord s (off + 4)) b.shadow }
  else s.modBar fun b => { b with shadow := b.shadow.filter fun x => x.1 != off }

/-- PAIR_READ_LATCH (R12). -/
def execPairReadLatch (off : Nat) (s : State) : Host.Outcome State Fault Refusal := ok (latchRead off s)

/-- The offset is a ring base register; `k` is its place in the set of its ring pair. -/
def isBase (off k : Nat) : Bool := decide (0x8400 ≤ off) && decide (off < 0x8C00) && decide (off % 64 = k)

/-- The ring pair of an offset. -/
def baseRing (off : Nat) : RingId := finOr ((off - 0x8400) / 64)

/-- A write to the register takes effect now: bases only while ENABLE is 0 (R411), alarm registers only while ARM is 0 (R564). -/
def pairWritable (s : State) (off : Nat) : Bool :=
  if off = 0x4018 ∨ off = 0x401C ∨ off = 0x6004 then true
  else if off = 0x6014 ∨ off = 0x6018 then !s.rtc.arm
  else (isBase off 0 || isBase off 4 || isBase off 8 || isBase off 12) && !(ringPair s (baseRing off)).enable

/-- The lower registers that can be written. -/
def holds (off : Nat) : Bool := off == 0x4018 || off == 0x6004 || off == 0x6014 || isBase off 0 || isBase off 8

/-- A write to a lower register is held until the higher one is written; a second one replaces it (R12). -/
def holdWrite (off : Nat) (w : W32) (s : State) : State :=
  if holds off && pairWritable s off then s.modBar fun b => { b with held := assocSet off w b.held } else s

/-- PAIR_WRITE_HOLD (R12). -/
def execPairWriteHold (off : Nat) (w : W32) (s : State) : Host.Outcome State Fault Refusal := ok (holdWrite off w s)

/-- The held write of a lower register, which no longer is held. -/
def takeHeld (off : Nat) (s : State) : Option W32 × State :=
  (assoc? off s.bar.held, s.modBar fun b => { b with held := b.held.filter fun x => x.1 != off })

/-- A write to the higher register of a ring base takes both words (R12, R411). -/
def writeBase (off : Nat) (w : W32) (s : State) : State :=
  let q := baseRing off
  let sq := off % 64 == 4
  let h := takeHeld (off - 4) s
  let lo := h.1.getD (((if sq then (ringPair s q).sqBase else (ringPair s q).cqBase)).setWidth 32)
  let v : W64 := w ++ lo
  if pairWritable s off then modRing q (fun r => if sq then { r with sqBase := v } else { r with cqBase := v }) h.2 else h.2

/-- A write to RTC_ALM_TIME takes both alarm registers (R12, R564). -/
def writeAlarm (w : W32) (s : State) : State :=
  let h := takeHeld 0x6014 s
  if s.rtc.arm then h.2
  else h.2.modRtc fun r => { r with almDate := (h.1.getD r.almDate) &&& 0xFFFF0F1F#32, almTime := w &&& 0x001F3F3F#32 }

/-! ## Writes to RWP fields (R13, R15, R364, R522) -/

/-- The word of a write with its fields outside their range replaced by what the register holds, and whether there was one:
HOLD_OFF 10 to 3,600 and PERIOD_MS 1 to 1,000. ENABLE stays 1 on the -ES (R573). -/
def rwpRange (s : State) (off : Nat) (w : W32) : W32 × Bool :=
  if off = 0x30004 ∧ outRange 10 3600 (bitsOf w 16 12) then ((w &&& 0x0000000F#32) ||| (s.rwp.pairCfg &&& 0x0FFF0000#32), true)
  else if off = 0x7000 then
    let bad := outRange 1 1000 (bitsOf w 0 10)
    let v := if bad then (w &&& 0x00010000#32) ||| (s.rwp.wdgCfg &&& 0x3FF#32) else w
    (if safetyOption s then v ||| 0x00010000#32 else v, bad)
  else (w, false)

/-- PAIR_EN changes (R363): a module that becomes a member waits; one that leaves its pair stops toggling. -/
def pairEnabled (was : Bool) (s : State) : State :=
  if !was && pairMember s then s.modPair fun p => { p with state := .waiting, startAt := s.clk.now }
  else if was && !pairMember s then (stopToggling s).modPair fun p => { p with state := .waiting }
  else s

/-- WDG_CFG.ENABLE starts the watchdog at once (R573). -/
def wdgEnabled (s : State) : State :=
  if s.rwp.wdgCfg.getLsbD 16 && !(fuseWdg s).hw && !s.wdg.running && s.sys.selfTestEnded then startWatchdog false s else s

/-- A write to a register with RWP fields. -/
def writeRwpReg (off : Nat) (w : W32) (s : State) : State :=
  if sharedRegs.contains off && !hasAuthority s then event 0x040B (det [(4, off), (1, 3)]) s
  else if s.pst.rwpBad then s
  else
    let was := pairMember s
    let v := rwpRange s off w
    let s1 := rwpSet (rwpPut off v.1) s
    let s2 := if sharedRegs.contains off then mirror (sharedItem s off (rwpWord s1.rwp off)) s1 else s1
    let s3 := if v.2 then eventFree (det [(4, off)]) s2 else s2
    if off = 0x30004 then pairEnabled was s3 else if off = 0x7000 then wdgEnabled s3 else s3

/-! ## Writes to RWS fields (R13, R15, R434, R602) -/

/-- A write to a register with RWS fields, which SAFE_TALK and a module without an open transaction of its own discard. -/
def writeRws (off : Nat) (w : W32) (s : State) : State :=
  if !rwsOffsets.contains off || s.sys.run == .safeTalk || !hasAuthority s then s else stageRws off w s

/-- RWS_WRITE (R434). -/
def execRwsWrite (off : Nat) (w : W32) (s : State) : Host.Outcome State Fault Refusal := ok (writeRws off w s)

/-! ## Other writes (R13) -/

/-- A write to a register of a ring pair. -/
def writeRing (off : Nat) (w : W32) (s : State) : State :=
  let q := baseRing off
  let k := off % 64
  if k = 0 ∨ k = 8 then holdWrite off w s
  else if k = 4 ∨ k = 12 then writeBase off w s
  else if k = 0x10 then (if w.getLsbD 30 then resetRing q w s else if w.getLsbD 31 then enableRing q w s else disableRing q w s)
  else if k = 0x14 then modRing q (fun r => { r with coalUs := w.extractLsb' 16 10, coalCount := w.extractLsb' 0 8 }) s
  else if k = 0x18 then modRing q (fun r => { r with overflow := r.overflow && !w.getLsbD 10 }) s
  else s

/-- A write to a word of an MSI-X table entry; clearing the mask bit sends a pending message (R410, log entry 43). -/
def writeMsix (off : Nat) (w : W32) (s : State) : State :=
  let v : Fin 64 := finOr ((off - 0xA000) / 16)
  let put (f : MsixEntry → MsixEntry) : State := s.modHif fun h => { h with msix := vmod h.msix v f }
  match off % 16 / 4 with
  | 0 => put fun e => { e with addr := e.addr.extractLsb' 32 32 ++ w }
  | 1 => put fun e => { e with addr := w ++ e.addr.setWidth 32 }
  | 2 => put fun e => { e with data := w }
  | _ => if w.getLsbD 0 then put fun e => { e with masked := true } else unmaskVector v s

/-- A write to a register with RW, WO or W1C fields and without RWS fields; every other write is discarded (R10, R13). -/
def writeRw (off : Nat) (w : W32) (s : State) : State :=
  if off = 0x1020 then writeSysCmd w s
  else if off = 0x4018 then holdWrite off w s
  else if off = 0x401C then writeTimSet w s
  else if off = 0x6004 then writeRtcDate w s
  else if off = 0x6008 then writeRtcTime w s
  else if off = 0x6010 then
    s.modRtc fun r =>
      { r with vbatLost := r.vbatLost && !w.getLsbD 2, oscStop := r.oscStop && !w.getLsbD 3, badWrite := r.badWrite && !w.getLsbD 6 }
  else if off = 0x6014 then holdWrite off w s
  else if off = 0x6018 then writeAlarm w s
  else if off = 0x601C then writeAlarmCtrl w s
  else if 0x7040 ≤ off ∧ off < 0x7060 then
    s.modWdg fun x => { x with faults := vmod x.faults (finOr ((off - 0x7040) / 4)) fun v => v &&& ~~~ w }
  else if off = 0x8000 then (if outRange 1 100 (bitsOf w 0 8) then s else s.modHif fun h => { h with dmaTimeout := w.extractLsb' 0 8 })
  else if off = 0x8008 then clearCauses w s
  else if 0x8400 ≤ off ∧ off < 0x8C00 then writeRing off w s
  else if 0xA000 ≤ off ∧ off < 0xA400 then writeMsix off w s
  else if 0x40100 ≤ off ∧ off < 0x40180 then modChan (finOr ((off - 0x40100) / 4)) (fun c => { c with latched := c.latched &&& ~~~ w.extractLsb' 8 8 }) s
  else if off = 0x80000 then
    s.modCmt fun c => { c with enable := w.getLsbD 0, stopFull := w.getLsbD 1, trigArm := w.getLsbD 2 }
  else if off = 0x80018 then s.modCmt fun c => { c with trigClass := w.extractLsb' 16 16, trigPost := w.extractLsb' 0 16 }
  else s

/-- A 32-bit write to a register of BAR0. RTC_CTRL holds an RWP field and the RW field HALT. -/
def regWrite (off : Nat) (w : W32) (s : State) : State :=
  if off % 4 ≠ 0 then s
  else if rwsOffsets.contains off then writeRws off w s
  else if rwpOffsets.contains off then
    let s1 := writeRwpReg off w s
    if off = 0x600C then writeHalt (w.getLsbD 0) s1 else s1
  else writeRw off w s

/-- REGISTER_WRITE (R13): a write of 8 or 16 bits is discarded (R9). -/
def execRegisterWrite (off : Nat) (width : Width) (w : W32) (s : State) : Host.Outcome State Fault Refusal :=
  match width with
  | .byte => ok s
  | .half => ok s
  | .word => ok (regWrite off w s)

end Sys2Proof.Machine
end

