-- ==== Sys2Proof/Machine/Damage.lean ====
section
/-! DEFINITION. Uncorrectable errors in transfers, in SRAM and in DRAM, and the two scrubbers (R31, R35 to R39, R158, R528). -/

namespace Sys2Proof.Machine

/-- The place lies in SRAM. -/
def inSram : DamagePlace → Bool
  | .scratchpad _ _ => true
  | .serviceMemory => true
  | .networkBuffer _ _ => true
  | .snapshot _ _ _ => true
  | .effectBuffer _ _ => true
  | .retentiveShadow _ => true
  | .otherSram => true
  | .imageStore _ => false
  | .tableWay _ _ _ => false
  | .traceRecord _ => false
  | .bulk _ => false

/-- An uncorrectable error of a lane is counted in LANE_x_ECC. -/
def countUncorr (l : LaneId) (s : State) : State := modLane l (fun x => { x with uncorr := satInc x.uncorr 1 }) s

/-- A frame discarded for an error in its buffer is counted (R37). -/
def countBufErr (r : StraitId) (s : State) : State := modStrait r (fun x => { x with bufErr := satInc x.bufErr 1 }) s

/-- A damaged frame of a network buffer is discarded and counted; a copy of an IN frame that arrives from the other direction is accepted
as if this one had not been (R37). -/
def dropFrame (r : StraitId) (b : NetBuffer) (s : State) : State :=
  match b with
  | .input n =>
    if ((ringOf s r).stations.get n).got.isSome then
      countBufErr r (modStation r n.val (fun y => { y with got := none, inRef := { y.inRef with ref := y.inRef.ref.map fun q => q - 1 } }) s)
    else s
  | .held i =>
    if i < (ringOf s r).held.length then
      countBufErr r (modStrait r (fun x => { x with held := x.held.take i ++ x.held.drop (i + 1) }) s)
    else s
  | .fragment tag i =>
    if (ringOf s r).atxns.any fun a => a.tag == tag && a.frags.any fun f => f.1 == i then
      countBufErr r (modStrait r (fun x =>
        { x with atxns := x.atxns.map fun a => if a.tag = tag then { a with frags := a.frags.filter fun f => f.1 != i } else a }) s)
    else s

/-- Inputs of a snapshot in damaged words are invalid in every lane for that cycle only, before it is distributed; a forced input keeps its
force (R37, R207). -/
def spoilSnapshot (task cycle : Nat) (pts : List W32) (s : State) : State :=
  let bad := fun (x : Release) (p : W32 × IoValue) => pts.contains p.1 && (forceOn (activeImage s) x.forces 3 p.1).isNone
  s.modTsk fun t =>
    { t with rels := t.rels.map fun x =>
        if x.delivered.toList.any id || x.task != task || x.cycle != cycle then x
        else { x with snap := x.snap.map fun p => if bad x p then (p.1, { p.2 with quality := 3 }) else p } }

/-- A record in an effect buffer that cannot be read is a mismatch of its lane (R37, R275). -/
def spoilRecord (l : LaneId) (i : Nat) (s : State) : State :=
  match (s.lanes.get l).buffer[i]? with
  | some r =>
    judgeAll (laneFault 0x0107 r.task.toNat l (recDetail r)
      (countUncorr l (modLane l (fun x => { x with buffer := x.buffer.take i ++ x.buffer.drop (i + 1) }) s)))
  | none => s

/-- An image of the program image store is damaged: it is refused at its next load (R39). -/
def spoilImage (id : W64) (s : State) : State :=
  s.modPrg fun p => { p with banks := p.banks.map fun b =>
    { b with image := b.image.map fun i => if i.id = id then { i with damaged := true } else i } }

/-- A way of a destination table is poisoned from now on (R158). -/
def poisonWay (n : Fin 16) (b w : Nat) (s : State) : State :=
  if (s.tbl.get n).loaded && decide (b < 2 ^ (s.tbl.get n).k) && decide (w < 2) then
    modTable n (fun t => if t.poisoned.contains (b, w) then t else { t with poisoned := t.poisoned ++ [(b, w)] }) s
  else s

/-- A record of the trace reads back marked damaged (R39, R75). -/
def spoilTrace (seq : W32) (s : State) : State :=
  s.modCmt fun c => { c with recs := c.recs.map fun r => if r.seq = seq then { r with flags := r.flags ||| 0x20#8 } else r }

/-- The descriptors that use the bulk buffer of an offset complete with MEDIA_ERROR (R39, R424). -/
def spoilBulk (off : Nat) (s : State) : State :=
  match s.hif.bulk.find? fun b => decide (b.offset ≤ off) && decide (off < b.offset + b.size) with
  | none => s
  | some b =>
    (allFin 32).foldl (fun s q =>
      ((ringPair s q).work.filter fun e => e.ended.isNone && e.admitted && usesBulk e.desc b).foldl
        (fun s e => endDesc q e.num (doneWith stMediaError 0) s) s) s

/-- What an uncorrectable error leads to, by its place (R37, R39, R158, R528). Other SRAM has no consequence that the spec
states. -/
def escalate (p : DamagePlace) (s : State) : State :=
  match p with
  | .scratchpad l off => judgeAll (laneFault 0x0106 0xFF l (det [(4, off.toNat)]) (countUncorr l s))
  | .serviceMemory => stepOne none s
  | .networkBuffer r n => dropFrame r n s
  | .snapshot t c pts => spoilSnapshot t c pts s
  | .effectBuffer l i => spoilRecord l i s
  | .retentiveShadow off => event 0x070C (det [(4, off.toNat)]) (s.modPst fun x => { x with shadowBad := true })
  | .otherSram => s
  | .imageStore id => spoilImage id s
  | .tableWay n b w => poisonWay n b w s
  | .traceRecord seq => spoilTrace seq s
  | .bulk off => spoilBulk off s

/-- TRANSFER_UNCORRECTABLE (R31): three retries, and a fourth failed attempt is reported. -/
def execTransferUncorrectable (p : DamagePlace) (failed : Nat) (s : State) : Host.Outcome State Fault Refusal :=
  if s.sys.inReset || decide (failed < 4) then ok s else ok (escalate p s)

/-- SRAM_SCRUB (R35 to R37): a pass of the service-core scrubber, once every 1 s. -/
def execSramScrub (fixed : List SramOwner) (bad : List DamagePlace) (s : State) : Host.Outcome State Fault Refusal :=
  if firmwareRuns s && decide (s.mem.scrubAt + 1000000000 ≤ s.clk.now) then
    let s1 := s.modMem fun m => { m with scrubAt := s.clk.now }
    ok ((bad.filter inSram).foldl (fun s p => escalate p s) (fixed.foldl (fun s o => countCorrected o s) s1))
  else ok s

/-- Twelve hours in ns. -/
def patrolNs : Nat := 43200000000000

/-- DRAM_PATROL_SCRUB (R38, R39): a pass once every 12 h. A corrected word is written back with the value it had. -/
def execDramPatrolScrub (found : PatrolPass) (s : State) : Host.Outcome State Fault Refusal :=
  if s.sys.inReset || decide (s.clk.now < s.mem.patrolAt + patrolNs) then ok s
  else
    let s1 := s.modMem fun m => { m with patrolAt := s.clk.now, dramFixed := m.dramFixed + found.fixed }
    ok ((found.bad.filter fun p => !inSram p).foldl (fun s p => escalate p s) s1)

/-! ## The address space of the processor die (R32, R34) -/

/-- The requesters of R25; the units of an engine name their lane. -/
inductive Requester
  | loadStore (l : LaneId)
  | imageUnit (l : LaneId)
  | tableUnit (l : LaneId)
  | serviceCore
  | networkIsland
  | hostDma
  | traceWriter
  | voter
  | laneControl
  | storeController
  | recorder
  deriving DecidableEq, Repr

/-- The lane of a requester within a lane. -/
def Requester.lane? : Requester → Option LaneId
  | .loadStore l => some l
  | .imageUnit l => some l
  | .tableUnit l => some l
  | _ => none

/-- What an offset of the shared SRAM belongs to (R34). -/
inductive SramArea
  | workingSet | networkBuffers | snapshots
  | eventQueue (off : Nat)
  | retentiveShadow (off : Nat)
  | traceStaging (off : Nat)
  deriving DecidableEq, Repr

/-- The area of an offset of the shared SRAM (R34). -/
def sramArea (off : Nat) : SramArea :=
  if off < 0x400000 then .workingSet
  else if off < 0xA00000 then .networkBuffers
  else if off < 0xBB4000 then .snapshots
  else if off < 0xBB8000 then .eventQueue (off - 0xBB4000)
  else if off < 0xBC0000 then .retentiveShadow (off - 0xBB8000)
  else .traceStaging (off - 0xBC0000)

/-- What an address of the 40-bit space names (R32). -/
inductive BusPlace
  | scratchpad (l : LaneId) (off : Nat)
  | sram (a : SramArea)
  | store (off : Nat)
  | dram (off : Nat)
  | accessError
  deriving DecidableEq, Repr

/-- The address map of R32: a lane sees its own scratchpad at 0, the windows of the lanes are for service cores only, and a reserved
address names nothing. -/
def busPlace (r : Requester) (a : Nat) : BusPlace :=
  if a < 0xC00000 then
    match r.lane? with
    | some l => .scratchpad l a
    | none => .accessError
  else if 0x1000000 ≤ a ∧ a < 0x4000000 ∧ a % 0x1000000 < 0xC00000 then
    if r = .serviceCore ∨ r = .laneControl then .scratchpad (finOr (a / 0x1000000 - 1)) (a % 0x1000000) else .accessError
  else if 0x10000000 ≤ a ∧ a < 0x10C00000 then .sram (sramArea (a - 0x10000000))
  else if 0x20000000 ≤ a ∧ a < 0x21000000 then .store (a - 0x20000000)
  else if 0x400000000 ≤ a ∧ a < 0x800000000 then .dram (a - 0x400000000)
  else .accessError

/-- The partitions of DRAM (R40). -/
inductive DramPart
  | images | tables | trace | bulk
  deriving DecidableEq, Repr

/-- The partition of an offset of DRAM (R40). -/
def dramPart (s : State) (off : Nat) : DramPart :=
  if off < 512 * 1048576 then .images
  else if off < (512 + s.part.tables) * 1048576 then .tables
  else if off < bulkBase s then .trace
  else .bulk

/-- A requester reaches a place (R25). -/
def reaches (s : State) (r : Requester) (p : BusPlace) : Bool :=
  match r, p with
  | .serviceCore, .accessError => false
  | .serviceCore, _ => true
  | .loadStore _, .scratchpad _ off => decide (dataBase ≤ off)
  | .imageUnit _, .sram .snapshots => true
  | .tableUnit _, .dram off => dramPart s off == .tables
  | .networkIsland, .sram .networkBuffers => true
  | .hostDma, .dram off => dramPart s off == .bulk || dramPart s off == .images
  | .traceWriter, .sram (.traceStaging _) => true
  | .traceWriter, .dram off => dramPart s off == .trace
  | .voter, .sram .snapshots => true
  | .laneControl, .scratchpad _ _ => true
  | .laneControl, .sram (.retentiveShadow _) => true
  | .storeController, .sram (.retentiveShadow _) => true
  | .storeController, .store _ => true
  | .recorder, .sram (.eventQueue _) => true
  | .recorder, .store off => decide (0xC00000 ≤ off) && decide (off < 0xE00000)
  | _, _ => false

/-- The byte that a read of a place of the bus returns; `none` is an access error or an unreadable page of the store. A scratchpad
holds its banks below the data partition (R33). A byte of SRAM whose layout the spec does not give is a free value of its offset (log
entry 119). -/
def busRead (r : Requester) (a : Nat) (s : State) : Option Byte :=
  let p := busPlace r a
  if !reaches s r p then none
  else
  match p with
  | .scratchpad l off =>
    if off < dataBase then some ((((s.prg.banks.get (finOr (off / 0x400000))).image.map fun i => i.code).getD []).getD (off % 0x400000) 0)
    else some (memGet off (s.lanes.get l).mem)
  | .sram (.retentiveShadow off) => some (memGet off s.pst.shadow)
  | .sram (.traceStaging off) => some (((s.cmt.stage[off / 32]?).map fun x => x.bytes.getD (off % 32) 0).getD 0)
  | .sram _ => some ((Config.freeBits (a + s.free)).setWidth 8)
  | .store off => ((storePage (off / 256) s).1).map fun b => b.getD (off % 256) 0
  | .dram off => some (memGet off s.mem.dram)
  | .accessError => none

end Sys2Proof.Machine
end

