-- ==== Sys2Proof/Machine/Dispatch.lean ====
section
/-! DEFINITION. One arm per command: the direct call of its meaning. -/

namespace Sys2Proof.Machine

def exec (i : Instr) (s : State) : Host.Outcome State Fault Refusal :=
  match i with
  | .pairReadLatch off => Sys2Proof.Machine.execPairReadLatch off s
  | .pairWriteHold off val => Sys2Proof.Machine.execPairWriteHold off val s
  | .registerWrite off width val => Sys2Proof.Machine.execRegisterWrite off width val s
  | .rwsWrite off val => Sys2Proof.Machine.execRwsWrite off val s
  | .laneFreqMeasure lane khz => Sys2Proof.Machine.execLaneFreqMeasure lane khz s
  | .laneSupplyFault lane mv => Sys2Proof.Machine.execLaneSupplyFault lane mv s
  | .transferUncorrectable place failed => Sys2Proof.Machine.execTransferUncorrectable place failed s
  | .sramScrub fixed bad => Sys2Proof.Machine.execSramScrub fixed bad s
  | .dramPatrolScrub found => Sys2Proof.Machine.execDramPatrolScrub found s
  | .syncReceived port offset => Sys2Proof.Machine.execSyncReceived port offset s
  | .announceReceived port msg => Sys2Proof.Machine.execAnnounceReceived port msg s
  | .timSet hi => Sys2Proof.Machine.execTimSet hi s
  | .traceDrain n => Sys2Proof.Machine.execTraceDrain n s
  | .cmtRead q overtaken => Sys2Proof.Machine.execCmtRead q overtaken s
  | .cmtMark q => Sys2Proof.Machine.execCmtMark q s
  | .cmtResume q => Sys2Proof.Machine.execCmtResume q s
  | .cmtStatusRead q => Sys2Proof.Machine.execCmtStatusRead q s
  | .bundleIssue lane engine ecc => Sys2Proof.Machine.execBundleIssue lane engine ecc s
  | .aluAdd lane engine b => Sys2Proof.Machine.execAluAdd lane engine b s
  | .aluSub lane engine b => Sys2Proof.Machine.execAluSub lane engine b s
  | .aluAnd lane engine b => Sys2Proof.Machine.execAluAnd lane engine b s
  | .aluOr lane engine b => Sys2Proof.Machine.execAluOr lane engine b s
  | .aluXor lane engine b => Sys2Proof.Machine.execAluXor lane engine b s
  | .aluShl lane engine b => Sys2Proof.Machine.execAluShl lane engine b s
  | .aluShr lane engine b => Sys2Proof.Machine.execAluShr lane engine b s
  | .aluSar lane engine b => Sys2Proof.Machine.execAluSar lane engine b s
  | .aluMul lane engine b => Sys2Proof.Machine.execAluMul lane engine b s
  | .aluEq lane engine b => Sys2Proof.Machine.execAluEq lane engine b s
  | .aluNe lane engine b => Sys2Proof.Machine.execAluNe lane engine b s
  | .aluLt lane engine b => Sys2Proof.Machine.execAluLt lane engine b s
  | .aluLtu lane engine b => Sys2Proof.Machine.execAluLtu lane engine b s
  | .aluLe lane engine b => Sys2Proof.Machine.execAluLe lane engine b s
  | .aluLeu lane engine b => Sys2Proof.Machine.execAluLeu lane engine b s
  | .aluMin lane engine b => Sys2Proof.Machine.execAluMin lane engine b s
  | .aluMax lane engine b => Sys2Proof.Machine.execAluMax lane engine b s
  | .aluPass lane engine b => Sys2Proof.Machine.execAluPass lane engine b s
  | .bitLd lane engine b => Sys2Proof.Machine.execBitLd lane engine b s
  | .bitAnd lane engine b => Sys2Proof.Machine.execBitAnd lane engine b s
  | .bitOr lane engine b => Sys2Proof.Machine.execBitOr lane engine b s
  | .bitXor lane engine b => Sys2Proof.Machine.execBitXor lane engine b s
  | .bitAndn lane engine b => Sys2Proof.Machine.execBitAndn lane engine b s
  | .bitOrn lane engine b => Sys2Proof.Machine.execBitOrn lane engine b s
  | .bitOpen lane engine b => Sys2Proof.Machine.execBitOpen lane engine b s
  | .bitClose lane engine b => Sys2Proof.Machine.execBitClose lane engine b s
  | .bitSt lane engine b => Sys2Proof.Machine.execBitSt lane engine b s
  | .bitSet lane engine b => Sys2Proof.Machine.execBitSet lane engine b s
  | .bitRst lane engine b => Sys2Proof.Machine.execBitRst lane engine b s
  | .bitInv lane engine b => Sys2Proof.Machine.execBitInv lane engine b s
  | .bitLdv lane engine b => Sys2Proof.Machine.execBitLdv lane engine b s
  | .tmrTon lane engine b => Sys2Proof.Machine.execTmrTon lane engine b s
  | .tmrTof lane engine b => Sys2Proof.Machine.execTmrTof lane engine b s
  | .tmrTp lane engine b => Sys2Proof.Machine.execTmrTp lane engine b s
  | .tmrTacc lane engine b => Sys2Proof.Machine.execTmrTacc lane engine b s
  | .tmrTrst lane engine b => Sys2Proof.Machine.execTmrTrst lane engine b s
  | .edgRise lane engine b => Sys2Proof.Machine.execEdgRise lane engine b s
  | .edgFall lane engine b => Sys2Proof.Machine.execEdgFall lane engine b s
  | .blkMove lane engine b => Sys2Proof.Machine.execBlkMove lane engine b s
  | .blkFill lane engine b => Sys2Proof.Machine.execBlkFill lane engine b s
  | .blkCmp lane engine b => Sys2Proof.Machine.execBlkCmp lane engine b s
  | .blkScan lane engine b => Sys2Proof.Machine.execBlkScan lane engine b s
  | .tblLookup lane engine slot b => Sys2Proof.Machine.execTblLookup lane engine slot b s
  | .tblLookupDone lane task slot => Sys2Proof.Machine.execTblLookupDone lane task slot s
  | .imgRd lane engine b => Sys2Proof.Machine.execImgRd lane engine b s
  | .imgWr lane engine b => Sys2Proof.Machine.execImgWr lane engine b s
  | .lsLd lane engine size b => Sys2Proof.Machine.execLsLd lane engine size b s
  | .lsSt lane engine size b => Sys2Proof.Machine.execLsSt lane engine size b s
  | .brAbs lane engine b => Sys2Proof.Machine.execBrAbs lane engine b s
  | .brRel lane engine b => Sys2Proof.Machine.execBrRel lane engine b s
  | .brCall lane engine b => Sys2Proof.Machine.execBrCall lane engine b s
  | .brRet lane engine b => Sys2Proof.Machine.execBrRet lane engine b s
  | .tskEnd lane engine => Sys2Proof.Machine.execTskEnd lane engine s
  | .tblLoad ring dma => Sys2Proof.Machine.execTblLoad ring dma s
  | .tblUpdate ring dma => Sys2Proof.Machine.execTblUpdate ring dma s
  | .tblUnload ring => Sys2Proof.Machine.execTblUnload ring s
  | .tblInfo ring => Sys2Proof.Machine.execTblInfo ring s
  | .taskRelease bad => Sys2Proof.Machine.execTaskRelease bad s
  | .eventTaskRelease bad => Sys2Proof.Machine.execEventTaskRelease bad s
  | .snapshotDelivery lane => Sys2Proof.Machine.execSnapshotDelivery lane s
  | .snapshotCopyDone lane => Sys2Proof.Machine.execSnapshotCopyDone lane s
  | .run q => Sys2Proof.Machine.execRun q s
  | .stop q => Sys2Proof.Machine.execStop q s
  | .taskTrigger q => Sys2Proof.Machine.execTaskTrigger q s
  | .taskStatus q => Sys2Proof.Machine.execTaskStatus q s
  | .varRead q dma => Sys2Proof.Machine.execVarRead q dma s
  | .varWrite q dma => Sys2Proof.Machine.execVarWrite q dma s
  | .forceSet q dma => Sys2Proof.Machine.execForceSet q dma s
  | .forceClear q => Sys2Proof.Machine.execForceClear q s
  | .forceList q => Sys2Proof.Machine.execForceList q s
  | .forceClearAll q => Sys2Proof.Machine.execForceClearAll q s
  | .budgetOverrun lane engine => Sys2Proof.Machine.execBudgetOverrun lane engine s
  | .errorTaskOverrun lane engine => Sys2Proof.Machine.execErrorTaskOverrun lane engine s
  | .laneDeadline lane => Sys2Proof.Machine.execLaneDeadline lane s
  | .prgLoad q dma => Sys2Proof.Machine.execPrgLoad q dma s
  | .prgMapLoad q dma => Sys2Proof.Machine.execPrgMapLoad q dma s
  | .prgSwitchStage q => Sys2Proof.Machine.execPrgSwitchStage q s
  | .prgRelease q => Sys2Proof.Machine.execPrgRelease q s
  | .prgStatus q => Sys2Proof.Machine.execPrgStatus q s
  | .prgSave q => Sys2Proof.Machine.execPrgSave q s
  | .prgKeySet q dma => Sys2Proof.Machine.execPrgKeySet q dma s
  | .recordCopyArrival lane ecc disagree => Sys2Proof.Machine.execRecordCopyArrival lane ecc disagree s
  | .laneSelfTestDone lane part micros => Sys2Proof.Machine.execLaneSelfTestDone lane part micros s
  | .resyncFinalCopy lane fixed => Sys2Proof.Machine.execResyncFinalCopy lane fixed s
  | .resyncStarved lane => Sys2Proof.Machine.execResyncStarved lane s
  | .laneStatus q => Sys2Proof.Machine.execLaneStatus q s
  | .laneRetest q => Sys2Proof.Machine.execLaneRetest q s
  | .laneExclude q => Sys2Proof.Machine.execLaneExclude q s
  | .laneRejoin q => Sys2Proof.Machine.execLaneRejoin q s
  | .votInject q failed => Sys2Proof.Machine.execVotInject q failed s
  | .portLinkChange port up speed full => Sys2Proof.Machine.execPortLinkChange port up speed full s
  | .frameReceive port badFcs bytes => Sys2Proof.Machine.execFrameReceive port badFcs bytes s
  | .gateOpen ring => Sys2Proof.Machine.execGateOpen ring s
  | .netStatus ring => Sys2Proof.Machine.execNetStatus ring s
  | .netASend ring dma => Sys2Proof.Machine.execNetASend ring dma s
  | .netARecv ring => Sys2Proof.Machine.execNetARecv ring s
  | .netInaugurate ring => Sys2Proof.Machine.execNetInaugurate ring s
  | .netStationInfo ring => Sys2Proof.Machine.execNetStationInfo ring s
  | .netCounters ring => Sys2Proof.Machine.execNetCounters ring s
  | .netRawSend ring dma => Sys2Proof.Machine.execNetRawSend ring dma s
  | .netRawRecv ring => Sys2Proof.Machine.execNetRawRecv ring s
  | .backboneFrameReceive port bytes => Sys2Proof.Machine.execBackboneFrameReceive port bytes s
  | .gateClose ring => Sys2Proof.Machine.execGateClose ring s
  | .narrowsHeartbeat seq ct state ilk mark => Sys2Proof.Machine.execNarrowsHeartbeat seq ct state ilk mark s
  | .narrowsMirror seq item source => Sys2Proof.Machine.execNarrowsMirror seq item source s
  | .narrowsEdges seq changes => Sys2Proof.Machine.execNarrowsEdges seq changes s
  | .narrowsAccepted seq ring due map crc => Sys2Proof.Machine.execNarrowsAccepted seq ring due map crc s
  | .narrowsRecognised seq task ct => Sys2Proof.Machine.execNarrowsRecognised seq task ct s
  | .narrowsState seq item => Sys2Proof.Machine.execNarrowsState seq item s
  | .relinquish seq => Sys2Proof.Machine.execRelinquish seq s
  | .revertReq seq => Sys2Proof.Machine.execRevertReq seq s
  | .roleDecision seq commit => Sys2Proof.Machine.execRoleDecision seq commit s
  | .narrowsDelayMeasure roundTrip => Sys2Proof.Machine.execNarrowsDelayMeasure roundTrip s
  | .narrowsLinkUp feats option => Sys2Proof.Machine.execNarrowsLinkUp feats option s
  | .ilkTestPulse seen => Sys2Proof.Machine.execIlkTestPulse seen s
  | .joinFinalCopy fixed => Sys2Proof.Machine.execJoinFinalCopy fixed s
  | .pairStatus ring => Sys2Proof.Machine.execPairStatus ring s
  | .pairSwitch ring => Sys2Proof.Machine.execPairSwitch ring s
  | .pairJoin ring => Sys2Proof.Machine.execPairJoin ring s
  | .pairDetach ring => Sys2Proof.Machine.execPairDetach ring s
  | .pairRevertArm ring => Sys2Proof.Machine.execPairRevertArm ring s
  | .narrowsCellAck seq ct => Sys2Proof.Machine.execNarrowsCellAck seq ct s
  | .hifReset kind => Sys2Proof.Machine.execHifReset kind s
  | .dmaTimeout q slot => Sys2Proof.Machine.execDmaTimeout q slot s
  | .dmaError q write slot => Sys2Proof.Machine.execDmaError q write slot s
  | .ringEnable q cfg => Sys2Proof.Machine.execRingEnable q cfg s
  | .ringDisable q cfg => Sys2Proof.Machine.execRingDisable q cfg s
  | .ringReset q cfg => Sys2Proof.Machine.execRingReset q cfg s
  | .sqTailDoorbell q val => Sys2Proof.Machine.execSqTailDoorbell q val s
  | .cqHeadDoorbell q val => Sys2Proof.Machine.execCqHeadDoorbell q val s
  | .descriptorFetch bytes dma => Sys2Proof.Machine.execDescriptorFetch bytes dma s
  | .completionPost q => Sys2Proof.Machine.execCompletionPost q s
  | .coalTimer q => Sys2Proof.Machine.execCoalTimer q s
  | .irqCauseClear val => Sys2Proof.Machine.execIrqCauseClear val s
  | .msixUnmask vector => Sys2Proof.Machine.execMsixUnmask vector s
  | .nop q => Sys2Proof.Machine.execNop q s
  | .timeRead q => Sys2Proof.Machine.execTimeRead q s
  | .moduleInfo q => Sys2Proof.Machine.execModuleInfo q s
  | .ringStatus q => Sys2Proof.Machine.execRingStatus q s
  | .bulkAlloc q => Sys2Proof.Machine.execBulkAlloc q s
  | .bulkFree q => Sys2Proof.Machine.execBulkFree q s
  | .bulkCopy q dma => Sys2Proof.Machine.execBulkCopy q dma s
  | .pcieLinkUp width rate => Sys2Proof.Machine.execPcieLinkUp width rate s
  | .pciePowerStateChange d3 => Sys2Proof.Machine.execPciePowerStateChange d3 s
  | .pcieUncorrectableError status => Sys2Proof.Machine.execPcieUncorrectableError status s
  | .txnOpen q => Sys2Proof.Machine.execTxnOpen q s
  | .txnStage q dma => Sys2Proof.Machine.execTxnStage q dma s
  | .txnCheck q => Sys2Proof.Machine.execTxnCheck q s
  | .txnApply q => Sys2Proof.Machine.execTxnApply q s
  | .txnAbandon q => Sys2Proof.Machine.execTxnAbandon q s
  | .txnStatus q => Sys2Proof.Machine.execTxnStatus q s
  | .txnRead q => Sys2Proof.Machine.execTxnRead q s
  | .configSave cut => Sys2Proof.Machine.execConfigSave cut s
  | .barrierRefresh intact => Sys2Proof.Machine.execBarrierRefresh intact s
  | .barrierEcho intact ns => Sys2Proof.Machine.execBarrierEcho intact ns s
  | .barrierFault cause => Sys2Proof.Machine.execBarrierFault cause s
  | .fieldInputChange chan level => Sys2Proof.Machine.execFieldInputChange chan level s
  | .pulsedSample chan level => Sys2Proof.Machine.execPulsedSample chan level s
  | .debounceExpiry chan => Sys2Proof.Machine.execDebounceExpiry chan s
  | .wireBreakSet chan => Sys2Proof.Machine.execWireBreakSet chan s
  | .wireBreakClear chan => Sys2Proof.Machine.execWireBreakClear chan s
  | .thermalShutdown chan => Sys2Proof.Machine.execThermalShutdown chan s
  | .thermalRestart chan => Sys2Proof.Machine.execThermalRestart chan s
  | .latchOffRelease chan => Sys2Proof.Machine.execLatchOffRelease chan s
  | .readbackDiscrepancy chan => Sys2Proof.Machine.execReadbackDiscrepancy chan s
  | .groupOverload group ma => Sys2Proof.Machine.execGroupOverload group ma s
  | .sagLevel1 group mv => Sys2Proof.Machine.execSagLevel1 group mv s
  | .sagLevel2 group mv => Sys2Proof.Machine.execSagLevel2 group mv s
  | .sagRestore group mv => Sys2Proof.Machine.execSagRestore group mv s
  | .meterSample x => Sys2Proof.Machine.execMeterSample x s
  | .streamLost chan => Sys2Proof.Machine.execStreamLost chan s
  | .streamRestored chan => Sys2Proof.Machine.execStreamRestored chan s
  | .zcLost point => Sys2Proof.Machine.execZcLost point s
  | .pqValueRefresh point => Sys2Proof.Machine.execPqValueRefresh point s
  | .energySave fails inTime => Sys2Proof.Machine.execEnergySave fails inTime s
  | .mtrRead q => Sys2Proof.Machine.execMtrRead q s
  | .mtrHarm q => Sys2Proof.Machine.execMtrHarm q s
  | .mtrPreset q dma => Sys2Proof.Machine.execMtrPreset q dma s
  | .pageWrite fails => Sys2Proof.Machine.execPageWrite fails s
  | .trailerScan fixed => Sys2Proof.Machine.execTrailerScan fixed s
  | .backoffEnd region => Sys2Proof.Machine.execBackoffEnd region s
  | .powerFailWarning cut => Sys2Proof.Machine.execPowerFailWarning cut s
  | .pstRead q => Sys2Proof.Machine.execPstRead q s
  | .pstInfo q => Sys2Proof.Machine.execPstInfo q s
  | .pstPwdSet q dma => Sys2Proof.Machine.execPstPwdSet q dma s
  | .pstRetSave q => Sys2Proof.Machine.execPstRetSave q s
  | .pstRetInfo q => Sys2Proof.Machine.execPstRetInfo q s
  | .evrRecordWrite fails1 fails2 cut => Sys2Proof.Machine.execEvrRecordWrite fails1 fails2 cut s
  | .evrWriteRepeat fails1 fails2 => Sys2Proof.Machine.execEvrWriteRepeat fails1 fails2 s
  | .evrRead q => Sys2Proof.Machine.execEvrRead q s
  | .evrStatusRead q => Sys2Proof.Machine.execEvrStatusRead q s
  | .rtcSubRead firmware => Sys2Proof.Machine.execRtcSubRead firmware s
  | .rtcDateRead firmware => Sys2Proof.Machine.execRtcDateRead firmware s
  | .rtcTimeRead firmware => Sys2Proof.Machine.execRtcTimeRead firmware s
  | .rtcFreezeTimeout firmware => Sys2Proof.Machine.execRtcFreezeTimeout firmware s
  | .rtcDateWrite val => Sys2Proof.Machine.execRtcDateWrite val s
  | .rtcTimeWrite val => Sys2Proof.Machine.execRtcTimeWrite val s
  | .rtcHalt halt => Sys2Proof.Machine.execRtcHalt halt s
  | .rtcAlarmArm val => Sys2Proof.Machine.execRtcAlarmArm val s
  | .rtcCompensation temp => Sys2Proof.Machine.execRtcCompensation temp s
  | .vbatCheck mv => Sys2Proof.Machine.execVbatCheck mv s
  | .wdgService answer => Sys2Proof.Machine.execWdgService answer s
  | .supplyReset mv => Sys2Proof.Machine.execSupplyReset mv s
  | .overTemperature hot mv => Sys2Proof.Machine.execOverTemperature hot mv s
  | .powerUpRelease pairId fusesAgree storeOk marchOk => Sys2Proof.Machine.execPowerUpRelease pairId fusesAgree storeOk marchOk s
  | .builtInSelfTest failed laneMicros delay millis => Sys2Proof.Machine.execBuiltInSelfTest failed laneMicros delay millis s
  | .sysRestart q => Sys2Proof.Machine.execSysRestart q s
  | .sysCmdRestart val => Sys2Proof.Machine.execSysCmdRestart val s
  | .sysStartInfo q => Sys2Proof.Machine.execSysStartInfo q s
  | .fuseProgram q vpp => Sys2Proof.Machine.execFuseProgram q vpp s
  | .fwuBegin q => Sys2Proof.Machine.execFwuBegin q s
  | .fwuBlock q dma => Sys2Proof.Machine.execFwuBlock q dma s
  | .fwuVerify q => Sys2Proof.Machine.execFwuVerify q s
  | .fwuActivate q => Sys2Proof.Machine.execFwuActivate q s
  | .servicePauseEnd intact => Sys2Proof.Machine.execServicePauseEnd intact s
  | .fwuConfirm q => Sys2Proof.Machine.execFwuConfirm q s
  | .fwuAbort q => Sys2Proof.Machine.execFwuAbort q s
  | .fwuStatusRead q => Sys2Proof.Machine.execFwuStatusRead q s
  | .announceReceiptTimeout port => Sys2Proof.Machine.execAnnounceReceiptTimeout port s
  | .pdelayMessageReceived port msg => Sys2Proof.Machine.execPdelayMessageReceived port msg s
  | .ptpMessageTransmit port kind => Sys2Proof.Machine.execPtpMessageTransmit port kind s
  | .outputCurrentLimit chan active => Sys2Proof.Machine.execOutputCurrentLimit chan active s
  | .readbackDiscrepancyClear chan => Sys2Proof.Machine.execReadbackDiscrepancyClear chan s
  | .syncReceiptTimeout => Sys2Proof.Machine.execSyncReceiptTimeout s
  | .holdoverExpiry => Sys2Proof.Machine.execHoldoverExpiry s
  | .chipTimeSeed => Sys2Proof.Machine.execChipTimeSeed s
  | .chipTimeSave => Sys2Proof.Machine.execChipTimeSave s
  | .refclkFaultSet => Sys2Proof.Machine.execRefclkFaultSet s
  | .refclkFaultClear => Sys2Proof.Machine.execRefclkFaultClear s
  | .traceLossRecord => Sys2Proof.Machine.execTraceLossRecord s
  | .traceFreeze => Sys2Proof.Machine.execTraceFreeze s
  | .tableWayFree => Sys2Proof.Machine.execTableWayFree s
  | .eventRecognised => Sys2Proof.Machine.execEventRecognised s
  | .cutOff => Sys2Proof.Machine.execCutOff s
  | .outputInstant => Sys2Proof.Machine.execOutputInstant s
  | .forceInstant => Sys2Proof.Machine.execForceInstant s
  | .autonomousStart => Sys2Proof.Machine.execAutonomousStart s
  | .stopComplete => Sys2Proof.Machine.execStopComplete s
  | .varReadCapture => Sys2Proof.Machine.execVarReadCapture s
  | .varWriteTimeout => Sys2Proof.Machine.execVarWriteTimeout s
  | .switchCommit => Sys2Proof.Machine.execSwitchCommit s
  | .switchInstant => Sys2Proof.Machine.execSwitchInstant s
  | .oneLaneHourly => Sys2Proof.Machine.execOneLaneHourly s
  | .oneLaneExpired => Sys2Proof.Machine.execOneLaneExpired s
  | .oneLaneAllowanceSave => Sys2Proof.Machine.execOneLaneAllowanceSave s
  | .streamSilence => Sys2Proof.Machine.execStreamSilence s
  | .dueInstant => Sys2Proof.Machine.execDueInstant s
  | .aResponseTimeout => Sys2Proof.Machine.execAResponseTimeout s
  | .discoverRound => Sys2Proof.Machine.execDiscoverRound s
  | .inaugurationTimeout => Sys2Proof.Machine.execInaugurationTimeout s
  | .catchUpRepeat => Sys2Proof.Machine.execCatchUpRepeat s
  | .standbyFrameCheck => Sys2Proof.Machine.execStandbyFrameCheck s
  | .heartbeatSend => Sys2Proof.Machine.execHeartbeatSend s
  | .cellRepeat => Sys2Proof.Machine.execCellRepeat s
  | .narrowsSilence => Sys2Proof.Machine.execNarrowsSilence s
  | .narrowsLockLoss => Sys2Proof.Machine.execNarrowsLockLoss s
  | .ilkInToggling => Sys2Proof.Machine.execIlkInToggling s
  | .ilkInStopped => Sys2Proof.Machine.execIlkInStopped s
  | .claimBackoffEnd => Sys2Proof.Machine.execClaimBackoffEnd s
  | .claimComplete => Sys2Proof.Machine.execClaimComplete s
  | .ilkPulseMissing => Sys2Proof.Machine.execIlkPulseMissing s
  | .pairStartTimeout => Sys2Proof.Machine.execPairStartTimeout s
  | .joinTimeout => Sys2Proof.Machine.execJoinTimeout s
  | .activeAloneEntry => Sys2Proof.Machine.execActiveAloneEntry s
  | .standbyDetach => Sys2Proof.Machine.execStandbyDetach s
  | .revertHoldOff => Sys2Proof.Machine.execRevertHoldOff s
  | .retentiveCrcMirror => Sys2Proof.Machine.execRetentiveCrcMirror s
  | .ilkTestPulseReceived => Sys2Proof.Machine.execIlkTestPulseReceived s
  | .revertWaitTimeout => Sys2Proof.Machine.execRevertWaitTimeout s
  | .revertRateWindowExpiry => Sys2Proof.Machine.execRevertRateWindowExpiry s
  | .fenceClear => Sys2Proof.Machine.execFenceClear s
  | .txnDecision => Sys2Proof.Machine.execTxnDecision s
  | .txnApplyInstant => Sys2Proof.Machine.execTxnApplyInstant s
  | .txnIdleTimeout => Sys2Proof.Machine.execTxnIdleTimeout s
  | .fieldSafeTimeout => Sys2Proof.Machine.execFieldSafeTimeout s
  | .fieldEdgeReport => Sys2Proof.Machine.execFieldEdgeReport s
  | .fieldOutputCommand => Sys2Proof.Machine.execFieldOutputCommand s
  | .fieldOutputApply => Sys2Proof.Machine.execFieldOutputApply s
  | .measurementIntervalEnd => Sys2Proof.Machine.execMeasurementIntervalEnd s
  | .rwpRecordWrite => Sys2Proof.Machine.execRwpRecordWrite s
  | .pageRefresh => Sys2Proof.Machine.execPageRefresh s
  | .warningRearm => Sys2Proof.Machine.execWarningRearm s
  | .rtcSecond => Sys2Proof.Machine.execRtcSecond s
  | .rtcPhaseStep => Sys2Proof.Machine.execRtcPhaseStep s
  | .rtcSync => Sys2Proof.Machine.execRtcSync s
  | .vbatLost => Sys2Proof.Machine.execVbatLost s
  | .oscStop => Sys2Proof.Machine.execOscStop s
  | .watchdogStart => Sys2Proof.Machine.execWatchdogStart s
  | .wdgExpiry => Sys2Proof.Machine.execWdgExpiry s
  | .restartStampExpiry => Sys2Proof.Machine.execRestartStampExpiry s
  | .vinPresent => Sys2Proof.Machine.execVinPresent s
  | .vinAbsent => Sys2Proof.Machine.execVinAbsent s
  | .externalReset => Sys2Proof.Machine.execExternalReset s
  | .servicePauseStart => Sys2Proof.Machine.execServicePauseStart s
  | .firmwareConfirmed => Sys2Proof.Machine.execFirmwareConfirmed s
  | .firmwareTrialTimeout => Sys2Proof.Machine.execFirmwareTrialTimeout s
  | .fwuIdleTimeout => Sys2Proof.Machine.execFwuIdleTimeout s

end Sys2Proof.Machine
end

