-- ==== Sys2Proof/Safety.lean ====
section
/-! DEFINITION. The terms in which claims about the module are stated: what no command changes, and what makes a command complete. -/

namespace Sys2Proof.Machine

/-- What no command changes: the queue's rest, and the identity of the module that its fuses give it before delivery
(GLB_OPTION, GLB_ID, GLB_SERIAL and NET_MAC; R5, R10). -/
def State.fixed (s : State) : List Instr × Bool × Byte × W64 × BitVec 48 :=
  (s.pending, s.fuse.safety, s.fuse.stepping, s.fuse.serial, s.fuse.mac)

/-- The descriptor of a ring pair that the row of an opcode serves now, where the module has the authority it needs (R364, R425). -/
def served (s : State) (q : RingId) (op : Nat) (e : Outst) : Prop := readyDesc q op s = some e ∧ withoutAuthority s e = false

/-! ## Engines at a bundle boundary (R104, R118, R186) -/

/-- The context whose code runs for a release in a lane. -/
def engineCtx (s : State) (l : LaneId) (r : Release) : Ctx := ctxOf s l (runningEntry s l r).task

/-- A release holds an engine at a bundle boundary: its budget is not used up, no block operation is in progress, and nothing is
begun, reserved or on its way in the context; it is an engine of the task. -/
def atBoundary (s : State) (l : LaneId) (en : Fin 4) (r : Release) : Prop :=
  running s l en = some r ∧ (runningEntry s l r).task < 256 ∧ r.task < 256 ∧
    (engineCtx s l r).usedCycles < (runningEntry s l r).budget ∧ (engineCtx s l r).blk = none ∧ (engineCtx s l r).started = [] ∧
    (engineCtx s l r).resv = [] ∧ (engineCtx s l r).ending = false ∧ (engineCtx s l r).timerWb = [] ∧ (engineCtx s l r).branch = none ∧
    r.entry.engine = en

/-- A context one cycle later, with nothing but its cycle and its program counter changed. -/
def Ctx.nextBundle (c : Ctx) : Ctx := { c with cyc := c.cyc + 1, pc := c.delay.getD (c.pc + 1), delay := none }

/-- Nothing but one lane differs: the other lanes and all the rest of the state are the same. -/
def onlyLane (l : LaneId) (s t : State) : Prop := t.modLanes (fun _ => s.lanes) = s ∧ ∀ m, m ≠ l → t.lanes.get m = s.lanes.get m

/-- What a move changes in its lane: the context that runs becomes `c`, and the scratchpad `m`; the effect buffer and the state of the lane
stay. Outside the lane it changes only the marks of the 256-byte lines `w` that it wrote (R283, R377). -/
def moved (s t : State) (l : LaneId) (r : Release) (c : Ctx) (m : Memory) (w : List Nat) : Prop :=
  ctxOf t l (runningEntry s l r).task = c ∧ (t.lanes.get l).mem = m ∧ (t.lanes.get l).buffer = (s.lanes.get l).buffer ∧
    (t.lanes.get l).state = (s.lanes.get l).state ∧ onlyLane l (markLines l w s) t

end Sys2Proof.Machine
end

