-- ==== Sys2Proof/Certificates/Slice0/Obligations.lean ====
section
/-! DEFINITION. The statements for the provers. A clause `served s q op e → …` speaks of the descriptor `e` of ring pair `q` that the command
serves: the front one with opcode `op` whose work may begin, and for which the module has the authority it needs. The clauses that say
what a command does where it runs stand first in a statement; the refusals and the commands that find nothing to do follow. -/

open Sys2Proof Sys2Proof.Machine

/-- A step with a command at the front of the queue is that command's effect, with the queue's rest; a step with an empty queue is 1
ns of time (log entry 1: the model's choice). -/
def Obligations.StepRunsTheFrontCommand : Prop :=
  (∀ (c : Instr) (s : State), step (s.withFront c) = exec c s) ∧
  (∀ (c : Instr) (rest : List Instr) (s : State), s.pending = c :: rest → step s = exec c s.popped) ∧
  (∀ s : State, s.pending = [] → step s = .next (idle s))

/-- Right after reset: run state STOPPED and authority of its own (no pair member), empty queue, the masks and counts of the host
interface, no ring pair enabled, no transaction, no record in the trace or the event recorder, chip time 0 and free, no lane
started, nothing sent, and no byte of a memory written (log entries 2 and 3: the model's choices where the spec gives no value). -/
def Obligations.ResetState : Prop :=
  State.reset.pending = [] ∧ State.reset.sys.inReset = false ∧ State.reset.sys.run = .stopped ∧ hasAuthority State.reset = true ∧
  State.reset.hif.cause = 0 ∧ (∀ q : RingId, (State.reset.hif.rings.get q).enable = false ∧ (State.reset.hif.rings.get q).outst = []) ∧
  State.reset.txn.phase = .none ∧ State.reset.cmt.stage = [] ∧ State.reset.evr.queue = [] ∧
  State.reset.clk.ct = 0 ∧ State.reset.tim.quality = .free ∧ (∀ l : LaneId, (State.reset.lanes.get l).state = .selfTest) ∧
  State.reset.out = [] ∧ State.reset.mem.dram = [] ∧ (∀ l : LaneId, (State.reset.lanes.get l).mem = []) ∧ State.reset.pst.shadow = []

/-- RING_ENABLE, RING_DISABLE and RING_RESET (R411, R416): a good set-up enables the ring pair with its indices at 0, a bad one leaves
ENABLE 0 with CAUSE 1; disabling ends what waits on the fetch path; a reset discards and counts the completions. -/
def Obligations.RingPairSetUp : Prop :=
  ∀ (q : RingId) (w : W32) (s : State),
    let r := ringPair s q
    let sizes (r : RingPair) : RingPair :=
      { r with sqLog2 := w.extractLsb' 24 4, cqLog2 := w.extractLsb' 20 4, vector := w.extractLsb' 8 5, prio := w.extractLsb' 16 2 }
    let good : Prop :=
      r.sqBase.toNat % 4096 = 0 ∧ r.cqBase.toNat % 4096 = 0 ∧ (4 ≤ (w.extractLsb' 24 4).toNat ∧ (w.extractLsb' 24 4).toNat ≤ 12) ∧
        (4 ≤ (w.extractLsb' 20 4).toNat ∧ (w.extractLsb' 20 4).toNat ≤ 12)
    (r.enable = false → r.outst = [] → good → exec (.ringEnable q w) s = .next (modRing q (fun r =>
      { sizes r with enable := true, sqTail := 0, sqHead := 0, cqHead := 0, cqTail := 0, phase := true, used := 0, unsent := 0 }) s)) ∧
    (r.enable = false → exec (.ringDisable q w) s = .next (modRing q sizes s)) ∧
    (r.outst = [] → txnOwner s q = false → exec (.ringReset q w) s = .next (modRing q (fun r =>
      { sizes r with
        enable := false, stopped := false, overflow := false, cause := 0, sqTail := 0, sqHead := 0, cqHead := 0, cqTail := 0,
        phase := true, used := 0, unsent := 0, discarded := satInc r.discarded 0 }) s)) ∧
    (r.enable = false → r.outst = [] → ¬ good →
      exec (.ringEnable q w) s = .next (modRing q (fun r => { sizes r with cause := 1 }) s)) ∧
    (r.enable = true → exec (.ringEnable q w) s = .next (modRing q (fun r => { r with prio := w.extractLsb' 16 2 }) s)) ∧
    (r.enable = false → r.outst ≠ [] → exec (.ringEnable q w) s = .next s) ∧
    (r.enable = true → (∀ e ∈ r.outst, e.ended.isNone → onFetchPath e.desc.opcode.toNat = false) →
      exec (.ringDisable q w) s = .next (modRing q (fun r => { r with prio := w.extractLsb' 16 2, enable := false }) s))

/-- Doorbells, the fetch of a descriptor, and DMA faults (R9, R13, R217, R364, R406, R412 to R415, R418, R423, R602). A tail or head
in the ring is taken, one beyond stops the ring pair; the head moves on as the ring pair that is next is fetched from;
BAD_DESCRIPTOR goes before SAFE_TALK, BUSY and NOT_ACTIVE. -/
def Obligations.DoorbellsAndFetch : Prop :=
  (∀ (q : RingId) (w : W32) (slot : Option Nat) (us : Nat) (s : State), (ringPair s q).stopped = false →
    let r := ringPair s q
    let v := (w.extractLsb' 0 12).toNat
    let freed := (v + 2 ^ r.cqLog2.toNat - r.cqHead.toNat) % 2 ^ r.cqLog2.toNat
    let stop (c : Nat) (s : State) : State :=
      event 0x0401 (det [(1, q.val), (1, c)]) (modRing q (fun r => { r with stopped := true, cause := BitVec.ofNat 8 c }) s)
    let counted := s.modHif fun h => { h with errDma := satInc h.errDma 1 }
    (r.enable = true → v < 2 ^ r.sqLog2.toNat →
      exec (.sqTailDoorbell q ⟨.word, w⟩) s = .next (modRing q (fun r => { r with sqTail := w.extractLsb' 0 12 }) s)) ∧
    (r.enable = true → v < 2 ^ r.cqLog2.toNat → freed ≤ r.used → exec (.cqHeadDoorbell q ⟨.word, w⟩) s =
      .next (modRing q (fun r => { r with cqHead := w.extractLsb' 0 12, used := r.used - freed }) s)) ∧
    (descAt s q slot = none → exec (.dmaError q true slot) s = .next (stop 5 counted) ∧ exec (.dmaError q false slot) s = .next (stop 4 counted)) ∧
    (descAt s q slot = none → s.hif.dmaTimeout.toNat * 1000 ≤ us → exec (.dmaTimeout q ⟨slot, us⟩) s = .next (stop 4 counted))) ∧
  (∀ (bytes dma : List Byte) (s : State) (q : RingId), mayFetch s = true → nextRing s = some q →
    let e := newOutst s q (descOf bytes) dma
    let r := ringPair s q
    exec (.descriptorFetch bytes dma) s =
      .next (settle q (dispatch q e ((modRing q (fun r =>
        { r with sqHead := BitVec.ofNat 12 ((r.sqHead.toNat + 1) % 2 ^ r.sqLog2.toNat), nextNum := r.nextNum + 1,
                 outst := r.outst ++ [e] }) s).modHif fun h =>
        { h with lastRing := vmod h.lastRing (finOr r.prio.toNat) fun _ => q }))) ∧
    e.num = r.nextNum ∧ e.slot = r.sqHead.toNat ∧ e.fetchCt = s.clk.ct ∧ e.ended = fetchRefusal s q (descOf bytes) (ownBound s q s.clk.ct (descOf bytes) dma)) ∧
  (∀ (q : RingId) (w : W32) (slot : Option Nat) (us : Nat) (s : State), (ringPair s q).stopped = false →
    let r := ringPair s q
    let v := (w.extractLsb' 0 12).toNat
    let freed := (v + 2 ^ r.cqLog2.toNat - r.cqHead.toNat) % 2 ^ r.cqLog2.toNat
    let stop (c : Nat) (s : State) : State :=
      event 0x0401 (det [(1, q.val), (1, c)]) (modRing q (fun r => { r with stopped := true, cause := BitVec.ofNat 8 c }) s)
    let counted := s.modHif fun h => { h with errDma := satInc h.errDma 1 }
    (∀ e, descAt s q slot = some e → exec (.dmaError q true slot) s = .next (endDesc q e.num (doneWith 0x09 0) (stop 5 counted))) ∧
    (us < s.hif.dmaTimeout.toNat * 1000 → exec (.dmaTimeout q ⟨slot, us⟩) s = .next s) ∧
    (r.enable = true → 2 ^ r.sqLog2.toNat ≤ v → exec (.sqTailDoorbell q ⟨.word, w⟩) s = .next (stop 2 s)) ∧
    (r.enable = true → (2 ^ r.cqLog2.toNat ≤ v ∨ r.used < freed) → exec (.cqHeadDoorbell q ⟨.word, w⟩) s = .next (stop 3 s)) ∧
    (r.enable = false → exec (.sqTailDoorbell q ⟨.word, w⟩) s = .next s ∧ exec (.cqHeadDoorbell q ⟨.word, w⟩) s = .next s) ∧
    (∀ n, n = Width.byte ∨ n = .half → exec (.sqTailDoorbell q ⟨n, w⟩) s = .next s ∧ exec (.cqHeadDoorbell q ⟨n, w⟩) s = .next s)) ∧
  (∀ (s : State) (q : RingId) (d : Desc) (own : Option Nat) (o : Nat), badField s d = some o →
    fetchRefusal s q d own = some (doneWith 0x06 o)) ∧
  (∀ (s : State) (d : Desc), assignedOps.contains d.opcode.toNat = false → badField s d = some 0) ∧
  (∀ (s : State) (d : Desc), assignedOps.contains d.opcode.toNat = true → 8 ≤ d.flags.toNat → badField s d = some 1) ∧
  (∀ (s : State) (d : Desc), assignedOps.contains d.opcode.toNat = true → d.flags.toNat < 8 → d.len % 8 ≠ 0 → badField s d = some 4) ∧
  (∀ (s : State) (q : RingId) (d : Desc) (own : Option Nat), badField s d = none →
    (s.sys.run = .safeTalk → safeTalkOps.contains d.opcode.toNat = false → fetchRefusal s q d own = some (doneWith 0x0F 0)) ∧
    (s.sys.run = .starting → startingOps.contains d.opcode.toNat = false → fetchRefusal s q d own = some (doneWith 0x04 0)) ∧
    ((s.sys.run = .running ∨ s.sys.run = .stopped) → d.authority = true → hasAuthority s = false →
      fetchRefusal s q d own = some (doneWith 0x03 0)) ∧
    ((s.sys.run = .running ∨ s.sys.run = .stopped) → hasAuthority s = true → d.deadline = 0 → fetchRefusal s q d own = none)) ∧
  (∀ (s : State) (q : RingId) (op : Nat) (e : Outst) (f : Outst → State → State × Work), readyDesc q op s = some e → e.desc.authority = true →
    hasAuthority s = false → serve q op s f = endDesc q e.num (doneWith 0x03 0) s)

/-- FENCE_CLEAR and COMPLETION_POST (R419 to R422, R429). A fence clears once no earlier descriptor of the ring pair waits, and the
work begins. The oldest completion goes to host memory where a slot is free: DONE_CT and the result into its submission slot, then
its 16 bytes at the tail, which moves on; PHASE is inverted at the wrap. -/
def Obligations.FenceAndCompletion : Prop :=
  (∀ (q : RingId) (s : State) (e : Outst) (rest : List Outst) (ct : Nat) (d : Done),
    let r := ringPair s q
    r.stopped = false → hostReachable s = true → r.used < 2 ^ r.cqLog2.toNat → r.outst = e :: rest → e.doneCt = some ct → e.ended = some d →
      ∃ t, exec (.completionPost q) s = .next t ∧
        t = moderate q (e.desc.flags.getLsbD 1) (modRing q RingPair.posted
          (emit (.dmaWrite (r.cqBase.toNat + 16 * r.cqTail.toNat)
            (leBytes 8 e.fetchCt ++ leBytes 2 e.desc.tag.toNat ++ leBytes 1 d.status.toNat ++
              leBytes 1 (bit r.phase + 2 * bit (!d.result.isEmpty)) ++ leBytes 4 d.detail.toNat)) (writeBack r e d ct s))) ∧
        (ringPair t q).outst = rest ∧ (ringPair t q).used = r.used + 1 ∧
        (ringPair t q).cqTail = BitVec.ofNat 12 ((r.cqTail.toNat + 1) % 2 ^ r.cqLog2.toNat) ∧
        (ringPair t q).phase = (if (r.cqTail.toNat + 1) % 2 ^ r.cqLog2.toNat = 0 then !r.phase else r.phase)) ∧
  (∀ s : State, (∀ q : RingId, (ringPair s q).cleared = none ∧ ∀ e ∈ (ringPair s q).dead, e.fenced = false) → exec .fenceClear s = .next s) ∧
  (∀ (q : RingId) (e : Outst) (s : State), (∀ p : RingId, (∀ x ∈ (ringPair s p).dead, x.fenced = false) ∧ (ringPair s p).cleared = if p = q then some e else none) →
    exec .fenceClear s = .next (clearFence q e s)) ∧
  (∀ (q : RingId) (e : Outst) (s : State), e.ended = none → onFetchPath e.desc.opcode.toNat = false →
    (clearFence q e s).hif.svc = s.hif.svc ++ [(q, e.num)] ∧
    (ringPair (clearFence q e s) q).outst =
      updFirst (fun x : Outst => x.num == e.num) (fun x => { x with fenced := false }) (ringPair s q).outst)

/-- The endpoint and its interrupts (R404, R405, R409, R410, R445, R593). Unmasking sends a message that is pending; an event sends
one only where its bit was 0; a reset keeps the counts, the bulk buffers and the work that goes on, and abandons the open
transaction. -/
def Obligations.EndpointAndInterrupts : Prop :=
  (∀ (q : RingId) (s : State), 0 < (ringPair s q).unsent →
    (ringPair s q).firstUnsentAt + (ringPair s q).coalUs.toNat * 1000 ≤ s.clk.now → exec (.coalTimer q) s = .next (sendRingVector q s)) ∧
  (∀ (w : W32) (s : State), ∃ t, exec (.irqCauseClear w) s = .next t ∧
    (∀ i : Nat, i < 10 → t.hif.cause.getLsbD i = (s.hif.cause.getLsbD i && !w.getLsbD i)) ∧ t = s.modHif fun h => { h with cause := t.hif.cause }) ∧
  (∀ (v : Fin 64) (s : State),
    let open' := s.modHif fun h => { h with msix := vmod h.msix v fun e => { e with masked := false, pending := false } }
    ((s.hif.msix.get v).pending = true → exec (.msixUnmask v) s = .next (emit (.msix v.val (s.hif.msix.get v).addr (s.hif.msix.get v).data) open')) ∧
    ((s.hif.msix.get v).pending = false → exec (.msixUnmask v) s = .next open')) ∧
  (∀ (d3 : Bool) (s : State), exec (.pciePowerStateChange d3) s = .next (s.modHif fun h => { h with d3 := d3 })) ∧
  (∀ (w : W32) (s : State), exec (.pcieUncorrectableError w) s = .next (event 0x040A (det [(4, w.toNat)]) s)) ∧
  (∀ (width rate : BitVec 4) (s : State), s.sys.inReset = false → s.rtc.vecDue = false →
    exec (.pcieLinkUp width rate) s = .next (event 0x0405 (det [(1, width.toNat), (1, rate.toNat)])
      (s.modHif fun h => { h with linkUp := true, width := width, rate := rate, bme := true }))) ∧
  (∀ (k : HifResetKind) (s : State), let s1 := s.modHif (Hif.reset (s.hif.linkUp && k == .functionLevel))
    exec (.hifReset k) s = .next (event 0x0404 (det [(1, match k with | .linkDown => 1 | .hotReset => 2 | .functionLevel => 3)])
      (abandonTxn 4 ((allFin 32).foldl (fun t q => noteDiscard q (ringPair s1 q).outst.length t) s1)))) ∧
  (∀ (i : Fin 10) (s : State),
    let v : Fin 64 := ⟨32 + i.val, by omega⟩
    let set := s.modHif fun h => { h with cause := h.cause ||| (1#10 <<< i.val) }
    (s.hif.cause.getLsbD i.val = true → raise (32 + i.val) s = s) ∧
    (s.hif.cause.getLsbD i.val = false → (s.hif.msix.get v).masked = false →
      raise (32 + i.val) s = emit (.msix (32 + i.val) (s.hif.msix.get v).addr (s.hif.msix.get v).data) set) ∧
    (s.hif.cause.getLsbD i.val = false → (s.hif.msix.get v).masked = true →
      raise (32 + i.val) s = set.modHif fun h => { h with msix := vmod h.msix v fun e => { e with pending := true } })) ∧
  (∀ (h : Hif) (up : Bool) (q : RingId), let r := (Hif.reset up h).rings.get q
    r.enable = false ∧ r.outst = [] ∧ r.sqTail = 0 ∧ r.cqTail = 0 ∧ r.phase = true ∧
      r.discarded = satInc (h.rings.get q).discarded (h.rings.get q).outst.length ∧ (Hif.reset up h).cause = 0 ∧
      (Hif.reset up h).errDma = h.errDma ∧ (Hif.reset up h).bulk = h.bulk)

/-- NOP, TIME_READ, MODULE_INFO, RING_STATUS and the bulk buffers (R430, R431): results; the lowest free range that is large enough,
or NO_SPACE; a buffer in use is BAD_STATE, one unknown NOT_FOUND. -/
def Obligations.HostReadsAndBulk : Prop :=
  ∀ (q p : RingId) (s : State) (e : Outst) (o : Nat) (b : BulkBuf),
    let fin (d : Done) (t : State) := endDesc q e.num d t
    let at' := e.desc.par 24 8
    (served s q 0x01 e → exec (.nop q) s = .next (fin (doneOk []) s)) ∧
    (served s q 0x02 e → exec (.timeRead q) s = .next (fin (doneOk (fields [(8, s.clk.ct), (1, s.tim.quality.code), (31, 0)])) s)) ∧
    (served s q 0x03 e → exec (.moduleInfo q) s = .next (fin (doneOk (fields ([(4, glbId s), (4, glbOption s)] ++
      (List.range 8).map fun i => (4, (featWord i).toNat)))) s)) ∧
    (served s q 0x04 e → e.desc.par 24 1 = p.val → exec (.ringStatus q) s = .next (fin (doneOk (fields [(4, rpState s p),
      (2, (ringPair s p).sqHead.toNat), (2, (ringPair s p).cqTail.toNat), (4, rpCount s p)])) s)) ∧
    (served s q 0x05 e → bulkPlace s at' = some o → exec (.bulkAlloc q) s = .next (fin (doneOk (fields [(8, o)]))
      (s.modHif fun h => { h with bulk := h.bulk ++ [{ offset := o, size := at' }] }))) ∧
    (served s q 0x06 e → s.hif.bulk.find? (fun b => b.offset == at') = some b → bulkInUse s b = false →
      exec (.bulkFree q) s = .next (fin (doneOk []) (s.modHif fun h => { h with bulk := h.bulk.filter fun x => x.offset != b.offset }))) ∧
    (served s q 0x05 e → bulkPlace s at' = none → exec (.bulkAlloc q) s = .next (fin (doneWith 0x11 0) s)) ∧
    (served s q 0x06 e → s.hif.bulk.find? (fun b => b.offset == at') = some b → bulkInUse s b = true →
      exec (.bulkFree q) s = .next (fin (doneWith 0x07 0) s)) ∧
    (served s q 0x06 e → s.hif.bulk.find? (fun b => b.offset == at') = none → exec (.bulkFree q) s = .next (fin (doneWith 0x08 0) s))

/-- TXN_OPEN, TXN_STAGE and RWS_WRITE (R13, R15, R432, R434): one transaction at a time, of one ring pair; what is staged takes the
place of an object of its kind and ring, or stands after the earlier RWS words, and leaves the set unchecked; 2 MiB at most. -/
def Obligations.TransactionStaging : Prop :=
  ∀ (q : RingId) (dma bs : List Byte) (kind ring off : Nat) (w : W32) (s : State) (e : Outst),
    let fin (d : Done) (t : State) := endDesc q e.num d t
    let timed := s.modTxn fun t => { t with lastOpAt := s.clk.now }
    let o : StagedObj := { kind := kind, ring := if kind = 3 then ring else 0, bytes := bs }
    let objs := (s.txn.objs.filter fun x => !(x.kind == o.kind && x.ring == o.ring)) ++ [o]
    let isOpen := s.txn.phase = .opened ∨ s.txn.phase = .checked
    let mayWrite := rwsOffsets.contains off = true ∧ s.sys.run ≠ .safeTalk ∧ hasAuthority s = true
    (served s q 0x10 e → s.txn.phase = .none → exec (.txnOpen q) s = .next (fin (doneOk (fields [(1, (s.txn.num + 1).toNat)])) (s.modTxn fun t =>
      { t with phase := .opened, num := t.num + 1, owner := q, objs := [], rws := [], switch := none, required := [], acked := [],
               apply := none, lastOpAt := s.clk.now }))) ∧
    (served s q 0x11 e → ownsTxn s q = true → e.desc.par 24 1 = kind → e.desc.par 25 1 = ring → bufRead e.desc dma s = bs →
      1 ≤ kind → kind ≤ 5 → (kind = 3 → ring ≤ 3) →
      (stagedBytes objs s.txn.rws ≤ 2097152 → exec (.txnStage q dma) s = .next (fin (doneOk []) (mirror (.txnStage kind ring bs)
        (timed.modTxn fun t => { t with phase := .opened, objs := objs, rws := s.txn.rws })))) ∧
      (2097152 < stagedBytes objs s.txn.rws → exec (.txnStage q dma) s = .next (fin (doneWith 0x11 0) timed))) ∧
    (served s q 0x10 e → s.txn.phase ≠ .none → exec (.txnOpen q) s = .next (fin (doneWith 0x10 0) s)) ∧
    (served s q 0x11 e → ownsTxn s q = false → exec (.txnStage q dma) s = .next (fin (doneWith 0x10 0) s)) ∧
    (mayWrite → s.txn.phase = .none → exec (.rwsWrite off w) s = .next s) ∧
    (mayWrite → isOpen → stagedBytes s.txn.objs s.txn.rws + 8 ≤ 2097152 → exec (.rwsWrite off w) s = .next (mirror (.txnRws off w)
      (s.modTxn fun t => { t with phase := .opened, objs := s.txn.objs, rws := s.txn.rws ++ [(off, w)] }))) ∧
    (mayWrite → isOpen → 2097152 < stagedBytes s.txn.objs s.txn.rws + 8 →
      exec (.rwsWrite off w) s = .next (event 0x040B (det [(4, off), (1, 2)]) s)) ∧
    (mayWrite → s.txn.phase = .applying ∨ s.txn.phase = .committed → exec (.rwsWrite off w) s = .next (event 0x040B (det [(4, off), (1, 1)]) s))

/-- TXN_CHECK, TXN_APPLY, TXN_DECISION, TXN_APPLY_INSTANT (R435, R437 to R440): a checked set names X and waits for it; at D_T it
commits where no required unit lacks and aborts else; at X all of it comes in force, with class 0x0406. -/
def Obligations.TransactionCheckAndApply : Prop :=
  ∀ (q : RingId) (s : State) (e : Outst) (x : Nat),
    let fin (d : Done) (t : State) := endDesc q e.num d t
    let refused (d : Nat) := fin (doneWith 0x05 d) (mirror .txnAbandon (dropTxn 0x05 (d % 256) s))
    let named := s.txn.phase = .checked ∧ s.txn.owner = q ∧ e.desc.par 24 1 ≤ 1 ∧ ringsBusy s = false ∧
      namedInstant s (e.desc.par 24 1) (e.desc.par 25 1) (e.desc.par 32 8) = some x
    (served s q 0x12 e → ownsTxn s q = true → checkTxn s e.fetchCt = none →
      exec (.txnCheck q) s = .next (fin (doneOk []) (s.modTxn fun t => { t with lastOpAt := s.clk.now, phase := .checked }))) ∧
    (served s q 0x13 e → named → applyRefusal s e.fetchCt x = none →
      exec (.txnApply q) s = .next (waitDesc q e.num (some x) (beginApply e.num x (touchTxn s)))) ∧
    (s.txn.phase = .applying → s.txn.dT ≤ s.clk.ct → hasAuthority s = true → missingUnit s = none →
      exec .txnDecision s = .next (commitTxn s)) ∧
    (s.txn.phase = .committed → s.txn.x ≤ s.clk.ct → s.prg.sw = none → s.txn.switch = none → exec .txnApplyInstant s = .next (runReads
      (endApplied s.txn.x (applySet s.txn.objs s.txn.rws s.prg.entries (edgeEntries s.prg.entries) s.txn.x s)))) ∧
    (served s q 0x12 e → ownsTxn s q = false → exec (.txnCheck q) s = .next (fin (doneWith 0x10 0) s)) ∧
    (∀ d, served s q 0x12 e → ownsTxn s q = true → checkTxn s e.fetchCt = some d → exec (.txnCheck q) s = .next (refused d)) ∧
    (∀ d, served s q 0x13 e → named → applyRefusal s e.fetchCt x = some d → exec (.txnApply q) s = .next (refused d)) ∧
    (s.txn.phase = .applying → s.txn.dT ≤ s.clk.ct → hasAuthority s = true → mirrors s = false →
      ∀ k w n, missingUnit s = some (k, w, n) → exec .txnDecision s = .next (abortTxn k w n s)) ∧
    ((s.txn.phase ≠ .applying ∨ s.clk.ct < s.txn.dT) → exec .txnDecision s = .next s) ∧
    ((s.txn.phase ≠ .committed ∨ s.clk.ct < s.txn.x) → exec .txnApplyInstant s = .next s) ∧
    (s.txn.apply = none → endApplied x s = ((event 0x0406 (det [(8, x)]) s).modPrg fun p => { p with entries := [] }).modTxn fun t =>
      { t with
        phase := .none, objs := [], rws := [], switch := none, required := [], acked := [], apply := none, lastTxn := t.num,
        lastStatus := 0, lastReason := 0, saveDue := some x, saved := false })

/-- TXN_ABANDON, TXN_IDLE_TIMEOUT, TXN_STATUS, TXN_READ and CONFIG_SAVE (R432, R440, R441, R518, R660). -/
def Obligations.TransactionEnds : Prop :=
  ∀ (q : RingId) (s : State) (e : Outst) (cut : Option Nat),
    let fin (d : Done) (t : State) := endDesc q e.num d t
    let dropped (cause : Nat) := mirror .txnAbandon (dropTxn 0x0C 0 (event 0x0408 (det [(1, cause)]) (abortRings s)))
    let isOpen := s.txn.phase = .opened ∨ s.txn.phase = .checked
    let es := appliedEntries s
    let fit := fitEntries e.desc.len es
    let saved := saveGroup 2 0 0xE100 es.flatten.length (pagesOf (es.flatten.length / 256 + 1) es.flatten) cut (s.modTxn fun t => { t with saveDue := none })
    (served s q 0x14 e → isOpen → s.txn.owner = q → s.txn.apply = none → exec (.txnAbandon q) s = .next (fin (doneOk []) (dropped 1))) ∧
    (isOpen → s.txn.apply = none → s.txn.lastOpAt + 600000000000 ≤ s.clk.now → exec .txnIdleTimeout s = .next (dropped 2)) ∧
    (served s q 0x15 e → exec (.txnStatus q) s = .next (fin (doneOk (fields [(1, s.txn.phase.code), (1, stagedKinds s), (6, 0),
      (8, s.txn.xReg), (8, if s.txn.phase = .none then 0 else s.txn.dT)])) s)) ∧
    (served s q 0x16 e → e.desc.par 24 1 = 0 → exec (.txnRead q) s = .next (fin
      { status := if fit.length = es.length then 0x00 else 0x11, detail := 0, result := fields [(4, fit.flatten.length)] }
      (bufWrite e.desc 0 fit.flatten s))) ∧
    (s.txn.saveDue.isSome → es.flatten.length ≤ 983040 →
      exec (.configSave cut) s = .next (saved.2.modTxn fun t => { t with saved := saved.1 })) ∧
    (served s q 0x14 e → (s.txn.phase = .none ∨ s.txn.owner ≠ q) → exec (.txnAbandon q) s = .next (fin (doneWith 0x10 0) s)) ∧
    (served s q 0x14 e → (s.txn.phase = .committed ∨ (s.txn.phase = .applying ∧ s.txn.dT ≤ s.clk.ct)) → s.txn.owner = q →
      exec (.txnAbandon q) s = .next (fin (doneWith 0x07 0) s)) ∧
    (s.clk.now < s.txn.lastOpAt + 600000000000 → exec .txnIdleTimeout s = .next s) ∧
    (served s q 0x16 e → e.desc.par 24 1 = 1 → (s.txn.phase = .none ∨ s.txn.owner ≠ q) →
      exec (.txnRead q) s = .next (fin (doneWith 0x10 0) s)) ∧
    (s.txn.saveDue = none → exec (.configSave cut) s = .next s) ∧
    (s.txn.saveDue.isSome → 983040 < es.flatten.length → exec (.configSave cut) s =
      .next (event 0x070D (det [(4, es.flatten.length)]) (s.modTxn fun t => { t with saveDue := none })))

/-- REGISTER_WRITE (R9, R10, R13): 32 bits to registers with RW and W1C fields change those fields alone; a write of 8 or 16 bits and
one to an offset that holds no field a write can change leave the module as it was. -/
def Obligations.RegisterWrites : Prop :=
  (∀ (w : W32) (s : State),
    (1 ≤ w.toNat % 256 → w.toNat % 256 ≤ 100 →
      exec (.registerWrite 0x8000 .word w) s = .next (s.modHif fun h => { h with dmaTimeout := w.extractLsb' 0 8 })) ∧
    ((w.toNat % 256 = 0 ∨ 100 < w.toNat % 256) → exec (.registerWrite 0x8000 .word w) s = .next s) ∧
    exec (.registerWrite 0x80000 .word w) s =
      .next (s.modCmt fun c => { c with enable := w.getLsbD 0, stopFull := w.getLsbD 1, trigArm := w.getLsbD 2 }) ∧
    exec (.registerWrite 0x80018 .word w) s =
      .next (s.modCmt fun c => { c with trigClass := w.extractLsb' 16 16, trigPost := w.extractLsb' 0 16 }) ∧
    exec (.registerWrite 0x8008 .word w) s = exec (.irqCauseClear w) s ∧
    exec (.registerWrite 0x6010 .word w) s = .next (s.modRtc fun r =>
      { r with vbatLost := r.vbatLost && !w.getLsbD 2, oscStop := r.oscStop && !w.getLsbD 3, badWrite := r.badWrite && !w.getLsbD 6 }) ∧
    (∀ i : Fin 8, ∃ t, exec (.registerWrite (0x7040 + 4 * i.val) .word w) s = .next t ∧
      t.wdg.faults.get i = s.wdg.faults.get i &&& ~~~ w ∧ (∀ j : Fin 8, j ≠ i → t.wdg.faults.get j = s.wdg.faults.get j) ∧
      t = s.modWdg fun x => { x with faults := t.wdg.faults })) ∧
  (∀ (off : Nat) (w : W32) (s : State), exec (.registerWrite off .byte w) s = .next s ∧ exec (.registerWrite off .half w) s = .next s) ∧
  (∀ (off : Nat) (w : W32) (s : State), rwsOffsets.contains off = false → rwpOffsets.contains off = false →
    [0x1020, 0x4018, 0x401C, 0x6004, 0x6008, 0x6010, 0x6014, 0x6018, 0x601C, 0x8000, 0x8008, 0x80000, 0x80018].contains off = false →
    ¬ (0x7040 ≤ off ∧ off < 0x7060) → ¬ (0x8400 ≤ off ∧ off < 0x8C00) → ¬ (0xA000 ≤ off ∧ off < 0xA400) →
    ¬ (0x40100 ≤ off ∧ off < 0x40180) → exec (.registerWrite off .word w) s = .next s)

/-- PAIR_READ_LATCH, PAIR_WRITE_HOLD, RWS_WRITE (R11 to R14, R411, R434): a read of a lower register latches the higher one; the lower
word of a ring base is held until the higher one is written; a staged RWS value does not read before it is in force, an RWP value
at once. -/
def Obligations.RegisterValues : Prop :=
  (∀ (off : Nat) (s : State),
    (pairLows.contains off = true → ∃ t, exec (.pairReadLatch off) s = .next t ∧ regRead t (off + 4) = liveWord s (off + 4) ∧
      (∀ o, o ≠ off + 4 → regRead t o = regRead s o) ∧ { t with bar := s.bar } = s) ∧
    (pairLows.contains off = false → ∃ t, exec (.pairReadLatch off) s = .next t ∧ regRead t off = liveWord s off ∧
      (∀ o, o ≠ off → regRead t o = regRead s o) ∧ { t with bar := s.bar } = s)) ∧
  (∀ (q : RingId) (lo hi : W32) (s : State), let off := 0x8400 + 64 * q.val
    ((ringPair s q).enable = false → ∃ t u, exec (.pairWriteHold off lo) s = .next t ∧ exec (.registerWrite (off + 4) .word hi) t = .next u ∧
      ringPair t q = ringPair s q ∧ ringPair u q = { ringPair s q with sqBase := hi ++ lo } ∧
      (∀ p : RingId, p ≠ q → ringPair u p = ringPair s p) ∧ assoc? off u.bar.held = none) ∧
    ((ringPair s q).enable = true → exec (.pairWriteHold off lo) s = .next s ∧
      ∃ u, exec (.registerWrite (off + 4) .word hi) s = .next u ∧ ∀ p : RingId, ringPair u p = ringPair s p)) ∧
  (∀ (off : Nat) (w : W32) (s : State), ∃ t, exec (.rwsWrite off w) s = .next t ∧ t.rws = s.rws ∧
    (∀ o, rwsOffsets.contains o = true → assoc? o s.bar.shadow = none → regRead t o = regRead s o) ∧
    (rwsOffsets.contains off = true → s.sys.run ≠ .safeTalk → hasAuthority s = true → s.txn.phase = .opened →
      stagedBytes s.txn.objs s.txn.rws + 8 ≤ 2097152 → t.txn.rws = s.txn.rws ++ [(off, w)])) ∧
  (∀ (r : Rws) (off : Nat) (w : W32), rwsOffsets.contains off = true →
    rwsWord (rwsPut r off w) off &&& rwsMask off = w &&& rwsMask off ∧
    (rwsWord (rwsPut r off w) off &&& ~~~ rwsMask off = rwsWord r off &&& ~~~ rwsMask off) ∧
    (∀ o, rwsOffsets.contains o = true → o ≠ off → rwsWord (rwsPut r off w) o = rwsWord r o)) ∧
  (∀ (off : Nat) (w : W32) (s : State), rwpOffsets.contains off = true → off ≠ 0x600C → off ≠ 0x7000 → off ≠ 0x30004 →
    pairMember s = false → s.pst.rwpBad = false → assoc? off s.bar.shadow = none →
    ∃ t, exec (.registerWrite off .word w) s = .next t ∧ regRead t off = w &&& rwpMask off ∧ t.rwp.changed = true ∧
      { t with rwp := s.rwp } = s ∧ (∀ o, rwpOffsets.contains o = true → o ≠ off → rwpWord t.rwp o = rwpWord s.rwp o)) ∧
  (∀ (q : RingId) (s : State), doorbellRead s (0x1000 * q.val) 4 = (ringPair s q).sqTail.toNat ∧
    doorbellRead s (0x1000 * q.val + 4) 4 = (ringPair s q).cqHead.toNat ∧ doorbellRead s (0x1000 * q.val + 8) 4 = (ringPair s q).sqHead.toNat ∧
    doorbellRead s (0x1000 * q.val + 12) 4 = bit (ringPair s q).phase * 4096 + (ringPair s q).cqTail.toNat ∧
    ∀ off, 0x20000 ≤ off ∨ 16 ≤ off % 0x1000 → doorbellRead s off 4 = 0 ∧ ∀ w, doorbellWrite off .word w s = s)

/-- TRACE_DRAIN, TRACE_LOSS_RECORD and TRACE_FREEZE (R73, R74, R76, R82): a staged record moves into the partition, at its end in
place of the oldest; one loss record gives the number lost; the freeze follows the trigger. Every generated record takes the next
number. -/
def Obligations.TraceWriter : Prop :=
  (∀ s : State,
    (0 < s.cmt.dropCount → s.cmt.stage.length < 8192 → s.cmt.silent = false → s.cmt.enable = true →
      exec .traceLossRecord s = .next (traceGen 8 0 0 (fields [(4, s.cmt.dropCount), (8, s.cmt.dropFirst), (4, 0)]) s.clk.ct
        (s.modCmt fun c => { c with dropCount := 0, dropFirst := 0 }))) ∧
    (s.cmt.post = some 0 →
      exec .traceFreeze s = .next (raise 32 (s.modCmt fun c => { c with frozen := true, trigArm := false, post := none }))) ∧
    (∀ n : Nat, ∃ t, exec (.traceDrain n) s = .next t ∧ { t with cmt := s.cmt } = s ∧ t.cmt.head = s.cmt.head) ∧
    (∀ (r : TraceRec) (rest : List TraceRec), s.cmt.stage = r :: rest → s.cmt.full = false →
      (s.cmt.recs.length < s.part.trace * 1048576 / 32 → ∃ t, exec (.traceDrain 1) s = .next t ∧
        t.cmt.recs = s.cmt.recs ++ [r] ∧ t.cmt.stage = rest ∧ t.cmt.tail = s.cmt.tail) ∧
      (s.part.trace * 1048576 / 32 ≤ s.cmt.recs.length → s.cmt.stopFull = true → ∃ t, exec (.traceDrain 1) s = .next t ∧
        t.cmt.recs = s.cmt.recs ∧ t.cmt.stage = r :: rest ∧ t.cmt.full = true) ∧
      (∀ x y more, s.part.trace * 1048576 / 32 ≤ s.cmt.recs.length → s.cmt.stopFull = false → s.cmt.recs = x :: y :: more →
        ∃ t, exec (.traceDrain 1) s = .next t ∧ t.cmt.recs = y :: more ++ [r] ∧ t.cmt.stage = rest ∧ t.cmt.tail = y.seq ∧
          t.cmt.wrapped = true)) ∧
    (s.cmt.dropCount = 0 → exec .traceLossRecord s = .next s) ∧ (s.cmt.post ≠ some 0 → exec .traceFreeze s = .next s)) ∧
  (∀ (typ flags source : Nat) (body : List Byte) (ct : Nat) (s : State), traceTypeOn s typ = true →
    let t := traceGen typ flags source body ct s
    t.cmt.head = s.cmt.head + 1 ∧ { t with cmt := s.cmt } = s ∧
    (s.cmt.silent = false → s.cmt.stage.length < 8192 →
      ∃ r : TraceRec, t.cmt.stage = s.cmt.stage ++ [r] ∧ r.seq = s.cmt.head ∧ r.ct = ct ∧ t.cmt.lost = s.cmt.lost) ∧
    (s.cmt.silent = true ∨ 8192 ≤ s.cmt.stage.length → t.cmt.stage = s.cmt.stage ∧ t.cmt.lost = satInc s.cmt.lost 1))

/-- CMT_READ, CMT_MARK, CMT_RESUME and CMT_STATUS_READ (R83, R88 to R90): a read copies the records kept from the number asked for, or
from CMT_TAIL where that is later; from CMT_HEAD on it finds none. An event goes to the trace, and to the recorder where marked
(R77, R538, R541, R543, R544). -/
def Obligations.TraceDescriptors : Prop :=
  (∀ (q : RingId) (s : State) (e : Outst),
    let fin (d : Done) (t : State) := endDesc q e.num d t
    let want : W32 := BitVec.ofNat 32 (e.desc.par 24 4)
    (served s q 0x69 e → s.cmt.enable = true → exec (.cmtMark q) s =
      .next (fin (doneOk (fields [(4, s.cmt.head.toNat)])) (traceGen 9 0 q.val (slice e.desc.param 0 16) s.clk.ct s))) ∧
    (served s q 0x6A e → s.cmt.frozen = true → s.cmt.full = false → s.cmt.enable = true → 0 < s.cmt.stopCount →
      exec (.cmtResume q) s = .next (fin (doneOk (fields [(4, s.cmt.head.toNat)]))
        (traceGen 8 0 0 (fields [(4, s.cmt.stopCount), (8, s.cmt.stopFirst), (4, 0)]) s.clk.ct
          (s.modCmt fun c => { c with frozen := false, full := false, stopCount := 0, stopFirst := 0 })))) ∧
    (served s q 0x6B e → exec (.cmtStatusRead q) s = .next (fin (doneOk (fields [(4, s.cmt.head.toNat), (4, s.cmt.tail.toNat),
      (4, s.cmt.lost.toNat), (4, bit s.cmt.frozen + 2 * bit s.cmt.full + 4 * bit s.cmt.wrapped)])) s)) ∧
    (served s q 0x68 e → s.cmt.all = [] ∨ 0 ≤ serialDiff want s.cmt.head → exec (.cmtRead q 0) s =
      .next (fin (doneOk (fields [(4, s.cmt.head.toNat), (4, 0), (4, s.cmt.tail.toNat)])) s)) ∧
    (∀ r rs, served s q 0x68 e → s.cmt.all ≠ [] → serialDiff want s.cmt.head < 0 →
      s.cmt.from_ (if serialDiff want s.cmt.tail < 0 then s.cmt.tail else want) (e.desc.len / 32) = r :: rs →
      exec (.cmtRead q 0) s = .next (fin (doneOk (fields [(4, r.seq.toNat), (4, rs.length + 1), (4, s.cmt.tail.toNat)]))
        (bufWrite e.desc 0 ((r :: rs).flatMap TraceRec.bytes) s))) ∧
    (served s q 0x6A e → s.cmt.frozen = false → s.cmt.full = false → exec (.cmtResume q) s = .next (fin (doneWith 0x07 0) s))) ∧
  (∀ (cls source depth : Nat) (detail : W64) (ct : Nat) (s : State),
    let t := eventAt cls source depth detail ct s
    (∃ c e l h m o, t = { s with cmt := c, evr := e, mtr := { s.mtr with events := l }, hif := { s.hif with cause := h, msix := m }, out := o }) ∧
    t.cmt = (traceGen 5 0 source (fields [(2, cls), (1, depth), (1, 0), (8, detail.toNat)]) ct s).cmt ∧
    (classRecorded cls = false → t.evr = s.evr ∧ t.mtr = s.mtr) ∧
    (classRecorded cls = true → cls / 256 ≠ 6 → cls < 65536 → t.mtr = s.mtr ∧
      (s.evr.full = false → s.evr.fault = false → s.evr.queue.length < 256 → ∃ i : EvItem, t.evr.queue = s.evr.enqueue i ∧
        i.cls = BitVec.ofNat 16 cls ∧ i.detail = detail ∧ i.source = BitVec.ofNat 16 source ∧ i.ct = (if s.tim.seeded then ct else 0) ∧
        i.pcycles = s.sys.pcycles ∧ i.traceSeq = traceSeqNow s 5 ∧ i.arrived = s.clk.now) ∧
      (s.evr.full = false → s.evr.fault = false → 256 ≤ s.evr.queue.length →
        t.evr.queue = s.evr.queue ∧ t.evr.dropped = satInc s.evr.dropped 1) ∧
      (s.evr.full = true ∨ s.evr.fault = true → t.evr.queue = s.evr.queue ∧ t.evr.overflow = satInc s.evr.overflow 1)) ∧
    (∀ (i : EvItem) (e : Evr), (∀ x ∈ e.queue, x.arrived ≠ i.arrived) → e.enqueue i = e.queue ++ [i]))

/-- EVR_RECORD_WRITE, EVR_WRITE_REPEAT (R542, R544), EVR_READ and EVR_STATUS_READ (R550): the front record is written into its slot
twice, first with VALID 0, then 0xA5; a failed attempt is repeated after 10 ms; after the third repetition the recorder stops. -/
def Obligations.Recorder : Prop :=
  ∀ (q : RingId) (s : State) (e : Outst) (f1 f2 : Fin 3) (i : EvItem) (rest : List EvItem) (at_ : Nat) (bs : List Byte),
    let fin (d : Done) (t : State) := endDesc q e.num d t
    let n := s.evr.next
    let r1 := writeSlot n (i.record n false) f1.val s
    let r2 := writeSlot n (i.record n true) f2.val r1.2
    let a := e.desc.par 24 4
    let k := min (e.desc.len / 64) (32768 - a)
    let r := readPages (49152 + a / 4) (if k = 0 then 0 else (a + k - 1) / 4 + 1 - a / 4) s
    let front := mayRecord s = true ∧ s.evr.queue = i :: rest
    let due := s.evr.retryAt = some at_ ∧ at_ ≤ s.clk.now
    (front → s.evr.retryAt = none → r1.1 = true → r2.1 = true →
      exec (.evrRecordWrite f1 f2 false) s = .next (noteDropped (recordDone i rest r2.2))) ∧
    (front → due → r1.1 = true → r2.1 = true → exec (.evrWriteRepeat f1 f2) s = .next (noteDropped (recordDone i rest r2.2))) ∧
    (served s q 0x60 e → a ≤ 32767 → r.1 = some bs → exec (.evrRead q) s =
      .next (fin (doneOk (fields [(4, a), (4, k), (4, n)])) (bufWrite e.desc 0 (slice bs (64 * (a % 4)) (64 * k)) r.2))) ∧
    (served s q 0x61 e → exec (.evrStatusRead q) s =
      .next (fin (doneOk (fields [(4, evrStatus s), (4, n), (4, s.evr.overflow.toNat), (4, s.evr.dropped.toNat)])) s)) ∧
    (front → s.evr.retryAt = none → r1.1 = false → exec (.evrRecordWrite f1 f2 false) s = .next (recordFailed r1.2)) ∧
    (front → s.evr.retryAt = none → r1.1 = true → r2.1 = false → exec (.evrRecordWrite f1 f2 false) s = .next (recordFailed r2.2)) ∧
    (front → due → r1.1 = false → exec (.evrWriteRepeat f1 f2) s = .next (recordFailed r1.2)) ∧
    (front → due → r1.1 = true → r2.1 = false → exec (.evrWriteRepeat f1 f2) s = .next (recordFailed r2.2)) ∧
    (s.evr.tries < 3 → recordFailed s = s.modEvr fun e => { e with tries := e.tries + 1, retryAt := some (s.clk.now + 10000000) }) ∧
    (3 ≤ s.evr.tries → (recordFailed s).evr.fault = true ∧ (recordFailed s).evr.queue = []) ∧
    (served s q 0x60 e → a ≤ 32767 → r.1 = none → exec (.evrRead q) s = .next (fin (doneWith 0x0A 0) r.2))

/-- TIM_SET, SYNC_RECEIVED, CHIP_TIME_SEED, CHIP_TIME_SAVE (R12, R62, R63, R66 to R69, R590): chip time is stepped while no program
runs in cycles, followed at a bounded rate, started from the calendar or the time last saved, and saved every 60 s. -/
def Obligations.ChipTime : Prop :=
  (∀ (hi : W32) (s : State), inCycles s = false → s.tim.seeded = false → ∃ t, exec (.timSet hi) s = .next t ∧
    t.clk.ct = hi.toNat * 4294967296 + ((assoc? 0x4018 s.bar.held).getD 0).toNat ∧ t.clk.now = s.clk.now ∧
    t.tim.base = s.tim.base + 1 ∧ t.tim.source = 2 ∧ t.tim.quality = (if s.tim.grandmaster then .locked else .free)) ∧
  (∀ (p : PortId) (o : Int) (s : State), s.tim.seeded = true → s.tim.slavePort = some p → inCycles s = true →
    exec (.syncReceived p ⟨ptpDomain s, o⟩) s = .next (syncFrom o s)) ∧
  (∀ s : State, s.tim.seeded = true → s.sys.vinPresent = true → s.sys.inReset = false → s.tim.savedAt + 60000000000 ≤ s.clk.now →
    exec .chipTimeSave s = .next (saveTimePage (s.modTim fun t => { t with savedAt := s.clk.now }))) ∧
  (∀ s : State, s.sys.step = 5 → s.sys.inReset = false →
    let u := s.modFree (· + 1)
    (s.rtc.valid = false → exec .chipTimeSeed s = .next (seedTime (savedTime s + 60000000000) 0 .free s)) ∧
    (s.rtc.valid = true → rtcTicks s = 0 → exec .chipTimeSeed s = .next (if calendarRead s then
      seedTime ((946684800 + s.rtc.cal.seconds + s.rwp.taiUtc.toNat % 65536) * 1000000000) 1 .seeded u else event 0x0807 0 u)) ∧
    (s.rtc.valid = true → rtcTicks s ≠ 0 → exec .chipTimeSeed s = .next s)) ∧
  (∀ (hi : W32) (s : State), inCycles s = true →
    exec (.timSet hi) s = .next (event 0x0C02 (det [(8, hi.toNat * 4294967296 + ((assoc? 0x4018 s.bar.held).getD 0).toNat)])
      (s.modBar fun b => { b with held := b.held.filter fun x => x.1 != 0x4018 }))) ∧
  (∀ (o : Int) (s : State), inCycles s = true → (takeSync o s).clk = s.clk ∧ (takeSync o s).tim.base = s.tim.base ∧
    (takeSync o s).tim.rate.natAbs ≤ 200000000) ∧
  (∀ (o : Int) (s : State), inCycles s = false → 1000000 < o.natAbs →
    (takeSync o s).clk.ct = ((s.clk.ct : Int) - o).toNat ∧ (takeSync o s).tim.base = s.tim.base + 1) ∧
  (∀ (p : PortId) (d : Nat) (o : Int) (s : State), s.tim.seeded = false ∨ s.tim.slavePort ≠ some p ∨ d ≠ ptpDomain s →
    exec (.syncReceived p ⟨d, o⟩) s = .next s) ∧
  (∀ (ct : Nat) (s : State), s.tim.grandmaster = false → timRole s = 0 → (seedTime ct 1 .seeded s).clk.ct = ct ∧
    (seedTime ct 1 .seeded s).tim.quality = .seeded ∧ (seedTime ct 1 .seeded s).sys.step = 6) ∧
  (∀ s : State, s.sys.step ≠ 5 → exec .chipTimeSeed s = .next s) ∧
  (∀ s : State, s.clk.now < s.tim.savedAt + 60000000000 → exec .chipTimeSave s = .next s)

/-- SYNC_RECEIPT_TIMEOUT, HOLDOVER_EXPIRY, REFCLK_FAULT_SET, REFCLK_FAULT_CLEAR, VBAT_CHECK, OSC_STOP (R66, R69, R568, R569, R649): a
locked module that is not grandmaster goes to holdover, holdover ends free-running; a reference-clock fault is recorded at its
onset and cleared after 1 s. -/
def Obligations.TimeQuality : Prop :=
  ∀ (s : State) (mv : W16),
    let late := s.tim.quality = .locked ∧ s.tim.grandmaster = false ∧ s.tim.lastSyncAt + 3 * syncInterval s ≤ s.clk.now
    (late → s.tim.slavePort = none → exec .syncReceiptTimeout s = .next (selectRole (setQuality .holdover s.tim.offset s))) ∧
    (s.tim.quality = .holdover → s.tim.holdoverAt + s.rws.timHoldover.toNat % 4096 * 1000000000 ≤ s.clk.now →
      exec .holdoverExpiry s = .next (selectRole (setQuality .free s.tim.offset s))) ∧
    (s.tim.refFault = false → exec .refclkFaultSet s =
      .next (event 0x0C04 (det [(1, 1)]) (s.modTim fun t => { t with refFault := true, refBadSince := some s.clk.now }))) ∧
    (∀ b, s.tim.refFault = true → s.tim.refBadSince = some b → b + 1000000000 ≤ s.clk.now → exec .refclkFaultClear s =
      .next (event 0x0C04 (det [(1, 0)]) (s.modTim fun t => { t with refFault := false, refBadSince := none }))) ∧
    (s.sys.vinPresent = true → s.rtc.vbatAt + 60000000000 ≤ s.clk.now → 2200 ≤ mv.toNat →
      exec (.vbatCheck mv) s = .next (s.modRtc fun r => { r with vbatAt := s.clk.now, vbatLow := false })) ∧
    exec .oscStop s = .next (s.modRtc fun r => { r with oscStop := true, lossDue := true }) ∧
    (∀ p, late → s.tim.slavePort = some p → exec .syncReceiptTimeout s = .next (selectRole ((setQuality .holdover s.tim.offset s).modTim fun t =>
      { t with ports := vmod t.ports p fun x => { x with announce := none } }))) ∧
    (s.tim.quality ≠ .locked → exec .syncReceiptTimeout s = .next s) ∧
    (s.tim.quality ≠ .holdover → exec .holdoverExpiry s = .next s) ∧
    (∀ (q : Quality) (v : Int), s.tim.quality ≠ q → (setQuality q v s).tim.quality = q ∧ (setQuality q v s).clk = s.clk) ∧
    (s.tim.refFault = true → exec .refclkFaultSet s = .next (s.modTim fun t => { t with refFault := true, refBadSince := some s.clk.now })) ∧
    (s.tim.refFault = false → exec .refclkFaultClear s = .next s) ∧
    (s.sys.vinPresent = true → s.rtc.vbatAt + 60000000000 ≤ s.clk.now → mv.toNat < 2200 → s.sys.inReset = false →
      exec (.vbatCheck mv) s = .next (event 0x0803 (det [(2, mv.toNat)]) (s.modRtc fun r => { r with vbatAt := s.clk.now, vbatLow := true })))

/-- IEEE 802.1AS at a port (R69 to R71, R342): an Announce of the module's domain is kept where the port takes part, and aged; a
request is answered with chip time; a measured delay decides asCapable; each kind of message is sent once in its interval, in gate
time. -/
def Obligations.PortMessages : Prop :=
  ∀ (p : PortId) (s : State) (a : PtpAnnounce) (seq : W16) (ns : Nat),
    let x := s.tim.ports.get p
    let put (f : PtpPort → PtpPort) := s.modTim fun t => { t with ports := vmod t.ports p f }
    let d := ptpDomain s
    let quiet := s.tim.seeded = false ∧ s.tim.quality ≠ .locked
    (portEnabled s p = true → x.asCapable = true → quiet →
      exec (.announceReceived p ⟨d, a⟩) s = .next (put fun x => { x with announce := some a, announceAt := s.clk.now })) ∧
    (x.announce.isSome = true → x.announceAt + 3000000000 ≤ s.clk.now →
      exec (.announceReceiptTimeout p) s = .next (selectRole (put fun x => { x with announce := none }))) ∧
    (portEnabled s p = true → portClosed s p = false → exec (.pdelayMessageReceived p (.request seq)) s =
      .next (emit (.pdelayFollowUp p seq s.clk.ct) (emit (.pdelayResp p seq s.clk.ct) s))) ∧
    (sendsTime s p = true → portClosed s p = false → x.syncSentAt + syncInterval s ≤ s.clk.now → exec (.ptpMessageTransmit p .sync) s =
      .next (emit (.ptpFollowUp p d x.syncSeq s.clk.ct) (emit (.ptp p .sync d x.syncSeq)
        (put fun x => { x with syncSeq := x.syncSeq + 1, syncSentAt := s.clk.now })))) ∧
    (sendsTime s p = true → portClosed s p = false → x.announceSentAt + 1000000000 ≤ s.clk.now → exec (.ptpMessageTransmit p .announce) s =
      .next (emit (.ptpAnnounce p d x.announceSeq (announceMsg s p))
        (put fun x => { x with announceSeq := x.announceSeq + 1, announceSentAt := s.clk.now }))) ∧
    (portEnabled s p = true → portClosed s p = false → x.pdelaySentAt + 1000000000 ≤ s.clk.now → exec (.ptpMessageTransmit p .pdelayReq) s =
      .next (emit (.ptp p .pdelayReq d x.pdelaySeq) (put fun x => { x with pdelaySeq := x.pdelaySeq + 1, pdelaySentAt := s.clk.now }))) ∧
    (portEnabled s p = true → exec (.pdelayMessageReceived p (.measured ns)) s =
      .next (selectRole (put fun x => { x with delay := ns, asCapable := decide (ns ≤ 800) }))) ∧
    (portEnabled s p = true → portClosed s p = true → exec (.pdelayMessageReceived p (.request seq)) s =
      .next (put fun x => { x with respDue := x.respDue ++ [seq] })) ∧
    (∀ n, (portEnabled s p = false ∨ x.asCapable = false ∨ n ≠ d) → quiet → exec (.announceReceived p ⟨n, a⟩) s = .next s) ∧
    (s.tim.quality = .locked → s.tim.slavePort = some p → a.utcValid = true → s.rwp.taiUtc ≠ a.utcOffset.setWidth 32 → mirrors s = false →
      takeUtcOffset p a s = s.modRwp fun r => { r with taiUtc := a.utcOffset.setWidth 32, changed := true }) ∧
    (x.announce = none → exec (.announceReceiptTimeout p) s = .next s) ∧
    (∀ k, portClosed s p = true → exec (.ptpMessageTransmit p k) s = .next s) ∧
    (portEnabled s p = false → ∀ m k, exec (.pdelayMessageReceived p m) s = .next s ∧ exec (.ptpMessageTransmit p k) s = .next s)

/-- The calendar counts on, is set, halted and loses VBAT (R554, R555, R558 to R563, R568, R569): a second passes 32,768 ticks after
the last one; past the last second VALID is cleared with class 0x0808; an alarm armed late fires at once. -/
def Obligations.Calendar : Prop :=
  ∀ (s : State) (w : W32),
    let c := Calendar.ofWords ((assoc? 0x6004 s.bar.held).getD s.rtc.cal.dateWord) w
    let let_go := s.modBar fun b => { b with held := b.held.filter fun x => x.1 != 0x6004 }
    let due := s.rtc.halt = false ∧ s.rtc.secAt + 32768 ≤ (crystalTick s : Int)
    (due → s.rtc.cal.last = false → s.rtc.arm = false →
      exec .rtcSecond s = .next (s.modRtc fun r => { r with secAt := r.secAt + 32768, cal := r.cal.next })) ∧
    (w.getLsbD 0 = false → exec (.rtcAlarmArm w) s = .next (s.modRtc fun r =>
      { r with arm := false, fired := r.fired && !w.getLsbD 1, skipped := r.skipped && !w.getLsbD 2 })) ∧
    exec (.rtcDateWrite w) s = .next (s.modBar fun b => { b with held := assocSet 0x6004 w b.held }) ∧
    (c.valid = true → s.rtc.halt = true → chipUp s = false → ∃ t, exec (.rtcTimeWrite w) s = .next t ∧ t.rtc.cal = c ∧
      t.rtc.secAt = crystalTick s ∧ t.bar = let_go.bar ∧ { t with rtc := s.rtc, bar := s.bar } = s) ∧
    (s.rtc.halt = false → exec (.rtcHalt true) s = .next (s.modRtc fun r => { r with halt := true, haltFrom := r.cal })) ∧
    (s.sys.vinPresent = false → ∃ t, exec .vbatLost s = .next t ∧ t.rtc.vbatLost = true ∧ t.rtc.lossDue = true ∧
      t.rtc.cal = s.rtc.cal ∧ t.free = s.free + 3 ∧ { t with rtc := s.rtc, free := s.free } = s) ∧
    (c.valid = false → exec (.rtcTimeWrite w) s = .next (event 0x0805 (det [(1, (Config.freeBits s.free).toNat)])
      ((let_go.modFree (· + 1)).modRtc fun r => { r with badWrite := true }))) ∧
    (¬ due → exec .rtcSecond s = .next s) ∧
    (due → s.rtc.cal.last = true → chipUp s = true → exec .rtcSecond s = .next (event 0x0808 0 (s.modRtc fun r =>
      { r with secAt := r.secAt + 32768, cal := r.cal.next, valid := false, dateOk := false }))) ∧
    (w.getLsbD 0 = true → s.rtc.valid = true → alarmKey s ≤ s.rtc.cal.key → chipUp s = true →
      exec (.rtcAlarmArm w) s = .next (raise 40 (event 0x0802 (det [(1, 1)]) (s.modRtc fun r =>
        { r with arm := false, fired := true, skipped := true })))) ∧
    (s.rtc.halt = true → s.rtc.arm = false →
      exec (.rtcHalt false) s = .next (s.modRtc fun r => { r with halt := false, secAt := crystalTick s })) ∧
    (s.sys.vinPresent = true → exec .vbatLost s = .next s)

/-- Reading, synchronising and compensating the real-time clock (R556, R557, R561, R565 to R568, R570). A read of RTC_SUB freezes the
three registers anew, one of RTC_DATE only where none is frozen; one of RTC_TIME or 100 ms end it. -/
def Obligations.RealTimeClock : Prop :=
  ∀ (s : State) (firmware : Bool) (temp : Int) (sec : Nat) (f : RtcFreeze),
    let r := requester firmware
    let frozen := s.rtc.frozen.get r
    let freeze (v : Option RtcFreeze) := s.modRtc fun x => { x with frozen := vmod x.frozen r fun _ => v }
    let u := s.modFree (· + 1)
    exec (.rtcSubRead firmware) s = .next (freeze (some (rtcCopy s))) ∧
    (frozen = none → exec (.rtcDateRead firmware) s = .next (freeze (some (rtcCopy s)))) ∧
    exec (.rtcTimeRead firmware) s = .next (freeze none) ∧
    (frozen = some f → f.since + 100000000 ≤ s.clk.now → exec (.rtcFreezeTimeout firmware) s = .next (freeze none)) ∧
    (s.rtc.syncTo = none → syncDue s = true → exec .rtcSync s = .next (if calendarRead s then compareSync u else
      event 0x0807 0 (u.modRtc fun r => { r with syncAt := s.clk.now }))) ∧
    (s.rtc.syncTo = some sec → sec * 1000000000 ≤ chipUtcNs s → exec .rtcSync s = .next (applySync sec s)) ∧
    (s.rtc.compAt + 60000000000 ≤ s.clk.now → -550 ≤ temp → temp ≤ 1500 → ∃ t, exec (.rtcCompensation temp) s = .next t ∧ t.rtc.temp = temp ∧
      t.rtc.corr = max (-3000) (min 3000 (Config.rtcCurve temp + rtcTrim s)) ∧ t.rtc.compFault = false ∧ { t with rtc := s.rtc } = s) ∧
    (s.rtc.setAt ≠ (crystalTick s : Int) → 10000000 ≤ accNow s → exec .rtcPhaseStep s = .next (s.modRtc fun r =>
      { r with acc := accNow s - 10000000, accTick := crystalTick s, secAt := r.secAt - 1 })) ∧
    (compareSync s = s.modRtc fun r =>
      { r with syncAt := s.clk.now,
               syncTo := if 10000000 < ((rtcUtcNs s : Int) - (chipUtcNs s : Int)).natAbs then some (chipUtcNs s / 1000000000 + 1) else none }) ∧
    (frozen.isSome = true → exec (.rtcDateRead firmware) s = .next s) ∧
    (frozen = some f → s.clk.now < f.since + 100000000 → exec (.rtcFreezeTimeout firmware) s = .next s) ∧
    (s.rtc.syncTo = none → syncDue s = false → exec .rtcSync s = .next s) ∧
    (s.rtc.syncTo = some sec → chipUtcNs s < sec * 1000000000 → exec .rtcSync s = .next s) ∧
    (s.rtc.compAt + 60000000000 ≤ s.clk.now → (temp < -550 ∨ 1500 < temp) → chipUp s = true → exec (.rtcCompensation temp) s =
      .next (event 0x0806 (det [(2, signedNat 16 temp)]) (s.modRtc fun r => { r with compAt := s.clk.now, compFault := true }))) ∧
    (s.rtc.setAt ≠ (crystalTick s : Int) → -10000000 < accNow s → accNow s < 10000000 → exec .rtcPhaseStep s = .next s)

/-- BULK_COPY moves bytes to or from bulk memory (R430). What was written reads back, and nothing else changes: a page of the store
that is not worn (R508 to R511, R522), and a byte memory, which keeps its canonical form (log entry 2: the model's choice of what
an unwritten byte reads as). -/
def Obligations.StorageReadsAsWritten : Prop :=
  (∀ (q : RingId) (dma : List Byte) (s : State) (e : Outst), served s q 0x07 e →
    let at' := e.desc.par 24 8
    inBulk s at' e.desc.len = true →
    (e.desc.par 32 1 = 0 → exec (.bulkCopy q dma) s = .next (endDesc q e.num (doneOk [])
      (s.modMem fun m => { m with dram := memWrite m.dram (bulkBase s + at') (bufRead e.desc dma s) }))) ∧
    (e.desc.par 32 1 = 1 → exec (.bulkCopy q dma) s = .next (endDesc q e.num (doneOk [])
      (bufWrite e.desc 0 (memRead s.mem.dram (bulkBase s + at') e.desc.len) s)))) ∧
  (∀ (n fails : Nat) (body : List Byte) (s : State),
    let w := writePage n body 0 0 fails s
    (pageWrites s (pstPage s n) < 10000000000 → fails < 2 →
      w.1 = true ∧ peekPage w.2 n = some (fitTo 256 body) ∧ pageWrites w.2 (pstPage w.2 n) = pageWrites s (pstPage s n) + 1) ∧
    (pageWrites s (pstPage s n) < 10000000000 → 2 ≤ fails → w.1 = false) ∧
    (10000000000 ≤ pageWrites s (pstPage s n) → w.1 = false ∧ ∀ m, peekPage w.2 m = peekPage s m) ∧
    (∀ m, m ≠ n → peekPage w.2 m = peekPage s m)) ∧
  (∀ (m : Memory) (a : Nat) (bs : List Byte), m.wf = true →
    (memWrite m a bs).wf = true ∧
    ∀ x, memGet x (memWrite m a bs) = if a ≤ x ∧ x < a + bs.length then bs.getD (x - a) 0 else memGet x m) ∧
  (∀ m k : Memory, m.wf = true → k.wf = true → (∀ x, memGet x m = memGet x k) → m = k)

/-- PAGE_WRITE, RWP_RECORD_WRITE, TRAILER_SCAN and PAGE_REFRESH (R511, R513, R519, R523): the next page is written and leaves the
queue; one record takes all RWP values; the scan lists the pages aged more than five years, and one is refreshed every 10 ms. -/
def Obligations.StoreWrites : Prop :=
  ∀ (s : State) (f : Fin 3) (fixed n : Nat) (rest : List Nat) (b : List Byte),
    (∀ r : PageReq, s.pst.ready = true → nextPage s.pst.queue = some r →
      let w := writePage r.page r.body 0 0 f.val (s.modPst fun p => { p with queue := p.queue.erase r })
      exec (.pageWrite f) s = .next (pageEnded r w.1 w.2)) ∧
    (s.pst.ready = true → s.rwp.changed = true → s.pst.rwpBad = false → ∀ i, nextRec s = some i →
      ∃ t, exec .rwpRecordWrite s = .next t ∧ t.rwp = { s.rwp with changed := false } ∧
        t.pst.ring.get i = some { seq := s.pst.ringSeq, ct := s.clk.ct, vals := { s.rwp with changed := false } } ∧
        t.pst.ringSeq = s.pst.ringSeq + 1 ∧ t.pst.records = satInc s.pst.records 1) ∧
    (firmwareRuns s = true → qualityKnown s = true → s.pst.scanAt + 86400000000000 ≤ s.clk.now → exec (.trailerScan fixed) s = .next (s.modPst fun p =>
      { p with eccFixed := satInc p.eccFixed fixed, scanAt := s.clk.now, refresh := (p.pages.filter fun x => agedPage s x).map fun x => x.num })) ∧
    (firmwareRuns s = true → s.pst.refreshAt + 10000000 ≤ s.clk.now → s.pst.refresh = n :: rest → peekPage s n = some b →
      exec .pageRefresh s = .next (queuePage 7 n b .refresh (s.modPst fun p => { p with refresh := rest, refreshAt := s.clk.now }))) ∧
    (s.pst.ready = false → exec (.pageWrite f) s = .next s) ∧
    (s.rwp.changed = false → exec .rwpRecordWrite s = .next s) ∧
    (s.clk.now < s.pst.scanAt + 86400000000000 → exec (.trailerScan fixed) s = .next s) ∧
    (s.pst.refresh = [] → exec .pageRefresh s = .next s)

/-- The retentive save and the passwords (R524 to R532, R638): one save at the first warning; a back-off ends in operating time; from
the eighth wrong password on it starts and doubles up to 131,072 s; PST_PWD_SET waits for its page. -/
def Obligations.RetentiveAndPasswords : Prop :=
  ∀ (q : RingId) (dma : List Byte) (s : State) (e : Outst) (r : Fin 3) (cut : Option Nat),
    let fin (d : Done) (t : State) := endDesc q e.num d t
    let bs := bufRead e.desc dma s
    let rd := decide (e.desc.par 25 1 = 0)
    let c := checkChange r rd (slice bs 0 16) (if rd then slice bs 32 16 else slice bs 0 16) s
    let put (x : Pst) (f : PwdRegion → PwdRegion) : Pst := { x with pwd := vmod x.pwd r f }
    let after := c.2.modPst fun x => put x fun y => if rd then { y with read := slice bs 16 16 } else { y with write := slice bs 16 16 }
    let ends := s.modPst fun p => put p fun x => { x with until_ := none }
    (s.sys.warned = false → s.sys.inReset = false → s.pst.ready = true →
      exec (.powerFailWarning cut) s = .next (retentiveSave 0 cut (s.modSys fun y => { y with warned := true })).2) ∧
    exec .warningRearm s = .next (s.modSys fun y => { y with warned := false }) ∧
    (∀ u, (s.pst.pwd.get r).until_ = some u → u ≤ s.clk.opNs →
      exec (.backoffEnd r) s = .next (queuePage 4 passwordPage (passwordBody ends) .nothing ends)) ∧
    (served s q 0x52 e → e.desc.par 24 1 = r.val → c.1 = true → exec (.pstPwdSet q dma) s = .next (waitDesc q e.num e.bound
      (queuePage 4 passwordPage (passwordBody after) (.pwdSet q e.num r (!rd) (slice bs 16 16)) c.2))) ∧
    (s.sys.warned = true → exec (.powerFailWarning cut) s = .next s) ∧
    (∀ u, (s.pst.pwd.get r).until_ = some u → s.clk.opNs < u → exec (.backoffEnd r) s = .next s) ∧
    (∀ kind : Nat, let x := s.pst.pwd.get r
      let y := (failedAttempt r kind s).pst.pwd.get r
      y.fails = x.fails + 1 ∧ y.read = x.read ∧ y.write = x.write ∧
      (x.fails < 7 → y.until_ = x.until_ ∧ y.next = x.next) ∧
      (7 ≤ x.fails → y.until_ = some (s.clk.opNs + x.next * 1000000000) ∧ y.next = min 131072 (x.next * 2))) ∧
    (served s q 0x52 e → e.desc.par 24 1 = r.val → c.1 = false → exec (.pstPwdSet q dma) s = .next (fin (doneWith 0x0E 0) c.2))

/-- PST_READ, PST_INFO, PST_RET_INFO, PST_RET_SAVE (R524, R529, R535): the bytes of the store where every read password of the range
is met, ACCESS_DENIED else, MEDIA_ERROR on an unreadable page; the trailers of a range of pages; the last retentive save. -/
def Obligations.StoreReads : Prop :=
  ∀ (q : RingId) (s : State) (e : Outst) (bs : List Byte) (j : Journal),
    let fin (d : Done) (t : State) := endDesc q e.num d t
    let off := e.desc.par 24 4
    let first := off / 256
    let last := (off + e.desc.len - 1) / 256
    let p := checkReads (slice e.desc.param 16 16) (regionsRead first last) s
    let r := storePages first (last + 1 - first) p.2
    let x := trailersFrom (e.desc.par 24 4) (e.desc.par 28 4) s
    let inStore := 0 < e.desc.len ∧ off + e.desc.len ≤ 16777216
    (served s q 0x50 e → inStore → p.1 = true → r.1 = some bs →
      exec (.pstRead q) s = .next (fin (doneOk []) (bufWrite e.desc 0 (slice bs (off % 256) e.desc.len) r.2))) ∧
    (served s q 0x51 e → e.desc.par 24 4 + e.desc.par 28 4 ≤ 65536 → 64 * e.desc.par 28 4 ≤ e.desc.len →
      exec (.pstInfo q) s = .next (fin (doneOk []) (bufWrite e.desc 0 x.1 x.2))) ∧
    (served s q 0x54 e → committedGroup s 1 = some j → exec (.pstRetInfo q) s =
      .next (fin (doneOk (fields [(8, j.tag.toNat), (8, j.ct), (2, j.bytes), (1, retLast s)])) s)) ∧
    (served s q 0x53 e → hasRetentive s = true → exec (.pstRetSave q) s = .next (fin
      (if (retentiveSave 2 none s).1 then doneOk [] else doneWith 0x0A 0) (retentiveSave 2 none s).2)) ∧
    (served s q 0x53 e → hasRetentive s = false → exec (.pstRetSave q) s = .next (fin (doneWith 0x07 0) s)) ∧
    (served s q 0x50 e → inStore → p.1 = false → exec (.pstRead q) s = .next (fin (doneWith 0x0E 0) p.2)) ∧
    (served s q 0x50 e → inStore → p.1 = true → r.1 = none → exec (.pstRead q) s = .next (fin (doneWith 0x0A 0) r.2)) ∧
    (served s q 0x51 e → e.desc.par 24 4 + e.desc.par 28 4 ≤ 65536 → e.desc.len < 64 * e.desc.par 28 4 →
      exec (.pstInfo q) s = .next (fin (doneWith 0x11 0) s)) ∧
    (served s q 0x54 e → committedGroup s 1 = none → exec (.pstRetInfo q) s = .next (fin (doneOk (fields [(18, 0), (1, retLast s)])) s))

/-- METER_SAMPLE and MEASUREMENT_INTERVAL_END (R478 to R482, R491 to R494): one sample of every channel at each multiple of 62,500 ns,
a new interval at each multiple of 100 ms. Energy goes to IMPORT or EXPORT by its sign and to SEL, up to their limits. -/
def Obligations.Metering : Prop :=
  (∀ (x : Vector Int 16) (s : State),
    let iv (f : Fin 8 → State → State) : State := ((allFin 8).foldl (fun t j => takeSettings j (f j t)) s).modMtr fun m =>
      { m with begun := true, boundary := s.clk.ct / 100000000 }
    (s.clk.ct / 62500 ≠ s.mtr.sample → 6 ≤ s.sys.step → s.sys.inReset = false → exec (.meterSample x) s = .next
      ((allFin 8).foldl (fun t j => samplePoint j (s.clk.ct / 62500) (x.get (finOr (2 * j.val))) (x.get (finOr (2 * j.val + 1))) t)
        (s.modMtr fun m => { m with sample := s.clk.ct / 62500 }))) ∧
    (s.clk.ct / 100000000 ≠ s.mtr.boundary → s.sys.inReset = false → exec .measurementIntervalEnd s = .next
      (iv (if s.mtr.begun then closePoint (s.clk.ct / 100000000 * 100000000) else takePresets))) ∧
    (s.clk.ct / 62500 = s.mtr.sample → exec (.meterSample x) s = .next s) ∧
    (s.clk.ct / 100000000 = s.mtr.boundary → exec .measurementIntervalEnd s = .next s)) ∧
  (∀ (i : Fin 8) (k : Nat) (xv xi : Int) (s : State),
    ((pointOf s i).on = false → samplePoint i k xv xi s = s) ∧
    ((pointOf s i).mode = 1 → (pointOf s i).cfg.getLsbD 4 = false → (s.rwp.mtrPhase.get i).extractLsb' 0 9 = 0 → s.mtr.begun = true →
      let p := pointOf s i
      let v := scaled xv (s.rwp.mtrCalV.get i) p.vFs
      let c := scaled xi (s.rwp.mtrCalI.get i) p.iFs
      let t := samplePoint i k xv xi s
      (pointOf t i).n = p.n + 1 ∧ (pointOf t i).sumP = p.sumP + v * c ∧ (pointOf t i).sumV2 = p.sumV2 + v.natAbs * v.natAbs ∧
        (pointOf t i).sumI2 = p.sumI2 + c.natAbs * c.natAbs ∧ (pointOf t i).imp = p.imp ∧ (pointOf t i).exp = p.exp ∧
        (∀ j, j ≠ i → pointOf t j = pointOf s j) ∧ t.evr = s.evr ∧ t.mem = s.mem)) ∧
  (∀ (i : Fin 8) (e : Int) (s : State),
    let p := pointOf s i
    let t := addEnergy i e s
    ((pointOf t i).imp = if 0 < e then min accTop (p.imp + e.natAbs) else p.imp) ∧
    ((pointOf t i).exp = if e < 0 then min accTop (p.exp + e.natAbs) else p.exp) ∧
    (p.sel.natAbs ≠ selTop.natAbs → (pointOf t i).sel = clampInt (-selTop) selTop (p.sel + if p.selAbs then (e.natAbs : Int) else e)) ∧
    (p.sel.natAbs = selTop.natAbs → (pointOf t i).sel = p.sel) ∧
    (∀ j, j ≠ i → pointOf t j = pointOf s j) ∧
    (p.lostSeen = true → closeEnergy i s = modPoint i (fun p => { p with noload := false, lostInt := satInc p.lostInt 1 }) s) ∧
    (p.lostSeen = false → p.vLost = false → p.iLost = false → p.sumP.natAbs * 16 < p.noloadW * p.n * mjUnit →
      closeEnergy i s = modPoint i (fun p => { p with noload := true }) s))

/-- STREAM_LOST and STREAM_RESTORED after 250 µs and 10 ms, ZC_LOST and PQ_VALUE_REFRESH (R480, R485, R488 to R490): a lost stream
records 0x0601, a lost crossing 0x0603. -/
def Obligations.MeterSupervision : Prop :=
  ∀ (c : Fin 16) (us : Nat) (i : Fin 8) (s : State),
    let j : Fin 8 := finOr (c.val / 2)
    let cur := decide (c.val % 2 = 1)
    let lost := event 0x0601 (det [(1, c.val)]) (modPoint j (fun p =>
      { p with
        vLost := p.vLost || !cur, iLost := p.iLost || cur, lostSeen := true, win := p.win.map fun w => { w with bad := true } }) s)
    ((pointOf s j).lost cur = false → 250 ≤ us → exec (.streamLost ⟨c, us⟩) s = .next (if cur then lost else cutShort j lost)) ∧
    ((pointOf s j).lost cur = true → 10000 ≤ us → exec (.streamRestored ⟨c, us⟩) s = .next (event 0x0602 (det [(1, c.val)])
      (modPoint j (fun p => { p with vLost := p.vLost && cur, iLost := p.iLost && !cur }) s))) ∧
    (i.val < 2 → (pointOf s i).on = true → pqSpan (pointOf s i) ≤ (pointOf s i).hist.length →
      (pointOf s i).refreshAt + pqSpan (pointOf s i) / 2 ≤ s.mtr.sample → exec (.pqValueRefresh i) s = .next
        ([1, 2, 3].foldl (pqJudge i (pqValue (pointOf s i)) (sampleCt s.mtr.sample))
          (modPoint i (fun p => { p with refreshAt := s.mtr.sample }) s))) ∧
    ((pointOf s i).ac = true → (pointOf s i).zcLost = false →
      (pointOf s i).awaitAt + ((pointOf s i).limit &&& 0xFFFF#32).toNat * 16 ≤ s.mtr.sample →
      exec (.zcLost i) s = .next (event 0x0603 (det [(1, i.val)])
        (modPoint i (fun p => { p with zcLost := true, freq := 0, harmInvalid := true, win := none, period := 0 }) s))) ∧
    ((pointOf s j).lost cur = true ∨ us < 250 → exec (.streamLost ⟨c, us⟩) s = .next s) ∧
    ((pointOf s j).lost cur = false ∨ us < 10000 → exec (.streamRestored ⟨c, us⟩) s = .next s) ∧
    ((pointOf s i).ac = false → exec (.zcLost i) s = .next s) ∧ (2 ≤ i.val → exec (.pqValueRefresh i) s = .next s) ∧
    (∀ (u : Int) (ct : Nat), (pointOf s i).sag = none →
      (s.rws.mtrPqCfg.extractLsb' 0 8).toNat * (pointOf s i).unom ≤ u * 100 → pqJudge i u ct s 1 = s) ∧
    (∀ (u : Int) (ct : Nat), (pointOf s i).sag = none → (pointOf s i).vLost = false →
      u * 100 < (s.rws.mtrPqCfg.extractLsb' 0 8).toNat * (pointOf s i).unom →
      pqJudge i u ct s 1 = eventAt 0x0608 0xFFFF 0 (det [(1, i.val), (1, 1)]) ct
        (modPoint i (fun p => { p with sag := some { start := ct, extreme := u } }) s))

/-- ENERGY_SAVE writes one page at a whole second, or counts it skipped; MTR_READ and MTR_HARM copy their records; MTR_PRESET needs
its password and waits for the next boundary (R497, R504, R505). -/
def Obligations.MeterSaveAndReads : Prop :=
  ∀ (q : RingId) (dma : List Byte) (fails : Fin 3) (i : Fin 8) (s : State) (e : Outst),
    let fin (d : Done) (t : State) := endDesc q e.num d t
    let u := s.modMtr fun m => { m with savedSec := s.clk.ct / 1000000000 }
    let c := checkPwd 2 true (slice (bufRead e.desc dma s) 0 16) s
    let due := s.mtr.begun = true ∧ s.clk.ct / 1000000000 ≠ s.mtr.savedSec ∧ s.sys.inReset = false
    (due → firmwareRuns s = true → s.pst.ready = true → exec (.energySave fails true) s = .next (writeSave fails.val u)) ∧
    (served s q 0x90 e → 512 ≤ e.desc.len → exec (.mtrRead q) s = .next (fin (doneOk [])
      (bufWrite e.desc 0 ((allFin 8).flatMap fun i => mtrRecord (pointOf s i)) s))) ∧
    (served s q 0x91 e → e.desc.par 24 1 = i.val → 520 ≤ e.desc.len →
      exec (.mtrHarm q) s = .next (fin (doneOk []) (bufWrite e.desc 0 (harmBytes (pointOf s i)) s))) ∧
    (served s q 0x92 e → e.desc.par 24 1 = i.val → c.1 = true → ∃ t, exec (.mtrPreset q dma) s = .next (waitDesc q e.num e.bound t) ∧
      (pointOf t i).presets = (pointOf c.2 i).presets ++
        [{ ring := q, num := e.num, imp := e.desc.par 32 8, exp := e.desc.par 40 8, sel := (BitVec.ofNat 64 (e.desc.par 48 8)).toInt }]) ∧
    (due → exec (.energySave fails false) s = .next (u.modMtr fun m => { m with skipped := satInc m.skipped 1 })) ∧
    (∀ b, s.mtr.begun = false → exec (.energySave fails b) s = .next s) ∧
    (served s q 0x90 e → e.desc.len < 512 → exec (.mtrRead q) s = .next (fin (doneWith 0x11 0) s)) ∧
    (served s q 0x92 e → e.desc.par 24 1 = i.val → c.1 = false → exec (.mtrPreset q dma) s = .next (fin (doneWith 0x0E 0) c.2))

/-- The transfer of an update (R612, R614 to R617, R628): FWU_BEGIN opens it into the slot that is neither CONFIRMED nor TRIAL, a
block waits for its pages, FWU_VERIFY ends it with the slot VERIFIED or EMPTY, FWU_ABORT and 600 s without a firmware descriptor
abandon it. -/
def Obligations.FirmwareTransfer : Prop :=
  ∀ (q : RingId) (dma : List Byte) (i : Fin 2) (s : State) (e : Outst),
    let u := touchFwu s
    let fin (d : Done) (t : State) := endDesc q e.num d t
    let c := checkPwd 1 true (slice e.desc.param 16 16) u
    let bs := bufRead e.desc dma u
    let k := e.desc.par 24 4
    (served s q 0x76 e → exec (.fwuStatusRead q) s = .next (fin (doneOk (leBytes 4 (fwuStatus s) ++ leBytes 4 (fwuSlotWord s 0) ++
      leBytes 4 (fwuSlotWord s 1) ++ leBytes 4 (fwuTrial s))) u)) ∧
    (s.fwu.transfer = some i →
      (served s q 0x71 e → (crc32c bs).toNat = e.desc.par 28 4 → k = s.fwu.next → k < blocksOf (min maxImage (fwSlot s i).total) →
        exec (.fwuBlock q dma) s = .next (waitDesc q e.num e.bound (queueBlock q e.num i k bs u))) ∧
      (served s q 0x72 e → ∃ d t, exec (.fwuVerify q) s = .next (fin d t) ∧ t.fwu.transfer = none ∧ t.fwu.next = 0 ∧
        ((d.status = 0x00 ∧ (fwSlot t i).state = .verified) ∨ (d.status = 0x05 ∧ (fwSlot t i).state = .empty))) ∧
      (served s q 0x75 e → exec (.fwuAbort q) s = .next (fin (doneOk []) (abandonTransfer 1 u))) ∧
      (s.fwu.lastOpAt + 600000000000 ≤ s.clk.now → exec .fwuIdleTimeout s = .next (abandonTransfer 2 s))) ∧
    (served s q 0x70 e → s.fwu.transfer = none → trialRuns s = false → targetSlot s = some i → c.1 = true →
      ∃ t, exec (.fwuBegin q) s = .next (fin (doneOk (leBytes 1 i.val)) t) ∧ t.fwu.transfer = some i ∧ t.fwu.next = 0 ∧
        (fwSlot t i).state = .receiving ∧ (fwSlot t i).total = k ∧ fwSlot t (otherSlot i) = fwSlot s (otherSlot i)) ∧
    (s.fwu.transfer = some i →
      (∀ why, (abandonTransfer why s).fwu.transfer = none ∧ (fwSlot (abandonTransfer why s) i).state = .empty) ∧
      (served s q 0x71 e → (crc32c bs).toNat ≠ e.desc.par 28 4 →
        exec (.fwuBlock q dma) s = .next (fin (doneRefused 0x70 0 0 0) u)) ∧
      (served s q 0x71 e → (crc32c bs).toNat = e.desc.par 28 4 → k + 1 = s.fwu.next →
        exec (.fwuBlock q dma) s = .next (fin (doneOk (leBytes 4 s.fwu.next)) u))) ∧
    (served s q 0x70 e → (s.fwu.transfer.isSome = true ∨ trialRuns s = true) → exec (.fwuBegin q) s = .next (fin (doneWith 0x07 0) u)) ∧
    (served s q 0x70 e → s.fwu.transfer = none → trialRuns s = false → targetSlot s = some i → c.1 = false →
      exec (.fwuBegin q) s = .next (fin (doneWith 0x0E 0) c.2)) ∧
    (s.clk.now < s.fwu.lastOpAt + 600000000000 → exec .fwuIdleTimeout s = .next s)

/-- Activation, the service pause, confirmation and fallback (R618 to R622, R625): an accepted activation waits for the pause, the
pause puts its slot on TRIAL and ends with the new firmware; a trial is CONFIRMED, or falls back after 60 s. -/
def Obligations.FirmwareActivation : Prop :=
  ∀ (q : RingId) (intact : Bool) (s : State) (e : Outst) (i : Fin 2),
    let u := touchFwu s
    let us := (s.clk.now - s.fwu.pauseAt) / 1000
    (served s q 0x73 e → e.desc.par 24 1 = i.val → activateBarred s = false → activatable s i = true → s.sys.run ≠ .safeTalk →
      pairMember s = false → exec (.fwuActivate q) s = .next (waitDesc q e.num e.bound
        (u.modFwu fun w => { w with activating := some ((q, e.num), i), joinAfter := false }))) ∧
    (∀ d, s.fwu.activating = some (d, i) → s.fwu.pausing = false → exec .servicePauseStart s = .next (beginPause i false s)) ∧
    (s.fwu.pauseSlot = some i → exec (.servicePauseEnd intact) s = .next (decideNow (endActivate intact us
      (event 0x0B05 (det [(1, i.val), (3, 0), (4, us)]) ((pauseResult i intact s).modFwu fun w =>
        { w with pauseSlot := none, fallback := false, pauseMs := BitVec.ofNat 16 (min 65535 (us / 1000)) }))))) ∧
    (served s q 0x74 e → s.fwu.trialAt.isSome = true → exec (.fwuConfirm q) s = .next (endDesc q e.num (doneOk [])
      (u.modFwu fun w => { w with hostConfirm := w.hostConfirm || s.rwp.fwuCfg.getLsbD 0 }))) ∧
    (mayConfirm s = true → exec .firmwareConfirmed s = .next (confirmTrial s)) ∧
    (∀ a, s.fwu.trialAt = some a → s.fwu.pausing = false → a + 60000000000 ≤ s.clk.now →
      exec .firmwareTrialTimeout s = .next (fallBack s)) ∧
    ((fwSlot (confirmTrial s) s.fwu.running).state = .confirmed ∧ (confirmTrial s).fwu.trialAt = none ∧
      (fwSlot s s.fwu.running).svn.toNat ≤ (confirmTrial s).fwu.svnMin.toNat ∧ s.fwu.svnMin.toNat ≤ (confirmTrial s).fwu.svnMin.toNat) ∧
    (let t := beginPause i false s
     (fwSlot t i).state = .trial ∧ (fwSlot t i).tries = 1 ∧ t.fwu.pausing = true ∧ t.fwu.pauseAt = s.clk.now ∧ servesDescs t = false) ∧
    (s.fwu.fallback = false → let t := pauseResult i true s
      t.fwu.running = i ∧ t.fwu.trialAt = some s.clk.now ∧ t.wdg.start = true ∧ t.wdg.len = 2000000) ∧
    (fallbackSlot s (otherSlot s.fwu.running) = true → fallBack s =
      s.modFwu fun w => { w with pauseSlot := some (otherSlot s.fwu.running), pauseAt := s.clk.now, fallback := true }) ∧
    (served s q 0x73 e → 2 ≤ e.desc.par 24 1 → exec (.fwuActivate q) s = .next (endDesc q e.num (doneWith 0x08 0) u)) ∧
    (s.fwu.activating = none → exec .servicePauseStart s = .next s) ∧
    (mayConfirm s = false → exec .firmwareConfirmed s = .next s) ∧
    (∀ a, s.fwu.trialAt = some a → s.clk.now < a + 60000000000 → exec .firmwareTrialTimeout s = .next s)

/-- Resets, supplies and the power-up (R588, R592, R595 to R597, R638, R639, R654): a supply reset, an external reset and the loss of
VIN hold the chip in reset with DRAM and the registers lost; the release runs steps 1 to 4, and the built-in self-test step 6. -/
def Obligations.ResetAndPowerUp : Prop :=
  ∀ (mv us ms : W16) (d : Nat) (pairId agree storeOk marchOk : Bool) (failed : List (Nat × Nat)) (parts : Vector Byte 3)
    (p : Option (Fin 778)) (s : State),
    let supply := assertReset 3 ((s.modSys fun y => { y with vinMv := mv }).modSys fun y => { y with nextKind := 3 })
    let bad := bistFailures failed parts p
    let ended := endSelfTest ms (blockResults bad p d (laneResults bad.isEmpty parts us s))
    (s.sys.inReset = false → exec (.supplyReset mv) s = .next supply) ∧
    (s.sys.inReset = false → exec .externalReset s = .next (assertReset 2 (s.modSys fun y => { y with nextKind := 2 }))) ∧
    (s.sys.inReset = false → exec (.overTemperature true mv) s = .next (supply.modSys fun y => { y with hotStop := true })) ∧
    (s.sys.vinPresent = true → ∃ t, exec .vinAbsent s = .next t ∧ t.sys.vinPresent = false ∧ t.sys.inReset = true ∧
      t.sys.powerLostAt = some (opTicks s) ∧ t.sys.lostEvent = some (opTicks s)) ∧
    (s.sys.vinPresent = false → exec .vinPresent s = .next (s.modSys fun y => { y with vinPresent := true, nextKind := 1 })) ∧
    (s.sys.vinPresent = true → s.sys.hotStop = false → s.sys.inReset = true → exec (.powerUpRelease pairId agree storeOk marchOk) s =
      .next (powerUp pairId agree storeOk marchOk (chipReset s.sys.nextKind s))) ∧
    (s.sys.step = 6 → s.sys.inReset = false → s.fuse.fault = false → bad = [] →
      exec (.builtInSelfTest ⟨failed, parts, p⟩ us d ms) s = .next (afterSelfTest ended)) ∧
    (exec (.overTemperature false mv) s = .next (s.modSys fun y => { y with hotStop := false })) ∧
    (s.sys.step = 6 → s.sys.inReset = false → bad ≠ [] →
      exec (.builtInSelfTest ⟨failed, parts, p⟩ us d ms) s = .next (failSelfTest bad ended)) ∧
    (∀ k, k ≤ 3 → let t := assertReset k s
      t.sys.inReset = true ∧ t.mem = State.resetMem ∧ t.hif.rings = State.resetHif.rings ∧ t.pending = s.pending ∧
        t.pst.pages = s.pst.pages ∧ t.sys.powerLostAt = some (opTicks s)) ∧
    ((chipReset s.sys.nextKind s).sys.resetKind = s.sys.nextKind ∧ (chipReset s.sys.nextKind s).sys.inReset = false ∧
      (chipReset s.sys.nextKind s).sys.pcycles = s.sys.pcycles + (if s.sys.nextKind = 1 then 1 else 0)) ∧
    ((powerUp pairId agree false marchOk s).sys.run = .safeTalk ∧ (powerUp pairId agree true false s).sys.run = .safeTalk ∧
      (failSelfTest bad s).sys.run = .safeTalk ∧ ∀ l : LaneId, ((laneResults bad.isEmpty parts us s).lanes.get l).state = .failed ↔
        parts.get l ≠ 0) ∧
    (s.sys.inReset = true → exec (.supplyReset mv) s = .next s ∧ exec .externalReset s = .next s) ∧
    (s.sys.vinPresent = true → exec .vinPresent s = .next s) ∧ (s.sys.vinPresent = false → exec .vinAbsent s = .next s) ∧
    (s.sys.vinPresent = false ∨ s.sys.hotStop = true → exec (.powerUpRelease pairId agree storeOk marchOk) s = .next s)

/-- Restarts, fuses and uncorrectable errors (R31, R35 to R38, R596, R604 to R609): SYS_RESTART is performed within 25 ms, SYS_CMD by
its key; a fuse is programmed in STOPPED or SAFE_TALK; the scrubs come every 1 s and every 12 h. -/
def Obligations.RestartsFusesAndScrubs : Prop :=
  ∀ (q : RingId) (w : W32) (p : DamagePlace) (n : Nat) (own : List SramOwner) (bad : List DamagePlace) (s : State) (e : Outst),
    let fin (d : Done) (t : State) := endDesc q e.num d t
    let hit (l : List DamagePlace) (t : State) := l.foldl (fun t b => escalate b t) t
    (served s q 0x86 e → s.sys.restart = none → exec (.sysRestart q) s =
      .next (fin (doneOk []) (requestRestart 5 (event 0x0A06 (det [(1, s.sys.run.code)]) s)))) ∧
    (s.sys.safeCause = 9 → s.sys.restart = none → exec (.sysCmdRestart 0x5A5AA5A5#32) s = .next (requestRestart 5 s)) ∧
    (served s q 0x87 e → s.sys.run = .stopped ∨ s.sys.run = .safeTalk → fuseFree s (e.desc.par 24 1) = true →
      exec (.fuseProgram q true) s = .next (fin (doneOk []) (event 0x0A08 (det [(1, e.desc.par 24 1)]) (s.modFuse (programFuse e.desc))))) ∧
    (s.sys.inReset = false → 4 ≤ n → exec (.transferUncorrectable p n) s = .next (escalate p s)) ∧
    (firmwareRuns s = true → s.mem.scrubAt + 1000000000 ≤ s.clk.now → exec (.sramScrub own bad) s =
      .next (hit (bad.filter inSram) (own.foldl (fun t o => countCorrected o t) (s.modMem fun m => { m with scrubAt := s.clk.now })))) ∧
    (s.sys.inReset = false → s.mem.patrolAt + 43200000000000 ≤ s.clk.now → exec (.dramPatrolScrub ⟨n, bad⟩) s =
      .next (hit (bad.filter fun b => !inSram b)
        (s.modMem fun m => { m with patrolAt := s.clk.now, dramFixed := m.dramFixed + n }))) ∧
    (served s q 0x85 e → exec (.sysStartInfo q) s = .next (fin (doneOk (leBytes 4 (sysStart s) ++ leBytes 4 s.sys.safeCause ++
      leBytes 8 s.sys.safeCt ++ leBytes 8 (opTicks s) ++ leBytes 4 s.sys.pcycles.toNat ++ leBytes 4 (sysStartMs s) ++
      leBytes 4 (fuseStatus s) ++ leBytes 4 (glbOption s))) s)) ∧
    (∀ k, ∃ r, (requestRestart k s).sys.restart = some r ∧ r.kind = k ∧ s.clk.now ≤ r.at_ ∧ r.at_ ≤ s.clk.now + 25000000) ∧
    (∀ r, s.sys.restart = some r → r.at_ ≤ s.clk.now → restartHeld s = false → dueRestart s = chipRestart r.kind s) ∧
    (restartHeld s = true → dueRestart s = s) ∧
    (∀ k f, 3 ≤ k → (resetFuse k f).wdg = f.wdg ∧ (resetFuse k f).pendingWdg = f.pendingWdg) ∧
    (∀ k f, k ≤ 2 → f.wdg = none → (resetFuse k f).wdg = f.pendingWdg ∧ (resetFuse k f).pendingWdg = none) ∧
    (served s q 0x86 e → s.sys.restart.isSome = true → exec (.sysRestart q) s = .next (fin (doneWith 0x07 0) s)) ∧
    (s.sys.safeCause ≠ 9 ∨ w ≠ 0x5A5AA5A5#32 → exec (.sysCmdRestart w) s = .next s) ∧
    (∀ vpp, served s q 0x87 e → (s.sys.run ≠ .stopped ∧ s.sys.run ≠ .safeTalk) ∨ fuseFree s (e.desc.par 24 1) = false ∨ vpp = false →
      exec (.fuseProgram q vpp) s = .next (fin (doneWith 0x07 0) s))

/-- The watchdog (R573 to R576, R581 to R585): a service in the open window with the right answer begins an ordinary period; one too
early, too late or wrong records 0x0901, 0x0902 or 0x0903 and climbs the ladder, as an expiry does; stamps older than an hour go. -/
def Obligations.Watchdog : Prop :=
  ∀ (a : W32) (s : State),
    let t := s.modWdg fun w => { w with answer := a }
    (s.wdg.running = false → s.sys.inReset = false → (fuseWdg s).hw = true → exec .watchdogStart s = .next (startWatchdog true s)) ∧
    (s.wdg.running = true → wdgOpening s ≤ wdgElapsed s → wdgElapsed s < s.wdg.len → a.extractLsb' 16 16 = s.wdg.question →
      a.extractLsb' 0 16 = tokenOf s.wdg.question → exec (.wdgService a) s = .next (s.modWdg fun w =>
        { w with
          answer := a, question := nextQuestion w.question, start := false, since := wdgTick s,
          len := (s.rwp.wdgCfg &&& 0x3FF#32).toNat * 1000 })) ∧
    (s.wdg.running = true → s.wdg.len ≤ wdgElapsed s → exec .wdgExpiry s = .next (systemFault (advanceQuestion
      (event 0x0902 (det [(2, s.wdg.question.toNat), (2, 0), (1, 0)]) s)))) ∧
    (∃ t, exec .restartStampExpiry s = .next t ∧ ∀ x, x ∈ t.wdg.stamps ↔ x ∈ s.wdg.stamps ∧ s.clk.opNs < x + 3600000000000) ∧
    (s.wdg.running = false → s.sys.inReset = false → (fuseWdg s).hw = false → s.rwp.wdgCfg.getLsbD 16 = true →
      s.sys.selfTestEnded = true → exec .watchdogStart s = .next (startWatchdog false s)) ∧
    (s.wdg.running = true → wdgElapsed s < wdgOpening s → exec (.wdgService a) s = .next (systemFault (advanceQuestion
      (event 0x0901 (det [(2, wdgOpening s - wdgElapsed s), (2, s.wdg.question.toNat)]) t)))) ∧
    (s.wdg.running = true → wdgOpening s ≤ wdgElapsed s → s.wdg.len ≤ wdgElapsed s → exec (.wdgService a) s = .next (systemFault
      (advanceQuestion (event 0x0902 (det [(2, s.wdg.question.toNat), (2, 0), (1, 1)]) t)))) ∧
    (s.wdg.running = true → wdgOpening s ≤ wdgElapsed s → wdgElapsed s < s.wdg.len → a.extractLsb' 0 16 ≠ tokenOf s.wdg.question →
      exec (.wdgService a) s = .next (systemFault (advanceQuestion (event 0x0903
        (det [(2, s.wdg.question.toNat), (2, (a.extractLsb' 16 16).toNat), (2, (a.extractLsb' 0 16).toNat)]) t)))) ∧
    (s.wdg.running = true → exec .watchdogStart s = .next s) ∧ (s.wdg.running = false → exec (.wdgService a) s = .next t) ∧
    (wdgElapsed s < s.wdg.len → exec .wdgExpiry s = .next s) ∧
    (∀ (c : Option Nat), (s.wdg.step1.any fun x => x.1 == c && decide (s.clk.now < x.2 + 10000000000)) = false → climb c s = stepOne c s) ∧
    (∀ (c : Option Nat), (s.wdg.step1.any fun x => x.1 == c && decide (s.clk.now < x.2 + 10000000000)) = true →
      s.sys.run ≠ .safeTalk →
        ((fuseWdg s).n.toNat ≤ (liveStamps s).length → climb c s = stepThree s) ∧
        ((liveStamps s).length < (fuseWdg s).n.toNat → climb c s = stepTwo s)) ∧
    (∀ q : W16, tokenOf q = q.rotateLeft 5 ^^^ q ^^^ 0x5A3C#16)

/-- Inputs and time-outs (R455, R457, R459 to R465): a debounced state takes a level that has held for its time, a wire break is set
and cleared after 10 ms, at most 64 edges in any 100 µs are reported; the field die goes SAFE, and 300 µs without an echo are a
fault. -/
def Obligations.FieldInputsAndTimeouts : Prop :=
  ∀ (n : ChanId) (v : Bool) (us : Nat) (cause : BitVec 2) (s : State),
    let c := chanOf s n
    let t := modChan n (fun c => { c with land := v }) s
    (c.cfg.input = true → c.cfg.pulsed = false → exec (.fieldInputChange n v) s = .next (takeRaw n v t)) ∧
    (c.cfg.pulsed = true → c.cfg.input = true → exec (.pulsedSample n v) s = .next (debounce n (takeRaw n v t))) ∧
    (c.cfg.input = true → c.cfg.pulsed = false → exec (.debounceExpiry n) s = .next (debounce n s)) ∧
    (c.cfg.wireBreak = true → c.cfg.input = true → c.state = false → 10000 ≤ us → exec (.wireBreakSet ⟨n, us⟩) s = .next (setDiag n 1 s)) ∧
    (c.has 0 = true → 10000 ≤ us → exec (.wireBreakClear ⟨n, us⟩) s = .next (clearDiag n 1 s)) ∧
    (∀ e r, s.fio.edges = e :: r → let u := rollEdges (s.modFio fun x => { x with edges := r })
      ((lastReports u).length < 64 → exec .fieldEdgeReport s = .next (reportEdge e u)) ∧
      (64 ≤ (lastReports u).length → exec .fieldEdgeReport s = .next (loseEdge e u))) ∧
    (c.cfg.output = true → exec (.outputCurrentLimit n true) s = .next (setDiag n 8 s)) ∧
    (s.fio.safe = false → s.fio.lastValid + s.fio.timeout * 1000000 ≤ s.clk.now → exec .fieldSafeTimeout s = .next
      (allSafe (s.modFio fun x => { x with commands := [], safe := true, safeCt := s.clk.ct, realigned := false }))) ∧
    (s.fio.faulted = false → s.fio.echoAt + 300000 ≤ s.clk.now → exec (.barrierFault cause) s = .next (reportPoints allPoints
      (event 0x0508 (det [(1, cause.toNat)]) (s.modFio fun x => { x with faulted := true, barrierOk := false, realigned := false })))) ∧
    (c.cfg.output = true → exec (.outputCurrentLimit n false) s = .next (clearDiag n 8 s)) ∧
    (c.cfg.mode = 4 → exec (.fieldInputChange n v) s = .next (takeReadback n v t)) ∧
    (c.cfg.mode ≠ 4 → (c.cfg.input = false ∨ c.cfg.pulsed = true) → exec (.fieldInputChange n v) s = .next t) ∧
    (c.raw ≠ c.state → c.rawSince + c.cfg.debounce * 1000 ≤ s.clk.now →
      debounce n s = clearBreakOn n (takeState n c.raw c.rawCt (c.rawCt + c.cfg.debounce * 1000) s)) ∧
    (s.clk.now < c.rawSince + c.cfg.debounce * 1000 → debounce n s = s) ∧ (c.raw = v → takeRaw n v s = s) ∧
    ((chanOf (setDiag n 1 s) n).diag = c.diag ||| 1 ∧ (chanOf (clearDiag n 1 s) n).diag = c.diag &&& 0xFE) ∧
    (c.state = true ∨ us < 10000 → exec (.wireBreakSet ⟨n, us⟩) s = .next s) ∧ (us < 10000 → exec (.wireBreakClear ⟨n, us⟩) s = .next s) ∧
    (s.clk.now < s.fio.echoAt + 300000 → exec (.barrierFault cause) s = .next s) ∧
    (s.fio.safe = true → exec .fieldSafeTimeout s = .next s) ∧
    (s.fio.edges = [] → exec .fieldEdgeReport s = .next s)

/-- The barrier, its commands and the readback (R452 to R454, R466, R467): a refresh leaves every 100 µs, an echo measures the delay;
a command leaves for its instant and is applied then, in the order of the instants; a discrepancy of 1 ms sets its bit. -/
def Obligations.BarrierAndReadback : Prop :=
  ∀ (n : ChanId) (ns : Nat) (s : State),
    let c := chanOf s n
    let mod (f : Fio → Fio) := s.modFio f
    let kept (t o : Nat) := mod fun x => { x with sent := (t, o) :: x.sent.filter fun y => decide (s.clk.ct < y.2 + 1000000000) }
    (s.fio.refreshAt + 100000 ≤ s.clk.now → s.sys.inReset = false → 6 ≤ s.sys.step → exec (.barrierRefresh true) s = .next
      (takeRefresh (resumeMark s) (s.fio.refSeq + 1) (emit (.fieldRefresh (resumeMark s)) (mod fun x =>
        { x with refSeq := s.fio.refSeq + 1, refreshAt := s.clk.now })))) ∧
    (exec (.barrierEcho true ns) s = .next (mod fun x =>
      { x with echoAt := s.clk.now, delay := BitVec.ofNat 16 (min 65535 (ns / 2)), realigned := true, barrierOk := !x.faulted })) ∧
    (c.comparable = true → c.comparedSince + 1000000 ≤ s.clk.now → c.cmd = true → c.readback = false →
      exec (.readbackDiscrepancy n) s = .next (setDiag n 2 s)) ∧
    (c.cmd = c.readback → c.diag &&& 6 ≠ 0 → max c.readbackAt c.cmdAt + 1000000 ≤ s.clk.now →
      exec (.readbackDiscrepancyClear n) s = .next (clearDiag n 6 s)) ∧
    (∀ d : FieldCommand, firstCommand s.fio.commands = some d → d.instant ≤ s.clk.ct → s.fio.applied < d.instant →
      exec .fieldOutputApply s = .next (d.states.foldl (fun t y => command (finOr y.1) y.2 t)
        (mod fun x => { x with commands := x.commands.erase d, applied := d.instant }))) ∧
    (∀ t o img, nextCommand s = some (t, o, img) → commandsOutputs s = true → s.fio.faulted = false → s.fio.safe = false →
      s.clk.ct + 1000 ≤ o → exec .fieldOutputCommand s = .next ((emit (.fieldCommand o (commandBits (ownStates s img))) (kept t o)).modFio
        fun x => { x with commands := x.commands ++ [{ instant := o, states := ownStates s img }] })) ∧
    (∀ d : FieldCommand, firstCommand s.fio.commands = some d →
      (d.instant ≤ s.clk.ct → d.instant ≤ s.fio.applied → exec .fieldOutputApply s = .next
        (mod fun x => { x with commands := x.commands.erase d, cmdsDropped := x.cmdsDropped + 1 })) ∧
      (s.clk.ct < d.instant → exec .fieldOutputApply s = .next s)) ∧
    (∀ t o img, nextCommand s = some (t, o, img) → commandsOutputs s = false ∨ s.fio.faulted = true →
      exec .fieldOutputCommand s = .next (kept t o)) ∧
    (∀ t o img, nextCommand s = some (t, o, img) → commandsOutputs s = true → s.fio.faulted = false → s.fio.safe = true ∨
      o < s.clk.ct + 1000 → exec .fieldOutputCommand s = .next ((emit (.fieldCommand o (commandBits (ownStates s img))) (kept t o)).modFio
        fun x => { x with cmdsDropped := x.cmdsDropped + 1 })) ∧
    (c.comparable = true → c.comparedSince + 1000000 ≤ s.clk.now →
      (c.cmd = false → c.readback = true → c.cfg.wiredOr = false → exec (.readbackDiscrepancy n) s = .next (setDiag n 4 s)) ∧
      (c.cmd = c.readback → exec (.readbackDiscrepancy n) s = .next s)) ∧
    (exec (.barrierEcho false ns) s = .next (mod fun x => { x with errors := satInc x.errors 1 })) ∧
    (s.clk.now < s.fio.refreshAt + 100000 → ∀ b, exec (.barrierRefresh b) s = .next s) ∧
    (nextCommand s = none → exec .fieldOutputCommand s = .next s) ∧
    (firstCommand s.fio.commands = none → exec .fieldOutputApply s = .next s)

/-- Output protection and sags (R465, R468 to R470): shutdown, latch-off and overload set and clear their bits; a sag below 18 V for 1
ms marks a group, one below 12 V for 50 µs switches it off, 18 V for 10 ms restores it. -/
def Obligations.OutputProtection : Prop :=
  ∀ (n : ChanId) (g : Fin 4) (mv : W16) (us : Nat) (s : State),
    let c := chanOf s n
    let x := s.fio.groups.get g
    let u := modGroup g (fun x => { x with mv := mv }) s
    let all (f : ChanId → State → State) (t : State) := (groupChans g).foldl (fun t n => f n t) t
    let sag (k : Nat) := event 0x0503 (det [(1, g.val), (1, k)])
    (c.cfg.output = true → c.on = true → ∃ t, exec (.thermalShutdown n) s = .next t ∧ (chanOf t n).on = false ∧
      (chanOf t n).shutdowns = satInc c.shutdowns 1) ∧
    (c.has 4 = true → exec (.thermalRestart n) s = .next (drive n (clearDiag n 0x10 s))) ∧
    (c.has 5 = true → c.cmd = false → c.cmdAt + 1000000 ≤ s.clk.now → exec (.latchOffRelease n) s = .next
      (drive n (modChan n (fun c => { c with shutAt := [] }) (clearDiag n 0x20 s)))) ∧
    (mv.toNat ≤ 2200 → exec (.groupOverload g ⟨mv, us⟩) s = .next (modGroup g (fun x => { x with ma := mv, overload := false }) s)) ∧
    (mv.toNat < 18000 → 1000 ≤ us → x.sag1 = false → x.sag2 = false → exec (.sagLevel1 g ⟨mv, us⟩) s = .next
      (sag 1 (all (fun n => setDiag n 0x80) (modGroup g (fun x => { x with sag1 := true }) u)))) ∧
    (mv.toNat < 12000 → 50 ≤ us → x.sag2 = false → exec (.sagLevel2 g ⟨mv, us⟩) s = .next
      (sag 2 (all (fun n t => drive n (setDiag n 0x80 t)) (modGroup g (fun x => { x with sag2 := true }) u)))) ∧
    (18000 ≤ mv.toNat → 10000 ≤ us → x.sag1 = true ∨ x.sag2 = true → exec (.sagRestore g ⟨mv, us⟩) s = .next
      (event 0x0504 (det [(1, g.val)]) (all restoreChan (modGroup g (fun x => { x with sag1 := false, sag2 := false }) u)))) ∧
    (2200 < mv.toNat → x.overload = false → 100000 ≤ us → exec (.groupOverload g ⟨mv, us⟩) s = .next
      (event 0x0507 (det [(1, g.val), (2, mv.toNat)]) (modGroup g (fun x => { x with ma := mv, overload := true }) s))) ∧
    (18000 ≤ mv.toNat ∨ us < 1000 → exec (.sagLevel1 g ⟨mv, us⟩) s = .next u) ∧
    (12000 ≤ mv.toNat ∨ us < 50 → exec (.sagLevel2 g ⟨mv, us⟩) s = .next u) ∧
    (mv.toNat < 18000 ∨ us < 10000 → exec (.sagRestore g ⟨mv, us⟩) s = .next u) ∧
    ((chanOf (drive n s) n).on = stageOn s n ∧ ∀ m, m ≠ n → chanOf (drive n s) m = chanOf s m) ∧
    (∀ b : Byte, b &&& c.diag ≠ b → (chanOf (setDiag n b s) n).diag = c.diag ||| b) ∧ (∀ b : Byte, b &&& c.diag = b → setDiag n b s = s) ∧
    (c.cmd = true → exec (.latchOffRelease n) s = .next s)

/-- The vote and the lane monitors (R22, R23, R188, R269 to R275): a copy that a lane in service delivers is judged; of three, equal
heads pass with the third's fault and three different ones end in SAFE_TALK; of two, different ones are a fault. -/
def Obligations.VotingAndFaults : Prop :=
  ∀ (l : LaneId) (khz mv ns : Nat) (s : State),
    let f := modLane l (fun x => { x with khz := BitVec.ofNat 21 (min 2097151 khz), freqAt := s.clk.now }) s
    let u := modLane l (fun x => { x with mv := BitVec.ofNat 16 (min 65535 mv) }) s
    let due := (s.lanes.get l).freqAt + 10000 ≤ s.clk.now
    let pop (rest : List EffRec) := modLane l (fun x => { x with buffer := rest }) s
    (∀ r rest, (s.lanes.get l).buffer = r :: rest → (s.lanes.get l).state = .inService →
      exec (.recordCopyArrival l .clean none) s = .next (arrive l r (pop rest))) ∧
    (due → 960000 ≤ khz → khz ≤ 1040000 → exec (.laneFreqMeasure l khz) s = .next f) ∧
    (mv < 760 ∨ 840 < mv → 2000 < ns → exec (.laneSupplyFault l ⟨mv, ns⟩) s = .next (judgeAll (laneFault 0x0105 0xFF l
      (det [(2, mv), (1, bit (decide (800 < mv)))]) (modLane l (fun x => { x with supplyFaults := satInc x.supplyFaults 1 }) u)))) ∧
    (∀ r, s.tsk.rels.find? (fun r => overdue s r l && decide (laneDeadline r l ≤ s.clk.ct)) = some r →
      exec (.laneDeadline l) s = .next (judgeAll (laneFault 0x0108 r.task l
        (det [(1, r.task), (3, 0), (4, r.cycle % 4294967296)]) s))) ∧
    (∀ r rest, (s.lanes.get l).buffer = r :: rest → (s.lanes.get l).state = .inService →
      (∀ v, exec (.recordCopyArrival l .clean (some v)) s = .next (voterFault v (pop rest))) ∧
      (∀ d, exec (.recordCopyArrival l .bad d) s = .next (judgeAll (laneFault 0x0107 r.task.toNat l (recDetail r)
          (modLane l (fun x => { x with uncorr := satInc x.uncorr 1 }) (pop rest)))))) ∧
    (∀ (t : Nat) (a b c : EffRec), s.vot.mode = 0 → lanesIn s = [0, 1, 2] → headOf s t 0 = some a → headOf s t 1 = some b →
      headOf s t 2 = some c →
        (a = b → a = c → judgeOnce t s = some (passAgreed t a s)) ∧
        (a = b → a ≠ c → judgeOnce t s = some (passAgreed t a (minorityFault 2 c s))) ∧
        (a = c → a ≠ b → judgeOnce t s = some (passAgreed t a (minorityFault 1 b s))) ∧
        (b = c → a ≠ b → judgeOnce t s = some (passAgreed t b (minorityFault 0 a s))) ∧
        (a ≠ b → a ≠ c → b ≠ c → judgeOnce t s = some (noMajority a s))) ∧
    (∀ (t : Nat) (x y : LaneId) (a b : EffRec), s.vot.mode = 1 → lanesIn s = [x, y] → headOf s t x = some a → headOf s t y = some b →
      (a = b → judgeOnce t s = some (passAgreed t a s)) ∧
      (a ≠ b → judgeOnce t s = some (twoLaneFault 0x0102 t none (recDetail b) s))) ∧
    (∀ ecc d, (s.lanes.get l).buffer = [] → exec (.recordCopyArrival l ecc d) s = .next s) ∧
    (due → khz < 960000 ∨ 1040000 < khz →
      exec (.laneFreqMeasure l khz) s = .next (judgeAll (laneFault 0x0104 0xFF l (det [(4, khz)]) f))) ∧
    (¬ due → exec (.laneFreqMeasure l khz) s = .next s) ∧
    ((760 ≤ mv ∧ mv ≤ 840) ∨ ns ≤ 2000 → exec (.laneSupplyFault l ⟨mv, ns⟩) s = .next u) ∧
    (s.tsk.rels = [] → exec (.laneDeadline l) s = .next s)

/-- Exclusion and return of a lane, and one-lane operation (R278 to R280, R285, R286, R292, R293): the verdict of a self-test waits
for its turn, the final copy gives a lane the memory of a lane in service, whose corrected errors are counted (R35), ten seconds
starve it. -/
def Obligations.LaneRecovery : Prop :=
  ∀ (l x : LaneId) (part : Byte) (us : W16) (n : Nat) (s : State),
    let st := (s.lanes.get l).state
    let t := finalCopyNs s (s.lanes.get l).dirty.count
    (st = .selfTest → (s.lanes.get l).verdict = none → exec (.laneSelfTestDone l part us) s =
      .next (decideNow (modLane l (fun x => { x with verdict := some (part, us) }) s))) ∧
    (st = .resync → 10000000000 ≤ resyncElapsed s l → ∃ t, exec (.resyncStarved l) s = .next t ∧ (t.lanes.get l).state = .starved) ∧
    (s.vot.mode = 2 →
      (s.vot.hourAt + 3600000000000 ≤ s.clk.opNs → exec .oneLaneHourly s = .next
        (allowanceEvent 1 (s.modVot fun v => { v with hourAt := v.hourAt + 3600000000000 }))) ∧
      (singleLeft s = 0 → exec .oneLaneExpired s = .next (enterSafeTalk 5 (allowanceEvent 2 s))) ∧
      (s.vot.savedAt + 60000000000 ≤ s.clk.opNs → exec .oneLaneAllowanceSave s = .next
        (saveTimePage (s.modVot fun v => { v with savedAt := s.clk.opNs })))) ∧
    (sourceLane s = some x → st = .resync → (s.lanes.get l).step = 3 → (s.lanes.get l).finalDone = false → windowFits s t = true →
      s.fwu.pausing = false → storeIntact s = true → ∃ u, exec (.resyncFinalCopy l n) s = .next u ∧
        (u.lanes.get l).mem = (s.lanes.get x).mem ∧ (u.lanes.get l).ctx = (s.lanes.get x).ctx ∧ (u.lanes.get l).finalDone = true ∧
        (u.lanes.get l).finalT = s.clk.ct + t ∧ (∀ m, m ≠ l → m ≠ x → u.lanes.get m = s.lanes.get m) ∧
        u.lanes.get x = { s.lanes.get x with corr := satInc (s.lanes.get x).corr n }) ∧
    (sourceLane s = none → exec (.resyncFinalCopy l n) s = .next s) ∧
    (st ≠ .selfTest → exec (.laneSelfTestDone l part us) s = .next s) ∧
    (resyncElapsed s l < 10000000000 → exec (.resyncStarved l) s = .next s) ∧
    (s.vot.mode ≠ 2 → exec .oneLaneHourly s = .next s ∧ exec .oneLaneExpired s = .next s ∧ exec .oneLaneAllowanceSave s = .next s)

/-- The descriptors of the lanes (R281, R294 to R296, R302, R303): the state of voter and lanes, the injection test while STOPPED, a
new self-test of a FAILED lane, exclusion in two-out-of-three mode, and the return of a lane that waits. -/
def Obligations.LaneDescriptors : Prop :=
  ∀ (q : RingId) (l : LaneId) (p : Option (Fin 778)) (s : State) (e : Outst),
    let st := (s.lanes.get l).state
    let fin (d : Done) (t : State) := endDesc q e.num d t
    let mine := e.desc.par 24 1 = l.val
    (served s q 0x80 e → 208 ≤ e.desc.len → exec (.laneStatus q) s = .next (fin
      (doneOk (leBytes 1 s.vot.mode ++ leBytes 1 (lanesMask s))) (bufWrite e.desc 0 (regBytes (votWord s) 0 16 ++
        (allFin 3).flatMap fun l => fitTo 48 (regBytes (laneWord s l) 0 9)) s))) ∧
    (served s q 0x84 e → s.sys.run = .stopped → exec (.votInject q p) s = .next
      (fin (doneOk (leBytes 4 (votWord (injectTest p s) 0x28))) (injectTest p s))) ∧
    (served s q 0x81 e → mine → s.vot.mode ≠ 3 → st = .failed → exec (.laneRetest q) s = .next (waitDesc q e.num e.bound
      (awaitVerdict l (modLane l (fun x => { x with state := .selfTest, verdict := none, retest := some (q, e.num) }) s)))) ∧
    (served s q 0x83 e → mine → st = .wait ∨ st = .starved ∨ st = .hostOut → (sourceLane s).isSome = true →
      exec (.laneRejoin q) s = .next (fin (doneOk []) (startResync true l s))) ∧
    (served s q 0x82 e → mine → s.vot.mode = 0 → exec (.laneExclude q) s = .next (fin (doneOk []) (judgeAll (restartResync 2
      (setMode 1 ((releaseUnit l (stopLane .hostOut 0 l s)).modVot fun v =>
        { v with exclusions := vmod v.exclusions l fun n => satInc n 1 })))))) ∧
    (served s q 0x84 e → s.sys.run ≠ .stopped → exec (.votInject q p) s = .next (endDesc q e.num (doneWith 0x07 0) s)) ∧
    (served s q 0x81 e → mine → s.vot.mode = 3 ∨ st ≠ .failed → exec (.laneRetest q) s = .next (fin (doneWith 0x07 0) s)) ∧
    (served s q 0x82 e → mine → s.vot.mode ≠ 0 → exec (.laneExclude q) s = .next (fin (doneWith 0x07 0) s)) ∧
    (served s q 0x83 e → mine → st = .inService → exec (.laneRejoin q) s = .next (fin (doneWith 0x07 0) s))

/-- Acceptance on a ring (R305, R306, R310, R312, R320 to R322, R361): a frame on a port that is up is judged; a bad FCS is counted,
an own or an aged frame is not accepted, a SEQ ahead of the reference is taken, the same one is a second copy. Silence empties
references. -/
def Obligations.RingFrames : Prop :=
  ∀ (p : PortId) (r : StraitId) (bs : List Byte) (s : State),
    (portUp s p = true → portRing p = some r → ∀ bad, exec (.frameReceive p bad bs) s = .next (receiveOn p r bad bs s)) ∧
    (∃ t, exec .streamSilence s = .next t ∧ ∀ (q : StraitId) (n : Fin 256),
      let x := (s.net.rings.get q).stations.get n
      let y := (t.net.rings.get q).stations.get n
      (x.inRef.at_ + reuseNs ≤ s.clk.now → y.inRef.ref = none) ∧ (s.clk.now < x.inRef.at_ + reuseNs → y.inRef = x.inRef) ∧
        (x.aRef.at_ + reuseNs ≤ s.clk.now → y.aRef.ref = none) ∧ (s.clk.now < x.aRef.at_ + reuseNs → y.aRef = x.aRef)) ∧
    (∀ q e, 8 ≤ p.val → rdBe bs 12 2 = 0x0800 → waitingDesc 0x47 (fun d => d.par 24 1 == p.val) s = some (q, e) →
      (16 + bs.length ≤ e.desc.len → exec (.backboneFrameReceive p bs) s = .next (endDesc q e.num (doneOk (leBytes 2 bs.length))
        (bufWrite e.desc 0 (leBytes 8 s.clk.ct ++ leBytes 2 bs.length ++ leBytes 6 0 ++ bs) s))) ∧
      (e.desc.len < 16 + bs.length → exec (.backboneFrameReceive p bs) s = .next (endDesc q e.num (doneWith 0x11 0) s))) ∧
    (∀ up speed full, let t := s.modNet fun n =>
        { n with ports := vmod n.ports p fun x => { x with up := up, speed := if up then speed else 0, full := up && full } }
      portUp t p = portUp s p → exec (.portLinkChange p up speed full) s = .next t) ∧
    (portUp s p = false → ∀ bad, exec (.frameReceive p bad bs) s = .next s) ∧
    (portUp s p = true → portRing p = none → exec (.frameReceive p false bs) s = .next s) ∧
    (p.val < 8 → exec (.backboneFrameReceive p bs) s = .next s) ∧
    (s.sys.selfTestEnded = true → noFirmware s = false → (ringOf s r).active = true → isStrait bs = true →
      (ownFrame s r (straitOf bs) = true → receiveOn p r false bs s = s) ∧
      (ownFrame s r (straitOf bs) = false →
        (512 ≤ (straitOf bs).hops + 1 → receiveOn p r false bs s = countHops r s) ∧
        ((straitOf bs).hops + 1 < 512 → receiveOn p r false bs s = accept p r bs (notePartner r bs (forward r p bs s))))) ∧
    (straitVersion bs = 1 → 0 < (straitOf bs).typ → (straitOf bs).typ ≤ 13 →
      ((straitOf bs).dst ≠ domainAddr r.val → accept p r bs s = s) ∧
      ((straitOf bs).dst = domainAddr r.val → (straitOf bs).crc s.rws.netSeed ≠ carriedCrc bs → accept p r bs s = countCrc r s)) ∧
    (straitVersion bs ≠ 1 → accept p r bs s = countBad r s) ∧
    (∀ n len f y o, y.ref = some o →
      let d := serialDiff (BitVec.ofNat 32 f.seq) o
      (0 < d → acceptSeq p r n len f y s = acceptData r n f (recordFrame p f len (setRef r n f s))) ∧
      (d = 0 → acceptSeq p r n len f y s = secondCopy p r n len f y s) ∧ (d < 0 → acceptSeq p r n len f y s = countOld r s))

/-- The ring cycle (R331, R332, R335, R338, R347, R349, R357): due instants, gates, discovery, catch-up and their time-outs run for
every ring; the third miss in a row drops a station, a cycle with its frame clears its misses, and what waits leaves at a gate's
opening. -/
def Obligations.RingCycle : Prop :=
  ∀ (r : StraitId) (n : Nat) (f : InFrame) (s : State),
    let all (g : StraitId → State → State) (t : State) := (allFin 4).foldl (fun t r => g r t) t
    exec .dueInstant s = .next (settleModes (all (fun r t => dueRing r (endCatchUps r t)) s)) ∧
    (gateShut s r s.clk.ct = true → exec (.gateClose r) s = .next (modStrait r (fun x => { x with closed := true }) s)) ∧
    (gateShut s r s.clk.ct = false → let t := settleModes (flushGate r s)
      (originates t r = true → exec (.gateOpen r) s = .next (catchUps r (sendMode r t))) ∧
      (originates t r = false → exec (.gateOpen r) s = .next t)) ∧
    exec .catchUpRepeat s = .next (all (fun r t => if originates t r && !gateClosed t r then catchUps r t else t) s) ∧
    exec .discoverRound s = .next (settleModes (all discoverRing s)) ∧
    exec .inaugurationTimeout s = .next (all expireInaug (settleModes s)) ∧
    (s.fwu.pausing = false → exec .aResponseTimeout s = .next (all (fun r t => (ringOf t r).atxns.foldl (fun t a => expireA r a t) t) s)) ∧
    (gateShut s r s.clk.ct = true → exec (.gateOpen r) s = .next s) ∧ (gateShut s r s.clk.ct = false → exec (.gateClose r) s = .next s) ∧
    (s.fwu.pausing = true → exec .aResponseTimeout s = .next s) ∧
    ((ringOf s r).active = true → (ringOf s r).count ≠ 0 → (ringOf s r).sched.isSome = true → runsProgram s = true →
      dueCt s r (ringOf s r).cycle ≤ s.clk.ct → synced s = false → dueRing r s = settleCycle r (ownMap s r) s) ∧
    (s.clk.ct < dueCt s r (ringOf s r).cycle → dueRing r s = s) ∧
    (n < 256 → (stationOf s r n).misses = 2 → (stationOf s r n).dropped = false →
      (stationOf (missCycle r n s) r n).dropped = true ∧ (stationOf (missCycle r n s) r n).misses = 3) ∧
    (n < 256 → (stationOf s r n).misses < 2 → (stationOf (missCycle r n s) r n).dropped = (stationOf s r n).dropped ∧
      (stationOf (missCycle r n s) r n).misses = (stationOf s r n).misses + 1) ∧
    (n < 256 → (stationOf s r n).dropped = false → (stationOf s r n).lagging = false →
      (stationOf (takeCycle r n f s) r n).misses = 0 ∧ (stationOf (takeCycle r n f s) r n).used = some f)

/-- The network descriptors that read or wait (R349, R361): the reads copy what the registers hold, NET_A_RECV waits for a message,
NET_RAW_SEND sends on a port that is up, NET_INAUGURATE begins a discovery and NET_STATION_INFO asks a station. -/
def Obligations.NetworkDescriptors : Prop :=
  ∀ (q : RingId) (r : StraitId) (s : State) (e : Outst),
    let x := ringOf s r
    let fin (d : Done) (t : State) := endDesc q e.num d t
    let on (op : Nat) := served s q op e ∧ e.desc.par 24 1 = r.val
    (on 0x40 → 136 ≤ e.desc.len → exec (.netStatus q) s = .next (fin (doneOk (leBytes 4 (stateWord s r)))
      (bufWrite e.desc 0 (statusBytes s r) s))) ∧
    (on 0x45 → 32 ≤ e.desc.len → exec (.netCounters q) s = .next (fin (doneOk []) (bufWrite e.desc 0 (counterBytes s r) s))) ∧
    (on 0x42 → 16 ≤ e.desc.len → exec (.netARecv q) s = .next (waitDesc q e.num none s)) ∧
    (on 0x43 → originates s r = true → x.sched.isSome = true → x.inaug = 0 → exec (.netInaugurate q) s = .next (waitDesc q e.num e.bound
      (sendDiscover r (modStrait r (fun x => { x with inaug := 1, inaugAt := s.clk.now, inaugBy := some (q, e.num) }) s)))) ∧
    (on 0x44 → 64 ≤ e.desc.len → e.desc.par 25 1 < x.count → originates s r = true → x.sched.isSome = true → exec (.netStationInfo q) s =
      .next (waitDesc q e.num e.bound (openA r (some (q, e.num)) (e.desc.par 25 1) 0 4 [0] 16 0 0 s))) ∧
    (on 0x40 → e.desc.len < 136 → exec (.netStatus q) s = .next (fin (doneWith 0x06 0) s)) ∧
    (served s q 0x42 e → 3 < e.desc.par 24 1 → exec (.netARecv q) s = .next (fin (doneWith 0x06 0) s)) ∧
    (on 0x43 → originates s r = false ∨ x.inaug ≠ 0 → exec (.netInaugurate q) s = .next (fin (doneWith 0x07 0) s)) ∧
    (on 0x44 → 64 ≤ e.desc.len →
      (x.count ≤ e.desc.par 25 1 → exec (.netStationInfo q) s = .next (fin (doneWith 0x08 0) s)) ∧
      (e.desc.par 25 1 < x.count → originates s r = false → exec (.netStationInfo q) s = .next (fin (doneOk [])
        (bufWrite e.desc 0 (stationInfo s r (e.desc.par 25 1) []) s))))

/-- NET_A_SEND, raw frames and the cut-off (R193, R328, R334, R337, R361): a request waits for its response, and is refused where its
deadline cannot be met; at a cut-off the images are formed, and the OUT frames that are due leave unless none may be sent. -/
def Obligations.RequestsAndCutOffs : Prop :=
  ∀ (q : RingId) (r : StraitId) (dma : List Byte) (s : State) (e : Outst),
    let n := e.desc.par 25 1
    let len := e.desc.par 28 2
    let fin (d : Done) (t : State) := endDesc q e.num d t
    exec .cutOff s = .next (sendDue (cutTails (cutDue s))) ∧
    (served s q 0x46 e → e.desc.par 24 1 = 8 → 60 ≤ len → len ≤ 1514 → roundUp len 8 ≤ e.desc.len →
      (portUp s 8 = true → exec (.netRawSend q dma) s = .next (fin (doneOk (leBytes 8 s.clk.ct))
        (emitFrame 8 ((bufRead e.desc dma s).take len) s))) ∧
      (portUp s 8 = false → exec (.netRawSend q dma) s = .next (fin (doneWith 0x07 0) s))) ∧
    (served s q 0x47 e → (e.desc.par 24 1 = 8 ∨ e.desc.par 24 1 = 9) → 16 ≤ e.desc.len →
      exec (.netRawRecv q) s = .next (waitDesc q e.num none s)) ∧
    (served s q 0x41 e → e.desc.par 24 1 = r.val → requestOp (e.desc.par 27 1) = true → 1 ≤ len → len ≤ 16384 →
      roundUp len 8 + e.desc.par 32 4 ≤ e.desc.len →
      (originates s r = true → (ringOf s r).sched.isSome = true → (ringOf s r).count ≠ 0 →
        (n < (ringOf s r).count → e.desc.deadline = 0 → exec (.netASend q dma) s = .next (waitDesc q e.num e.bound
          (openA r (some (q, e.num)) n (e.desc.par 26 1) (e.desc.par 27 1) ((bufRead e.desc dma s).take len) (e.desc.par 32 4)
            (roundUp len 8) 0 s))) ∧
        ((ringOf s r).count ≤ n → exec (.netASend q dma) s = .next (fin (doneWith 0x08 0) s)) ∧
        (∀ t, n < (ringOf s r).count → meetsDeadline s r n len (longestRsp (e.desc.par 27 1))
            (max e.fetchCt (ringOf s r).sentUntil) e.desc.deadline = some t →
          exec (.netASend q dma) s = .next (fin (doneWith 0x02 (min 4294967295 ((t - e.desc.deadline) / 1000))) s))) ∧
      (originates s r = false → exec (.netASend q dma) s = .next (fin (doneWith 0x07 0) s))) ∧
    (commandsOutputs s = false → sendDue s = s) ∧
    (s.tsk.rels = [] → s.tsk.tails = [] → exec .cutOff s = .next s) ∧
    (∀ x ∈ s.tsk.rels, x.cut = false → x.instant ≤ s.clk.ct + x.lead →
      ∃ y ∈ (cutDue s).tsk.rels, y.task = x.task ∧ y.cycle = x.cycle ∧ y.cut = true)

/-- The cells of the Narrows link (R366, R367, R377, R380, R382 to R385, R388, R390, R396): a cell that a module that sends cells has
not taken yet is acknowledged and does what it carries; a repeat is acknowledged alone, and a module that is no pair member takes
none. -/
def Obligations.NarrowsCells : Prop :=
  ∀ (n : Nat) (s : State),
    (sendsCells s = true → s.pair.rxSeen.contains n = false → let got (f : State → State) := f (noteCell n s)
      (∀ ct st ilk mark down, exec (.narrowsHeartbeat n ct st ilk ⟨mark, down⟩) s = .next (got (takeHeartbeat ct st ilk mark down))) ∧
      (∀ l, exec (.narrowsEdges n l) s = .next (got fun t => t.modPair fun p =>
        { p with points := recentChanges t.clk.ct (l.reverse ++ p.points) })) ∧
      (∀ r due map crc, exec (.narrowsAccepted n r due map crc) s = .next (got (takeAccepted r { ring := r, due := due, map := map, crc := crc }))) ∧
      (∀ task ct, exec (.narrowsRecognised n task ct) s = .next (got (takeRecognised task ct))) ∧
      (∀ i, exec (.narrowsState n i) s = .next (got (takeStateCell i))) ∧
      (∀ b, exec (.roleDecision n b) s = .next (got (takeDecision b))) ∧
      (∀ i src, unprepared i s = false → exec (.narrowsMirror n i src) s = .next (got (takeMirror i src))) ∧
      exec (.relinquish n) s = .next (got fun t => tryClaim (t.modPair fun p =>
        { p with partner := if partnerActive t then some .waiting else p.partner })) ∧
      exec (.revertReq n) s = .next (got fun t => if mirrors t && t.pair.handover.isNone then beginHandOver none t else t) ∧
      ∀ i src, unprepared i s = true → exec (.narrowsMirror n i src) s = .next (takeMirror i src s)) ∧
    (∀ ct c, (s.pair.unacked.find? fun c => c.seq == n) = some c → exec (.narrowsCellAck n ct) s = .next (cellAcked c ct
      (s.modPair fun p => { p with unacked := p.unacked.filter fun x => x.seq != n }))) ∧
    (∀ ct, (s.pair.unacked.find? fun c => c.seq == n) = none → exec (.narrowsCellAck n ct) s = .next s) ∧
    (sendsCells s = true → s.pair.rxSeen.contains n = true → ∀ f, takeCell n f s = noteCell n s) ∧
    (sendsCells s = false → ∀ f, takeCell n f s = s)

/-- The Narrows link itself (R366 to R368, R384, R399): it fails after 20 µs without a cell, at a delay above 10 µs, without symbol
lock or at the fourth lack of an acknowledgement, and comes up after 100 ms of valid cells; what the active module mirrors and
checks by itself. -/
def Obligations.NarrowsLink : Prop :=
  ∀ (s : State) (n : Nat) (feats : List W32) (o : W32) (clock : W64),
    let p := s.pair
    let d := s.modPair fun p => { p with delay := BitVec.ofNat 16 (min 65535 (n / 2)), delayAt := s.clk.now }
    let c := s.modPair fun p => { p with crcAt := s.clk.now }
    (p.up = true → p.cellAt + 20000 ≤ s.clk.now → exec .narrowsSilence s = .next (failLink 1 s)) ∧
    (pairMember s = true → exec .narrowsLockLoss s = .next (failLink 4 s)) ∧
    (p.delayAt + 1000000 ≤ s.clk.now → n / 2 ≤ 10000 → exec (.narrowsDelayMeasure n) s = .next d) ∧
    (∀ c, overdueCells s = [c] → c.tries < 3 → exec .cellRepeat s = .next (repeatCell c s)) ∧
    (sendsCells s = true → p.sentAt + 2000 ≤ s.clk.now → let t := pollPair s
      exec .heartbeatSend s = .next (pairSend (.heartbeat t.clk.ct t.pair.state t.pair.ilkIn t.clk.ct (portsDown t)) t)) ∧
    (mirrors s = true → p.crcAt + 1000000000 ≤ s.clk.now → quiet s = true → latestRelease s = none →
      exec .retentiveCrcMirror s = .next (mirrorTime c)) ∧
    (pairMember s = true → hasAuthority s = true → p.frameCheckAt + 100000000 ≤ s.clk.now → exec .standbyFrameCheck s = .next
      (((allFin 4).filter fun r => originates s r && (ringOf s r).count != 0).foldl
        (fun t r => openA r none (frameCheckStation t r) 0 4 [0] 16 0 0 t) (s.modPair fun p => { p with frameCheckAt := s.clk.now }))) ∧
    (linkReady s = true → exec (.narrowsLinkUp feats ⟨o, clock⟩) s = .next (serveJoin (proceed (checkInterlock (sendPreferred
      (reportPoints allPoints (event 0x0306 (det [(2, p.delay.toNat)]) (s.modPair fun p =>
        { p with
          up := true, failed := false, joinBar := joinBarOf feats o (optionWord s), refused := false, clockId := some clock })))))))) ∧
    (linkReady s = false → exec (.narrowsLinkUp feats ⟨o, clock⟩) s = .next s) ∧
    (p.delayAt + 1000000 ≤ s.clk.now → 10000 < n / 2 → pairMember s = true → exec (.narrowsDelayMeasure n) s = .next (failLink 2 d)) ∧
    (s.clk.now < p.delayAt + 1000000 → exec (.narrowsDelayMeasure n) s = .next s) ∧
    (s.clk.now < p.cellAt + 20000 → exec .narrowsSilence s = .next s) ∧ (s.clk.now < p.sentAt + 2000 → exec .heartbeatSend s = .next s) ∧
    (pairMember s = false → exec .narrowsLockLoss s = .next s) ∧ (overdueCells s = [] → exec .cellRepeat s = .next s) ∧
    (∀ r, latestRelease s = some r → mirrors s = true → p.crcAt + 1000000000 ≤ s.clk.now → quiet s = true → hasRetentive s = true →
      exec .retentiveCrcMirror s = .next (mirror (.retentive r.1 r.2 (retentiveCrc s)) (mirrorTime c))) ∧
    (mirrors s = false → exec .retentiveCrcMirror s = .next s) ∧ (hasAuthority s = false → exec .standbyFrameCheck s = .next s)

/-- The interlock line, claims and the start of a pair (R369 to R376): a claim that has toggled for 100 µs with the partner not active
for 50 µs makes the module active; the line is declared by its runs of edges; test pulses leave every 10 s and are missed after 11
s. -/
def Obligations.PairClaims : Prop :=
  ∀ s : State,
    let p := s.pair
    let run := s.modPair fun p => { p with ilkIn := true, ilkRunAt := s.clk.now }
    let pulse := emit .ilkPulse (s.modPair fun p => { p with pulseSentAt := s.clk.now })
    (p.ilkIn = true → exec .ilkInToggling s = .next run) ∧
    (p.ilkIn = true → p.ilkRunAt + 50000 ≤ s.clk.now → exec .ilkInStopped s = .next (tryClaim (checkInterlock
      (s.modPair fun p => { p with ilkIn := false, ilkOffAt := s.clk.now, ilkOffCt := s.clk.ct })))) ∧
    (p.state = .claiming → p.toggling = true → p.toggleSince + 100000 ≤ s.clk.now → p.ilkIn = false → p.ilkOffAt + 50000 ≤ s.clk.now →
      exec .claimComplete s = .next (becomeActive s)) ∧
    (∀ t, p.backoff = some t → t ≤ s.clk.now → exec .claimBackoffEnd s = .next (tryClaim (s.modPair fun p => { p with backoff := none }))) ∧
    (pairMember s = true → p.toggling = false → p.pulseSentAt + 10000000000 ≤ s.clk.now → exec (.ilkTestPulse true) s = .next pulse) ∧
    exec .ilkTestPulseReceived s = .next (s.modPair fun p => { p with pulseSeenAt := s.clk.now }) ∧
    (pairMember s = true → p.toggling = true → max p.pulseSeenAt p.toggleSince + 11000000000 ≤ s.clk.now →
      exec .ilkPulseMissing s = .next (event 0x030F 0 (s.modPair fun p => { p with pulseSeenAt := s.clk.now }))) ∧
    (sendsCells s = true → p.state = .waiting → p.up = false → p.startAt + 2000000000 ≤ s.clk.now →
      (claimOpen s = true → exec .pairStartTimeout s = .next (claimIf s)) ∧
      (claimOpen s = false → exec .pairStartTimeout s = .next (detach false s))) ∧
    (pairMember s = true → p.ilkIn = false → exec .ilkInToggling s = .next (bothToggle run)) ∧
    (pairMember s = true → p.toggling = false → p.pulseSentAt + 10000000000 ≤ s.clk.now →
      exec (.ilkTestPulse false) s = .next (event 0x030F 0 pulse)) ∧
    (s.clk.now < p.ilkRunAt + 50000 → exec .ilkInStopped s = .next s) ∧ (p.state ≠ .claiming → exec .claimComplete s = .next s) ∧
    (p.backoff = none → exec .claimBackoffEnd s = .next s) ∧ (p.toggling = true → ∀ b, exec (.ilkTestPulse b) s = .next s) ∧
    (p.toggling = false → exec .ilkPulseMissing s = .next s) ∧ (p.up = true → exec .pairStartTimeout s = .next s)

/-- Losing the partner, joins and reverts (R377, R378, R393 to R397): after 100 µs an active module goes on alone and a standby is
detached; a join makes its final copy in a quiet window or stops after 120 s; the third revert within an hour is given up with
0x030B. -/
def Obligations.PairChanges : Prop :=
  ∀ (a n : Nat) (s : State),
    let p := s.pair
    let last := lastHour s p.reverts
    let d := s.modPair fun p => { p with dirty := p.lines.count }
    let may := pairMember s = true ∧ preferred s = true ∧ s.rwp.pairCfg.getLsbD 2 = true ∧ p.revertOff = false ∧ healthy s = true ∧
      p.healthySince = some a ∧ a + holdOffNs s ≤ s.clk.now
    (p.state = .activeSynced → pairMember s = true → p.failed = true → p.failedAt + 100000 ≤ s.clk.now →
      exec .activeAloneEntry s = .next (goAlone false s)) ∧
    (p.state = .standbySynced → pairMember s = true → p.ilkIn = true → p.failed = true → p.failedAt + 100000 ≤ s.clk.now →
      exec .standbyDetach s = .next (detach false (event 0x0308 (det [(1, 5)]) s))) ∧
    (pairMember s = true → p.joinAt + 120000000000 ≤ s.clk.now → p.state = .standbyJoining → p.joinStep ≠ 0 →
      exec .joinTimeout s = .next (detach true (event 0x0308 (det [(1, 3)]) s))) ∧
    exec .revertWaitTimeout s = .next (tryHandOver s) ∧
    exec .revertRateWindowExpiry s = .next (s.modPair fun p => { p with reverts := lastHour s p.reverts }) ∧
    (pairMember s = true → p.state = .activeAlone → p.joinStep = 3 → p.up = true → quiet d = true → nextPeriodic d = none →
      exec (.joinFinalCopy n) s = .next (sendFinal ((modLane (readLane s) (fun x => { x with corr := satInc x.corr n }) d).modPair fun p =>
        { p with joinStep := 4, joinFinal := true, joinT := s.clk.ct + joinFinNs d }))) ∧
    (may → last.length < 2 → ∃ t, exec .revertHoldOff s = .next t ∧ t.pair.reverts = last ++ [s.clk.now] ∧ t.pair.revertOff = false) ∧
    (may → 2 ≤ last.length → ∃ t, exec .revertHoldOff s = .next t ∧ t.pair.revertOff = true) ∧
    (pairMember s = true → p.state = .activeAlone → p.joinStep = 3 → p.up = true → quiet d = false → exec (.joinFinalCopy n) s = .next d) ∧
    (p.state ≠ .activeSynced → exec .activeAloneEntry s = .next s) ∧ (p.ilkIn = false → exec .standbyDetach s = .next s) ∧
    (p.joinStep ≠ 3 → exec (.joinFinalCopy n) s = .next s) ∧ (s.clk.now < p.joinAt + 120000000000 → exec .joinTimeout s = .next s) ∧
    (pairMember s = false → exec .revertHoldOff s = .next (trackHealth s))

/-- The pair descriptors (R396, R397, R401, R402): PAIR_STATUS copies 64 bytes; PAIR_SWITCH begins a hand-over on an active module
with a synchronised standby; PAIR_JOIN and PAIR_DETACH need a pair state that fits; PAIR_REVERT_ARM arms again. -/
def Obligations.PairDescriptors : Prop :=
  ∀ (q : RingId) (s : State) (e : Outst),
    let fin (d : Done) (t : State) := endDesc q e.num d t
    (served s q 0xA0 e → 64 ≤ e.desc.len → exec (.pairStatus q) s = .next (fin
      (doneOk (leBytes 1 s.pair.state.code ++ leBytes 1 (partnerCode s))) (bufWrite e.desc 0 (pairStatusBytes s) s))) ∧
    (served s q 0xA1 e → mirrors s = true → s.pair.handover = none → exec (.pairSwitch q) s = .next (waitDesc q e.num e.bound
      (leaveService q e.num (beginHandOver (some (q, e.num)) s)))) ∧
    (served s q 0xA2 e → pairMember s = true → s.pair.state = .standbyDetached →
      exec (.pairJoin q) s = .next (fin (doneOk []) (enterJoining s))) ∧
    (served s q 0xA3 e → pairMember s = true → s.pair.state = .standbySynced →
      exec (.pairDetach q) s = .next (fin (doneOk []) (detach true s))) ∧
    (served s q 0xA4 e → exec (.pairRevertArm q) s = .next (fin (doneOk [])
      (s.modPair fun p => { p with revertOff := false, reverts := [] }))) ∧
    (served s q 0xA3 e → pairMember s = true → s.pair.state = .activeSynced → exec (.pairDetach q) s = .next (fin (doneOk [])
      (goAlone false (s.modPair fun p => { p with fixed := true })))) ∧
    (served s q 0xA0 e → e.desc.len < 64 → exec (.pairStatus q) s = .next (fin (doneWith 0x06 4) s)) ∧
    (served s q 0xA1 e → mirrors s = false →
      (hasAuthority s = true → exec (.pairSwitch q) s = .next (fin (doneWith 0x07 0) s)) ∧
      (hasAuthority s = false → exec (.pairSwitch q) s = .next (fin (doneWith 0x03 0) s))) ∧
    (pairMember s = false → (served s q 0xA2 e → exec (.pairJoin q) s = .next (fin (doneWith 0x07 0) s)) ∧
      (served s q 0xA3 e → exec (.pairDetach q) s = .next (fin (doneWith 0x07 0) s)))

/-- Programs (R228 to R230, R260, R262). An image that passes its checks goes into an EMPTY bank, and a key and an image are kept with
a password. -/
def Obligations.Programs : Prop :=
  ∀ (q : RingId) (dma : List Byte) (bad : List LaneId) (b : Fin 2) (s : State) (e : Outst),
    let at_ (op : Nat) : Prop := served s q op e ∧ mirrors s = false
    let ends (d : Done) (t : State) : Host.Outcome State Fault Refusal := .next (endDesc q e.num d t)
    let p := e.desc.par
    let bs := bufRead e.desc dma s
    (served s q 0x24 e → ∃ r, r.length = 32 ∧ exec (.prgStatus q) s = ends (doneOk r)
      (bufWrite e.desc 0 ((s.prg.dropped.take (e.desc.len / 4)).flatMap fun y => leBytes 4 y.toNat) s)) ∧
    (∀ k, served s q 0x26 e → p 24 1 = 0 → e.desc.len = 104 → s.prg.key = none → k = some (bs.take 97) → exec (.prgKeySet q dma) s =
      .next (waitDesc q e.num e.bound (mirror (.storePage keyPage (keyBody k)) (queuePage 4 keyPage (keyBody k) (.keySet q e.num k) s)))) ∧
    (p 24 1 = b.val →
      (∀ i c, p 25 1 ≤ 1 → served s q 0x25 e → bankImage s b = some i → i.damaged = false → c = checkPwd 0 true (slice e.desc.param 16 16) s →
        c.1 = true → exec (.prgSave q) s = .next (waitDesc q e.num e.bound (queueImage q e.num (p 25 1) (p 26 1 == 1)
          (pagesOf (i.raw.length / 256 + 1) i.raw) c.2))) ∧
      (∀ i, at_ 0x20 → checkImage s.prg.key bs = .ok i → (bankOf s b).state = .empty → resyncing s = false →
        (∀ l, l ∈ lanesIn s → bad.contains l = false) → exec (.prgLoad q ⟨dma, bad⟩) s =
        ends (doneOk (leBytes 8 i.id.toNat)) (modBank b (fun _ => ⟨.loaded, some i, none⟩) s)) ∧
      (∀ c, p 25 1 ≤ 1 → served s q 0x25 e → c = checkPwd 0 true (slice e.desc.param 16 16) s → c.1 = false →
        (bankImage s b).any (fun i => !i.damaged) = true → exec (.prgSave q) s = ends (doneWith 0x0E 0) c.2) ∧
      (p 25 1 ≤ 1 → served s q 0x25 e → bankImage s b = none → exec (.prgSave q) s = ends (doneWith 0x07 0) s) ∧
      (∀ i, at_ 0x20 → checkImage s.prg.key bs = .ok i →
        ((bankOf s b).state ≠ .empty → exec (.prgLoad q ⟨dma, bad⟩) s = ends (doneRefused 7 0 0 0) s) ∧
        ((bankOf s b).state = .empty → resyncing s = true → exec (.prgLoad q ⟨dma, bad⟩) s = ends (doneRefused 8 0 0 0) s) ∧
        (∀ l, (bankOf s b).state = .empty → resyncing s = false → l ∈ lanesIn s → bad.contains l = true →
          ∃ d, exec (.prgLoad q ⟨dma, bad⟩) s = ends d (freeValue s).2 ∧ d.status ≠ 0))) ∧
    (served s q 0x26 e → p 24 1 = 0 → e.desc.len = 104 → s.prg.key.isSome = true →
      exec (.prgKeySet q dma) s = ends (doneWith 0x07 0) s)

/-- The switch of a program (R235, R238, R243, R246, R259). A map maps its bank, and a bank is released outside a switch; at the
commit point the lanes apply the map, and at X the banks change places. -/
def Obligations.SwitchOfAProgram : Prop :=
  ∀ (q : RingId) (dma : List Byte) (b : Fin 2) (s : State) (e : Outst),
    (∀ m c, served s q 0x21 e → mirrors s = false → checkMap s (bufRead e.desc dma s) = .ok (m, c) → exec (.prgMapLoad q dma) s =
      .next (endDesc q e.num (doneOk (leBytes 1 c.val)) (modBank c (fun x => { x with state := .mapped, map := some m }) s))) ∧
    (∀ x, served s q 0x22 e → ownsTxn s q = true → e.desc.par 24 1 = b.val → e.desc.par 25 1 ≤ 1 →
      namedInstant s (e.desc.par 25 1) (e.desc.par 26 1) (e.desc.par 32 8) = some x →
      exec (.prgSwitchStage q) s = .next (endDesc q e.num (doneOk (leBytes 8 x)) (mirror (.txnSwitch b.val x) (stageSwitch b.val x s)))) ∧
    (served s q 0x23 e → e.desc.par 24 1 = b.val → bankHeld s b = false →
      exec (.prgRelease q) s = .next (endDesc q e.num (doneOk []) (modBank b (fun _ => ⟨.empty, none, none⟩) s))) ∧
    (∀ w, s.prg.sw = some w → w.done = true → w.x ≤ s.clk.ct → exec .switchInstant s = .next (switchNow w s)) ∧
    (∀ w t m, s.prg.sw = some w → w.done = false → w.x ≤ s.clk.ct + w.w → m = switchMapOf s w.bank →
      t = (confirmQuiet (modBank w.bank (fun x => { x with state := .switching }) s)).modPrg (fun p =>
        { p with sw := some { w with done := true }, fetch := w.bank }) →
      exec .switchCommit s = .next (((lanesIn t).foldl (fun t l => modLane l (switchLane m) t) t).modPrg fun p =>
        { p with edges := m.entries.filter fun e => e.kind == 5 || e.kind == 6 })) ∧
    (served s q 0x23 e → e.desc.par 24 1 = b.val → bankHeld s b = true →
      exec (.prgRelease q) s = .next (endDesc q e.num (doneWith 0x07 0) s)) ∧
    (∀ r, served s q 0x21 e → mirrors s = false → checkMap s (bufRead e.desc dma s) = .error r →
      exec (.prgMapLoad q dma) s = .next (endDesc q e.num (doneRefused r 0 0 0) s)) ∧
    (served s q 0x22 e → ownsTxn s q = false → exec (.prgSwitchStage q) s = .next (endDesc q e.num (doneWith 0x10 0) s)) ∧
    (s.prg.sw = none → exec .switchCommit s = .next s ∧ exec .switchInstant s = .next s) ∧
    (∀ w, s.prg.sw = some w → s.clk.ct < w.x → w.done = true → exec .switchInstant s = .next s ∧ exec .switchCommit s = .next s) ∧
    ((bankOf (swapBanks b s) b).state = .active ∧ (bankOf (swapBanks b s) b).map = none ∧
      ∀ c, c ≠ b → (bankOf s c).state = .active → (bankOf (swapBanks b s) c).state = .retained)

/-- Running and stopping (R186, R187, R193, R217 to R220). RUN needs STOPPED; STOP ends 10 µs after its fetch; output instants apply
what is due; an overrun ends a release or its error task. -/
def Obligations.RunAndStop : Prop :=
  ∀ (q : RingId) (l : LaneId) (en : Fin 4) (s : State) (e : Outst),
    (∀ a t, served s q 0x28 e → s.sys.run = .stopped → startHost s = (.ok a, t) →
      exec (.run q) s = .next (endDesc q e.num (doneOk (leBytes 8 a)) t)) ∧
    (served s q 0x29 e → mirrors s = false → runsProgram s = true → s.tsk.stopAt = none →
      exec (.stop q) s = .next (waitDesc q e.num none (beginStop (e.fetchCt + 10000) (some (q, e.num)) s))) ∧
    (∀ t qn n, s.tsk.stopAt = some t → stopOver s t = true → s.tsk.stopper = some (qn, n) →
      exec .stopComplete s = .next (endDesc qn n (doneOk (leBytes 8 t)) (enterStopped 1 s))) ∧
    (s.sys.run = .starting → s.sys.selfTestEnded = true → (activeImage s).isSome = true → s.tsk.sched.isSome = true →
      ringsReady s = true → exec .autonomousStart s = .next (enterRunning s)) ∧
    (∀ o, (dueInstants s).min? = some o → exec .outputInstant s = .next (forgetReleases
      ((s.tsk.rels.filter fun r => r.cut && !r.done && r.instant == o).foldl (fun t r => applyRelease r t)
        ((s.tsk.tails.filter fun t => t.cut && !t.done && t.instant == o).foldl (fun t x => applyTail x t) s)))) ∧
    (∀ r, running s l en = some r → (ctxOf s l r.task).inErr = false → r.entry.budget ≤ (ctxOf s l r.task).usedCycles →
      exec (.budgetOverrun l en) s = .next (ownerFault l r 0x20 (ctxOf s l r.task).stopIndex s)) ∧
    (∀ r x, running s l en = some r → r.err = some x → (ctxOf s l r.task).inErr = true → x.budget ≤ (ctxOf s l x.task).usedCycles →
      exec (.errorTaskOverrun l en) s = .next (errorFault l r x 0 (ctxOf s l x.task).stopIndex s)) ∧
    (served s q 0x28 e → s.sys.run = .stopped → ∀ r t, startHost s = (.error r, t) →
      exec (.run q) s = .next (endDesc q e.num (doneRefused r 0 0 0) t)) ∧
    (∀ i k t, s.sys.run = .stopped → startImage s = (.ok i, t) → t.tsk.sched = some k → k.imageId = i.id →
      (startHost s).1 = .ok (startHost s).2.tsk.anchor ∧ (startHost s).2.sys.run = .running) ∧
    (served s q 0x29 e → mirrors s = false → s.tsk.stopAt.isSome = true →
      exec (.stop q) s = .next (endDesc q e.num (doneWith 0x07 0) s)) ∧
    (served s q 0x28 e → s.sys.run ≠ .stopped → exec (.run q) s = .next (endDesc q e.num (doneWith 0x07 0) s)) ∧
    (served s q 0x29 e → mirrors s = false → runsProgram s = false →
      exec (.stop q) s = .next (endDesc q e.num (doneWith 0x07 0) s)) ∧
    (s.tsk.stopAt = none → exec .stopComplete s = .next s) ∧
    (∀ t, s.tsk.stopAt = some t → stopOver s t = true → s.tsk.stopper = none → exec .stopComplete s = .next (enterStopped 1 s)) ∧
    ((s.sys.run ≠ .starting ∨ s.sys.selfTestEnded = false) → exec .autonomousStart s = .next s) ∧
    (s.sys.run = .starting → (activeImage s).isSome = true → s.tsk.sched.isSome = true → ringsReady s = false →
      exec .autonomousStart s = .next s) ∧
    ((dueInstants s).min? = none → exec .outputInstant s = .next (forgetReleases s)) ∧
    (running s l en = none → exec (.budgetOverrun l en) s = .next s ∧ exec (.errorTaskOverrun l en) s = .next s)

/-- Releases of tasks (R175 to R179, R191, R242). The periodic releases of the earliest CT that is due are made together; an event is
recognised and then released; a snapshot reaches a lane at its stagger, and when its in-areas are copied the release is ready. -/
def Obligations.TaskReleases : Prop :=
  ∀ (l : LaneId) (bad : List W32) (s : State),
    (∀ x r, mayRelease s = true → duePeriodic s = x :: r → exec (.taskRelease bad) s = .next
      (clearLostEdges ((x :: r.filter fun y => y.1 == x.1).foldl (fun t y => releasePeriodic bad y t) s))) ∧
    (∀ v rest t, s.tsk.raw = v :: rest → taskEntry s v.task = some t → runsProgram s = true → t.eventSrc ≤ 3 →
      mirrors s = false → s.pair.state ≠ .standbySynced → exec .eventRecognised s = .next (recognise t s.clk.ct v.stamp v.trigger
        (s.modTsk fun k => { k with raw := rest }))) ∧
    (∀ ct t r, mayRelease s = true → dueEvents s = (ct, t) :: r → let x := taskRun s t.task
      exec (.eventTaskRelease bad) s = .next (clearLostEdges (x.triggers.foldl (fun s y => endTrigger ct y s)
        (release bad t ((x.cycle.map fun c => c + 1).getD x.k0) ct (modRun t.task (fun x => { x with due := none, triggers := [] }) s))))) ∧
    (∀ r, firstRel (s.tsk.rels.filter fun r => r.lanes.get l && !r.delivered.get l && decide (r.ct + stagger l ≤ s.clk.ct)) = some r →
      exec (.snapshotDelivery l) s =
        .next (takeSnap l r (modRel r.task r.cycle (fun r => { r with delivered := vmod r.delivered l fun _ => true }) s))) ∧
    (∀ r, firstRel (s.tsk.rels.filter fun r => r.lanes.get l && r.delivered.get l && !r.ready.get l) = some r →
      exec (.snapshotCopyDone l) s = .next (schedule l r.entry.engine
        (modRel r.task r.cycle (fun r => { r with ready := vmod r.ready l fun _ => true })
          (modCtx l r.task (fun c => { c.startAt r.entry.entry with index := 0, effects := 0, inErr := false, aborted := false })
            (r.xsel.foldl (fun t i => copyIn l i t) s))))) ∧
    (mayRelease s = false → exec (.taskRelease bad) s = .next s ∧ exec (.eventTaskRelease bad) s = .next s) ∧
    (mayRelease s = true → duePeriodic s = [] → exec (.taskRelease bad) s = .next s) ∧
    (mayRelease s = true → dueEvents s = [] → exec (.eventTaskRelease bad) s = .next s) ∧
    (s.tsk.raw = [] → exec .eventRecognised s = .next s) ∧
    (s.tsk.rels = [] → exec (.snapshotDelivery l) s = .next s ∧ exec (.snapshotCopyDone l) s = .next s)

/-- Variables and the descriptors of a task (R213 to R216). A read waits for the releases it needs; a write is entered with its apply
instant, and times out 10 s after it; a trigger is recognised as an event of its task; the status of each task is listed. -/
def Obligations.VariablesAndTaskStatus : Prop :=
  ∀ (q : RingId) (dma : List Byte) (s : State) (e : Outst),
    let n := e.desc.par 24 1
    let bs := bufRead e.desc dma s
    exec .varReadCapture s = .next (runReads s) ∧
    (served s q 0x30 e → 1 ≤ n → n ≤ 64 → roundUp (4 * n) 8 ≤ e.desc.len → exec (.varRead q dma) s =
      .next (runReads (waitDesc q e.num e.bound (leaveService q e.num (s.modTsk fun k => { k with reads := k.reads ++ [{
        ring := q, num := e.num, gets := (List.range n).map fun i => startGet s (BitVec.ofNat 32 (rd bs (4 * i) 4)) }] }))))) ∧
    (∀ l, served s q 0x31 e → mirrors s = false → 1 ≤ n → n ≤ 64 → parseWrites s bs n 0 0 = .ok l →
      exec (.varWrite q dma) s = .next (waitDesc q e.num e.bound (enterWrite q e.num e.fetchCt l s))) ∧
    (∀ w, s.tsk.writes = [w] → max w.p (s.tsk.floor.get w.ring) + 10000000000 ≤ s.clk.ct →
      exec .varWriteTimeout s = .next (timeoutWrite w s)) ∧
    (∀ n ts, served s q 0x2B e → n = (if e.desc.par 25 1 = 0 then 256 else e.desc.par 25 1) → e.desc.par 24 1 + n ≤ 256 →
      ts = (schedTasks s).filter (fun t => decide (e.desc.par 24 1 ≤ t.task ∧ t.task < e.desc.par 24 1 + n)) → 48 * ts.length ≤ e.desc.len →
      exec (.taskStatus q) s = .next (endDesc q e.num (doneOk (leBytes 1 ts.length)) (bufWrite e.desc 0 (ts.flatMap (taskStatusBytes s)) s))) ∧
    (∀ t, served s q 0x2A e → mirrors s = false → taskEntry s (e.desc.par 24 1) = some t → t.kind = .event → t.eventSrc = 5 →
      runsProgram s = true →
      exec (.taskTrigger q) s = .next (waitDesc q e.num none (rawEvent (e.desc.par 24 1) e.fetchCt (some (q, e.num)) s))) ∧
    (served s q 0x30 e → (n < 1 ∨ 64 < n) → exec (.varRead q dma) s = .next (runReads (endDesc q e.num (doneWith 0x06 0) s))) ∧
    (∀ d, served s q 0x31 e → mirrors s = false → 1 ≤ n → n ≤ 64 → parseWrites s bs n 0 0 = .error d →
      exec (.varWrite q dma) s = .next (endDesc q e.num d s)) ∧
    (s.tsk.writes = [] → exec .varWriteTimeout s = .next s) ∧
   (served s q 0x2B e → 256 < e.desc.par 24 1 + e.desc.par 25 1 →
      exec (.taskStatus q) s = .next (endDesc q e.num (doneWith 0x06 0) s)) ∧
    (∀ t, served s q 0x2A e → mirrors s = false → taskEntry s (e.desc.par 24 1) = some t → t.kind = .event → t.eventSrc = 5 →
      runsProgram s = false → exec (.taskTrigger q) s = .next (endDesc q e.num (doneWith 0x07 0) s))

/-- Forces (R206 to R212). A force that passes its checks takes effect at its force instant, later than 10 µs and no earlier than the
ring pair's last; a force is cleared where one is planned; the changes due are made together. -/
def Obligations.Forces : Prop :=
  ∀ (q : RingId) (dma : List Byte) (s : State) (e : Outst),
    let sym : W32 := BitVec.ofNat 32 (e.desc.par 24 4)
    let v := forceValue e.desc dma s
    let at_ := forceInstantAt s q e.fetchCt
    let op (c : Nat) : Prop := served s q c e ∧ mirrors s = false
    let holds (x : Nat) (f : ForceAct) : Host.Outcome State Fault Refusal := .next (waitDesc q e.num (some x) (enterForce q e.num x f s))
    exec .forceInstant s = .next ((s.tsk.changes.filter (forceDue s s.clk.ct)).foldl
      (fun t c => endDesc c.ring c.num (doneOk (forceResult c)) t) (s.modTsk fun k =>
        { k with forces := forcesAt s s.clk.ct, changes := k.changes.filter fun c => !forceDue s s.clk.ct c })) ∧
    (∀ f, op 0x34 → 1 ≤ e.desc.par 28 2 → e.desc.par 28 2 ≤ 4096 → forceCheck s sym v = none → f = forceOf s q e.fetchCt sym v →
      exec (.forceSet q dma) s = holds f.at_ (.set f)) ∧
    (op 0x35 → (s.tsk.planned.any fun f => f.sym == sym) = true → exec (.forceClear q) s = holds at_ (.clear sym)) ∧
    (op 0x37 → exec (.forceClearAll q) s = holds at_ .clearAll) ∧
    (served s q 0x36 e → let fs := s.tsk.forces.foldl (fun l f => insertForce f l) []
      24 * fs.length ≤ e.desc.len → exec (.forceList q) s = .next (endDesc q e.num
        (doneOk (leBytes 4 fs.length ++ leBytes 4 fs.length)) (bufWrite e.desc 0 (fs.flatMap (forceBytes s)) s))) ∧
    (∀ d, op 0x34 → 1 ≤ e.desc.par 28 2 → e.desc.par 28 2 ≤ 4096 → forceCheck s sym v = some d →
      exec (.forceSet q dma) s = .next (endDesc q e.num d s)) ∧
    (op 0x35 → (s.tsk.planned.any fun f => f.sym == sym) = false → exec (.forceClear q) s = .next (endDesc q e.num (doneWith 0x08 0) s)) ∧
    (e.fetchCt + 10000 ≤ at_ ∧ s.tsk.lastForceAt.get q ≤ at_) ∧
    (∀ f l, f ∈ (ForceAct.set f).make l ∧ (∀ g, g ∈ (ForceAct.clear f.sym).make l → g.sym ≠ f.sym) ∧ ForceAct.clearAll.make l = [])

/-- Destination tables (R149, R150, R158 to R161, R163, R385). A table change that is checked takes effect and completes, or with a
synchronised partner waits for the acknowledgement of its MIRROR cell; one that is not ends at once; loading one table leaves the
others; ways that no release can see are freed. -/
def Obligations.Tables : Prop :=
  ∀ (q : RingId) (dma : List Byte) (n : Fin 16) (s : State) (e : Outst),
    (served s q 0x2C e → mirrors s = false → ∀ i r, planLoad e.desc dma s.clk.ct s = .ok (i, r) →
      exec (.tblLoad q dma) s = .next (endDesc q e.num (doneOk r) (forwardTable i (takeTable i s)))) ∧
    (served s q 0x2D e → mirrors s = false → ∀ i r, planUpdate e.desc dma s.clk.ct s = .ok (i, r) →
      exec (.tblUpdate q dma) s = .next (endDesc q e.num (doneOk r) (forwardTable i (takeTable i s)))) ∧
    (served s q 0x2E e → e.desc.par 24 1 = n.val → (s.tbl.get n).loaded = true → let g := leBytes 8 (s.tbl.get n).gen
      (mirrors s = false → exec (.tblUnload q) s =
        .next (endDesc q e.num (doneOk g) (forwardTable (.tableUnload n.val s.clk.ct) (unloadTable n s.clk.ct s)))) ∧
      (mirrors s = true → exec (.tblUnload q) s = .next (pairSendFor (some (q, e.num)) g
        (.mirror (.tableUnload n.val (s.clk.ct + 150000)) (some (q, e.slot)))
        (waitDesc q e.num e.bound (s.modPair fun p => { p with lastMirrored := some (q.val, e.slot) }))))) ∧
    (served s q 0x2F e →
      (e.desc.par 24 1 = n.val → ∃ r, exec (.tblInfo q) s = .next (endDesc q e.num (doneOk r) s) ∧ r.length = 36 ∧
        r.take 8 = leBytes 8 (s.tbl.get n).gen) ∧
      (16 ≤ e.desc.par 24 1 → exec (.tblInfo q) s = .next (endDesc q e.num (doneWith 0x08 0) s))) ∧
    exec .tableWayFree s = .next ((allFin 16).foldl (fun t n => repairTable n (freeWays n t)) s) ∧
    (served s q 0x2C e → ∀ d, planLoad e.desc dma s.clk.ct s = .error d → exec (.tblLoad q dma) s = .next (endDesc q e.num d s)) ∧
    (served s q 0x2D e → ∀ d, planUpdate e.desc dma s.clk.ct s = .error d → exec (.tblUpdate q dma) s = .next (endDesc q e.num d s)) ∧
    (served s q 0x2E e → e.desc.par 24 1 = n.val → (s.tbl.get n).loaded = false →
      exec (.tblUnload q) s = .next (endDesc q e.num (doneWith 0x07 0) s)) ∧
    (∀ k salt off at_ l, let t := loadTable n k salt off at_ l s
      (t.tbl.get n).loaded = true ∧ (t.tbl.get n).from_ = at_ ∧ (t.tbl.get n).gen = 1 ∧ (∀ m, m ≠ n → t.tbl.get m = s.tbl.get m)) ∧
    (∀ at_, let t := unloadTable n at_ s
      (t.tbl.get n).loaded = false ∧ (t.tbl.get n).entries = [] ∧ (∀ m, m ≠ n → t.tbl.get m = s.tbl.get m))

/-- The ALU (R93, R94, R129, R170). The row of an operation writes its result from A and B, readable in the next context cycle and not
before; A, the registers, the scratchpad and the effect buffer stay, and so do the other lanes. -/
def Obligations.AluOperations : Prop :=
  ∀ (l : LaneId) (en : Fin 4) (b : W64) (s : State) (r : Release),
    let c := engineCtx s l r
    let a := c.aluA
    let gives (i : Instr) (v : W64) : Prop :=
      ∃ t, exec i s = .next t ∧ moved s t l r { c.nextBundle with aluRes := c.aluRes.push c.cyc 1 v } (s.lanes.get l).mem []
    (atBoundary s l en r →
      gives (.aluAdd l en b) (a + b) ∧ gives (.aluSub l en b) (a - b) ∧ gives (.aluMul l en b) (a * b) ∧ gives (.aluPass l en b) b ∧
      gives (.aluAnd l en b) (a &&& b) ∧ gives (.aluOr l en b) (a ||| b) ∧ gives (.aluXor l en b) (a ^^^ b) ∧
      gives (.aluShl l en b) (a <<< (b.toNat % 64)) ∧ gives (.aluShr l en b) (a >>> (b.toNat % 64)) ∧
      gives (.aluSar l en b) (a.sshiftRight (b.toNat % 64)) ∧
      gives (.aluEq l en b) (if a = b then 1 else 0) ∧ gives (.aluNe l en b) (if a = b then 0 else 1) ∧
      gives (.aluLt l en b) (if a.toInt < b.toInt then 1 else 0) ∧ gives (.aluLe l en b) (if a.toInt ≤ b.toInt then 1 else 0) ∧
      gives (.aluLtu l en b) (if a.toNat < b.toNat then 1 else 0) ∧ gives (.aluLeu l en b) (if a.toNat ≤ b.toNat then 1 else 0) ∧
      gives (.aluMin l en b) (if a.toInt ≤ b.toInt then a else b) ∧ gives (.aluMax l en b) (if a.toInt ≤ b.toInt then b else a)) ∧
    (∀ v, (c.aluRes.push c.cyc 1 v).readAt (c.cyc + 1) = v ∧ (c.aluRes.push c.cyc 1 v).readAt c.cyc = c.aluRes.readAt c.cyc) ∧
    (running s l en = none → ∀ p n, issueUnit p l en b n s = s)

/-- The bit unit (R130 to R134). A read combines the addressed bit with the accumulator; a bracket keeps the accumulator and restores
it; a write changes the addressed bit alone, past the force filter; a bad bracket operand, a seventeenth bracket and a close
without an open are faults 0x13, 0x11 and 0x12. -/
def Obligations.BitOperations : Prop :=
  ∀ (l : LaneId) (en : Fin 4) (b : W64) (s : State) (r : Release), atBoundary s l en r →
    let c := engineCtx s l r
    let m := (s.lanes.get l).mem
    let x := dataBit m (bitAddr b)
    let gives (i : Instr) (acc : Bool) (st : List (Bool × Nat)) (k : Memory) (w : List Nat) : Prop := ∃ t, exec i s = .next t ∧ moved s t l r
      { c.nextBundle with
        acc := acc, stack := st, bitAcc := c.bitAcc.push c.cyc 1 (flag64 acc), bitDepth := c.bitDepth.push c.cyc 1 (BitVec.ofNat 64 st.length) } k w
    let reads (i : Instr) (acc : Bool) : Prop := gives i acc c.stack m []
    let writes (i : Instr) (v : Bool) : Prop :=
      gives i c.acc c.stack (writeBit (forcedOf s (fetchImage s) r.forces) m (bitAddr b) v) (linesOf (bitAddr b / 8) 1)
    let faults (i : Instr) (f : Nat) : Prop := exec i s = .next (codeFault l r f c.stopIndex (commitEng l r (engOf s l r) s))
    reads (.bitLd l en b) x ∧ reads (.bitAnd l en b) (c.acc && x) ∧ reads (.bitOr l en b) (c.acc || x) ∧
    reads (.bitXor l en b) (xor c.acc x) ∧ reads (.bitAndn l en b) (c.acc && !x) ∧ reads (.bitOrn l en b) (c.acc || !x) ∧
    reads (.bitInv l en b) (!c.acc) ∧ reads (.bitLdv l en b) (decide (b ≠ 0)) ∧
    writes (.bitSt l en b) c.acc ∧ writes (.bitSet l en b) (c.acc || x) ∧ writes (.bitRst l en b) (!c.acc && x) ∧
    (1 ≤ b.toNat → b.toNat ≤ 5 → c.stack.length < 16 → gives (.bitOpen l en b) true ((c.acc, b.toNat) :: c.stack) m []) ∧
    (∀ y op st, c.stack = (y, op) :: st → gives (.bitClose l en b) (bracketOp op y c.acc) st m []) ∧
    ((b.toNat < 1 ∨ 5 < b.toNat) → faults (.bitOpen l en b) 0x13) ∧
    (1 ≤ b.toNat → b.toNat ≤ 5 → 16 ≤ c.stack.length → faults (.bitOpen l en b) 0x11) ∧
    (c.stack = [] → faults (.bitClose l en b) 0x12)

/-- The timer and edge units (R135 to R139). Each row reads its operands, writes its result or its store, and leaves the rest of the
context, the other lanes and the rest of the state; a timer's instance is written one cycle later, at once where the engine goes
on to another context. -/
def Obligations.TimersAndEdges : Prop :=
  ∀ (l : LaneId) (en : Fin 4) (b : W64) (s : State) (r : Release), atBoundary s l en r →
    let c := engineCtx s l r
    let m := (s.lanes.get l).mem
    let off := c.tmrInst.toNat % 0x400000
    let times (i : Instr) (p : Nat) : Prop := ∀ o, off % 16 = 0 →
      timerCall p (r.ct % 2 ^ 64) c.tmrPreset.toNat (b != 0) (timerAt m off) = .ok o →
      let d (wb : List (Nat × Nat × List Byte)) : Ctx := { c.nextBundle with
        tmrQ := c.tmrQ.push c.cyc 2 (flag64 o.q), tmrEt := c.tmrEt.push c.cyc 2 (BitVec.ofNat 64 o.et), timerWb := wb, resv := [(c.cyc + 1, 0, 1)] }
      ∃ t, exec i s = .next t ∧ (moved s t l r (d [(c.cyc + 1, off, o.inst.bytes)]) m [] ∨
        moved s t l r (d []) (dataWrite m off o.inst.bytes) (linesOf off o.inst.bytes.length))
    let at_ := bitAddr c.edgInst
    let edges (i : Instr) (v : Bool) : Prop := ∃ t, exec i s = .next t ∧ moved s t l r { c.nextBundle with edgQ := c.edgQ.push c.cyc 1 (flag64 v) }
      (dataWrite m (at_ / 8) [setBit8 (memGet (dataBase + at_ / 8) m) (at_ % 8) (b != 0)]) (linesOf (at_ / 8) 1)
    times (.tmrTon l en b) 0x190 ∧ times (.tmrTof l en b) 0x191 ∧ times (.tmrTp l en b) 0x192 ∧ times (.tmrTacc l en b) 0x193 ∧
    times (.tmrTrst l en b) 0x194 ∧ edges (.edgRise l en b) ((b != 0) && !dataBit m at_) ∧ edges (.edgFall l en b) ((b == 0) && dataBit m at_)

/-- The load/store, image and table units (R151 to R156, R164 to R169). A load's value is readable in LS_RES, zero-extended, two
context cycles on; a store writes the low bytes of LS_DATA past the force filter; an access past the data partition is fault 0x1C,
one off its alignment 0x1D, and neither writes. -/
def Obligations.LoadsAndStores : Prop :=
  ∀ (l : LaneId) (en z : Fin 4) (b : W64) (s : State) (r : Release), atBoundary s l en r →
    let c := engineCtx s l r
    let m := (s.lanes.get l).mem
    let fs := forcedOf s (fetchImage s) r.forces
    let off := (c.lsBase + b).toNat
    let n := 2 ^ z.val
    let goes (i : Instr) (c : Ctx) (m : Memory) (w : List Nat) : Prop := ∃ t, exec i s = .next t ∧ moved s t l r c m w
    (off + n ≤ dataSize → off % n = 0 →
      goes (.lsLd l en z b) { c.nextBundle with lsRes := c.lsRes.push c.cyc 2 (BitVec.ofNat 64 (dataNat m off n)) } m [] ∧
      goes (.lsSt l en z b) c.nextBundle (dataWriteF fs m off (leBytes n c.lsData.toNat)) (linesOf off n)) ∧
    (∀ v, assoc? (b.setWidth 32) (envOf s l r).snap = some v → goes (.imgRd l en b)
      { c.nextBundle with imgVal := c.imgVal.push c.cyc 2 v.value, imgQual := c.imgQual.push c.cyc 2 (BitVec.ofNat 64 v.quality) } m []) ∧
    ((r.outs.any fun o => o.point == c.imgPt.setWidth 32) = true → (ctxOf s l r.task).effects < r.entry.maxEffects → c.lastWr = none →
      ∃ t k, exec (.imgWr l en b) s = .next t ∧ (t.lanes.get l).buffer = (s.lanes.get l).buffer ++ [k] ∧ k.value = b ∧
        k.target = c.imgPt.setWidth 32 ∧ k.kind = 1 ∧ k.task = BitVec.ofNat 8 r.task ∧ (t.lanes.get l).mem = m ∧
        (ctxOf t l r.task).effects = (ctxOf s l r.task).effects + 1 ∧ onlyLane l s t) ∧
    (∀ k, (runningEntry s l r).tbl = true → ((c.slots.get z).readAt c.cyc).1 ≠ 1 → k = lookup s.tbl r.tables c.tblSel.toNat b → k.2.2 = none →
      goes (.tblLookup l en z b) { c.nextBundle with
        slots := vmod c.slots z fun _ => { status := 1, value := 0, flight := some (c.cyc + 1200, k.1, k.2.1) } } m []) ∧
    (∀ f i, (i = .lsLd l en z b ∨ i = .lsSt l en z b) → ((dataSize < off + n ∧ f = 0x1C) ∨ (off + n ≤ dataSize ∧ off % n ≠ 0 ∧ f = 0x1D)) →
      exec i s = .next (codeFault l r f c.stopIndex (commitEng l r (engOf s l r) s)))

/-- Branches, block operations, bundles and the end of a task (R104, R110 to R115, R140, R143, R144, R153). A branch takes effect
after its delay bundle, and one in a delay bundle is fault 5; a block operation of no elements ends at once; TSK_END ends the
release; damaged code is a fault of the lane. -/
def Obligations.BlocksAndBranches : Prop :=
  ∀ (l : LaneId) (en : Fin 4) (b : W64) (n : Nat) (s : State) (r : Release),
    let c := engineCtx s l r
    let goes (i : Instr) (t : Int) (k : W64) : Prop := atBoundary s l en r → c.delay = none →
      ∃ u, exec i s = .next u ∧ moved s u l r { c.nextBundle with delay := some t, link := k } (s.lanes.get l).mem []
    let ends (i : Instr) (v : W64) (q : Nat × Nat) : Prop := atBoundary s l en r → (c.blkSize = 1 ∨ c.blkSize = 2 ∨ c.blkSize = 4 ∨ c.blkSize = 8) →
      c.blkSrc.toNat % c.blkSize.toNat = 0 → c.blkDst.toNat % c.blkSize.toNat = 0 → c.blkCnt = 0 →
      ∃ t, exec i s = .next t ∧ moved s t l r { c.nextBundle with blkRes := v, resv := [(c.cyc + 1, q)] } (s.lanes.get l).mem []
    goes (.brAbs l en b) b.toInt c.link ∧ goes (.brRel l en b) (c.pc + b.toInt) c.link ∧
    goes (.brCall l en b) b.toInt (BitVec.ofInt 64 (c.pc + 2)) ∧ goes (.brRet l en b) c.link.toInt c.link ∧
    (atBoundary s l en r → ∃ t, exec (.tskEnd l en) s = .next (codeEnd l r t) ∧
      moved s t l r { c.nextBundle with ending := true } (s.lanes.get l).mem []) ∧
    (atBoundary s l en r → exec (.bundleIssue l en ⟨.clean, n⟩) s = .next (afterIssue l r c.stopIndex
      (issueBundle (envOf s l r) (fetchCode s) (min ((runningEntry s l r).budget - c.usedCycles - 1) n) (engOf s l r)) s)) ∧
    ends (.blkMove l en ⟨b, n⟩) 0 (1, 1) ∧ ends (.blkFill l en ⟨b, n⟩) 0 (0, 1) ∧ ends (.blkCmp l en ⟨b, n⟩) 0xFFFFFFFFFFFFFFFF (2, 0) ∧
    ends (.blkScan l en ⟨b, n⟩) 0xFFFFFFFFFFFFFFFF (1, 0) ∧
    (∀ (task : Fin 256) (k : Fin 4), ∃ t, exec (.tblLookupDone l task k) s = .next t ∧ onlyLane l s t ∧
      ((ctxOf t l task.val).slots.get k = TblSlot.settle (ctxOf s l task.val).cyc ((ctxOf s l task.val).slots.get k)) ∧
      (t.lanes.get l).mem = (s.lanes.get l).mem) ∧
    (atBoundary s l en r → c.delay.isSome = true → ∀ i, i ∈ [Instr.brAbs l en b, .brRel l en b, .brCall l en b, .brRet l en b] →
      exec i s = .next (codeFault l r 5 c.stopIndex (commitEng l r (engOf s l r) s))) ∧
    (running s l en = some r → exec (.bundleIssue l en ⟨.bad, n⟩) s = .next (judgeAll (laneFault 0x0106 r.task l
      (det [(4, c.pc.toNat * 16 + s.prg.fetch.val * 0x400000)]) (modLane l (fun x => { x with uncorr := satInc x.uncorr 1 }) s)))) ∧
    (running s l en = none → exec (.tskEnd l en) s = .next s ∧ exec (.bundleIssue l en ⟨.clean, n⟩) s = .next s ∧
      exec (.bundleIssue l en ⟨.bad, n⟩) s = .next s)

/-- No command stops the block (the model's choice where the spec leaves an effect open: log entry 1), and none changes the commands
that wait behind it, nor the option, identity, serial number and MAC address that the fuses give the module before delivery (R5,
R10): from every state, each step keeps them and takes the front command alone off the queue. -/
def Obligations.EveryCommandCompletesAndKeepsTheIdentity : Prop :=
  (∀ (i : Instr) (s : State), ∃ t, exec i s = .next t) ∧ (∀ s : State, ∃ t, step s = .next t) ∧
  (∀ (i : Instr) (s t : State), exec i s = .next t → t.fixed = s.fixed) ∧
  (∀ s t : State, step s = .next t →
    t.pending = s.pending.tail ∧ t.fuse.safety = s.fuse.safety ∧ t.fuse.stepping = s.fuse.stepping ∧ t.fuse.serial = s.fuse.serial ∧
      t.fuse.mac = s.fuse.mac)
end

