-- ==== Sys2Proof/Laws/State.lean ====
section
/-! SUPPORT. What an update of one part of the state leaves of every part: its own part changed, every other as it was. -/

namespace Sys2Proof.Machine

variable (s : State)

/-! ## modClk -/

@[simp] theorem State.modClk_pending (f : Clock → Clock) : (s.modClk f).pending = s.pending := rfl
@[simp] theorem State.modClk_clk (f : Clock → Clock) : (s.modClk f).clk = f s.clk := rfl
@[simp] theorem State.modClk_fuse (f : Clock → Clock) : (s.modClk f).fuse = s.fuse := rfl
@[simp] theorem State.modClk_sys (f : Clock → Clock) : (s.modClk f).sys = s.sys := rfl
@[simp] theorem State.modClk_tim (f : Clock → Clock) : (s.modClk f).tim = s.tim := rfl
@[simp] theorem State.modClk_cmt (f : Clock → Clock) : (s.modClk f).cmt = s.cmt := rfl
@[simp] theorem State.modClk_hif (f : Clock → Clock) : (s.modClk f).hif = s.hif := rfl
@[simp] theorem State.modClk_txn (f : Clock → Clock) : (s.modClk f).txn = s.txn := rfl
@[simp] theorem State.modClk_evr (f : Clock → Clock) : (s.modClk f).evr = s.evr := rfl
@[simp] theorem State.modClk_rws (f : Clock → Clock) : (s.modClk f).rws = s.rws := rfl
@[simp] theorem State.modClk_rwp (f : Clock → Clock) : (s.modClk f).rwp = s.rwp := rfl
@[simp] theorem State.modClk_out (f : Clock → Clock) : (s.modClk f).out = s.out := rfl
@[simp] theorem State.modClk_free (f : Clock → Clock) : (s.modClk f).free = s.free := rfl
@[simp] theorem State.modClk_mem (f : Clock → Clock) : (s.modClk f).mem = s.mem := rfl
@[simp] theorem State.modClk_pair (f : Clock → Clock) : (s.modClk f).pair = s.pair := rfl
@[simp] theorem State.modClk_part (f : Clock → Clock) : (s.modClk f).part = s.part := rfl
@[simp] theorem State.modClk_prg (f : Clock → Clock) : (s.modClk f).prg = s.prg := rfl
@[simp] theorem State.modClk_tsk (f : Clock → Clock) : (s.modClk f).tsk = s.tsk := rfl
@[simp] theorem State.modClk_lanes (f : Clock → Clock) : (s.modClk f).lanes = s.lanes := rfl
@[simp] theorem State.modClk_vot (f : Clock → Clock) : (s.modClk f).vot = s.vot := rfl
@[simp] theorem State.modClk_tbl (f : Clock → Clock) : (s.modClk f).tbl = s.tbl := rfl
@[simp] theorem State.modClk_fio (f : Clock → Clock) : (s.modClk f).fio = s.fio := rfl
@[simp] theorem State.modClk_net (f : Clock → Clock) : (s.modClk f).net = s.net := rfl
@[simp] theorem State.modClk_pst (f : Clock → Clock) : (s.modClk f).pst = s.pst := rfl
@[simp] theorem State.modClk_mtr (f : Clock → Clock) : (s.modClk f).mtr = s.mtr := rfl
@[simp] theorem State.modClk_rtc (f : Clock → Clock) : (s.modClk f).rtc = s.rtc := rfl
@[simp] theorem State.modClk_bar (f : Clock → Clock) : (s.modClk f).bar = s.bar := rfl
@[simp] theorem State.modClk_wdg (f : Clock → Clock) : (s.modClk f).wdg = s.wdg := rfl
@[simp] theorem State.modClk_fwu (f : Clock → Clock) : (s.modClk f).fwu = s.fwu := rfl

/-! ## modFuse -/

@[simp] theorem State.modFuse_pending (f : Fuse → Fuse) : (s.modFuse f).pending = s.pending := rfl
@[simp] theorem State.modFuse_clk (f : Fuse → Fuse) : (s.modFuse f).clk = s.clk := rfl
@[simp] theorem State.modFuse_fuse (f : Fuse → Fuse) : (s.modFuse f).fuse = f s.fuse := rfl
@[simp] theorem State.modFuse_sys (f : Fuse → Fuse) : (s.modFuse f).sys = s.sys := rfl
@[simp] theorem State.modFuse_tim (f : Fuse → Fuse) : (s.modFuse f).tim = s.tim := rfl
@[simp] theorem State.modFuse_cmt (f : Fuse → Fuse) : (s.modFuse f).cmt = s.cmt := rfl
@[simp] theorem State.modFuse_hif (f : Fuse → Fuse) : (s.modFuse f).hif = s.hif := rfl
@[simp] theorem State.modFuse_txn (f : Fuse → Fuse) : (s.modFuse f).txn = s.txn := rfl
@[simp] theorem State.modFuse_evr (f : Fuse → Fuse) : (s.modFuse f).evr = s.evr := rfl
@[simp] theorem State.modFuse_rws (f : Fuse → Fuse) : (s.modFuse f).rws = s.rws := rfl
@[simp] theorem State.modFuse_rwp (f : Fuse → Fuse) : (s.modFuse f).rwp = s.rwp := rfl
@[simp] theorem State.modFuse_out (f : Fuse → Fuse) : (s.modFuse f).out = s.out := rfl
@[simp] theorem State.modFuse_free (f : Fuse → Fuse) : (s.modFuse f).free = s.free := rfl
@[simp] theorem State.modFuse_mem (f : Fuse → Fuse) : (s.modFuse f).mem = s.mem := rfl
@[simp] theorem State.modFuse_pair (f : Fuse → Fuse) : (s.modFuse f).pair = s.pair := rfl
@[simp] theorem State.modFuse_part (f : Fuse → Fuse) : (s.modFuse f).part = s.part := rfl
@[simp] theorem State.modFuse_prg (f : Fuse → Fuse) : (s.modFuse f).prg = s.prg := rfl
@[simp] theorem State.modFuse_tsk (f : Fuse → Fuse) : (s.modFuse f).tsk = s.tsk := rfl
@[simp] theorem State.modFuse_lanes (f : Fuse → Fuse) : (s.modFuse f).lanes = s.lanes := rfl
@[simp] theorem State.modFuse_vot (f : Fuse → Fuse) : (s.modFuse f).vot = s.vot := rfl
@[simp] theorem State.modFuse_tbl (f : Fuse → Fuse) : (s.modFuse f).tbl = s.tbl := rfl
@[simp] theorem State.modFuse_fio (f : Fuse → Fuse) : (s.modFuse f).fio = s.fio := rfl
@[simp] theorem State.modFuse_net (f : Fuse → Fuse) : (s.modFuse f).net = s.net := rfl
@[simp] theorem State.modFuse_pst (f : Fuse → Fuse) : (s.modFuse f).pst = s.pst := rfl
@[simp] theorem State.modFuse_mtr (f : Fuse → Fuse) : (s.modFuse f).mtr = s.mtr := rfl
@[simp] theorem State.modFuse_rtc (f : Fuse → Fuse) : (s.modFuse f).rtc = s.rtc := rfl
@[simp] theorem State.modFuse_bar (f : Fuse → Fuse) : (s.modFuse f).bar = s.bar := rfl
@[simp] theorem State.modFuse_wdg (f : Fuse → Fuse) : (s.modFuse f).wdg = s.wdg := rfl
@[simp] theorem State.modFuse_fwu (f : Fuse → Fuse) : (s.modFuse f).fwu = s.fwu := rfl

/-! ## modSys -/

@[simp] theorem State.modSys_pending (f : Sys → Sys) : (s.modSys f).pending = s.pending := rfl
@[simp] theorem State.modSys_clk (f : Sys → Sys) : (s.modSys f).clk = s.clk := rfl
@[simp] theorem State.modSys_fuse (f : Sys → Sys) : (s.modSys f).fuse = s.fuse := rfl
@[simp] theorem State.modSys_sys (f : Sys → Sys) : (s.modSys f).sys = f s.sys := rfl
@[simp] theorem State.modSys_tim (f : Sys → Sys) : (s.modSys f).tim = s.tim := rfl
@[simp] theorem State.modSys_cmt (f : Sys → Sys) : (s.modSys f).cmt = s.cmt := rfl
@[simp] theorem State.modSys_hif (f : Sys → Sys) : (s.modSys f).hif = s.hif := rfl
@[simp] theorem State.modSys_txn (f : Sys → Sys) : (s.modSys f).txn = s.txn := rfl
@[simp] theorem State.modSys_evr (f : Sys → Sys) : (s.modSys f).evr = s.evr := rfl
@[simp] theorem State.modSys_rws (f : Sys → Sys) : (s.modSys f).rws = s.rws := rfl
@[simp] theorem State.modSys_rwp (f : Sys → Sys) : (s.modSys f).rwp = s.rwp := rfl
@[simp] theorem State.modSys_out (f : Sys → Sys) : (s.modSys f).out = s.out := rfl
@[simp] theorem State.modSys_free (f : Sys → Sys) : (s.modSys f).free = s.free := rfl
@[simp] theorem State.modSys_mem (f : Sys → Sys) : (s.modSys f).mem = s.mem := rfl
@[simp] theorem State.modSys_pair (f : Sys → Sys) : (s.modSys f).pair = s.pair := rfl
@[simp] theorem State.modSys_part (f : Sys → Sys) : (s.modSys f).part = s.part := rfl
@[simp] theorem State.modSys_prg (f : Sys → Sys) : (s.modSys f).prg = s.prg := rfl
@[simp] theorem State.modSys_tsk (f : Sys → Sys) : (s.modSys f).tsk = s.tsk := rfl
@[simp] theorem State.modSys_lanes (f : Sys → Sys) : (s.modSys f).lanes = s.lanes := rfl
@[simp] theorem State.modSys_vot (f : Sys → Sys) : (s.modSys f).vot = s.vot := rfl
@[simp] theorem State.modSys_tbl (f : Sys → Sys) : (s.modSys f).tbl = s.tbl := rfl
@[simp] theorem State.modSys_fio (f : Sys → Sys) : (s.modSys f).fio = s.fio := rfl
@[simp] theorem State.modSys_net (f : Sys → Sys) : (s.modSys f).net = s.net := rfl
@[simp] theorem State.modSys_pst (f : Sys → Sys) : (s.modSys f).pst = s.pst := rfl
@[simp] theorem State.modSys_mtr (f : Sys → Sys) : (s.modSys f).mtr = s.mtr := rfl
@[simp] theorem State.modSys_rtc (f : Sys → Sys) : (s.modSys f).rtc = s.rtc := rfl
@[simp] theorem State.modSys_bar (f : Sys → Sys) : (s.modSys f).bar = s.bar := rfl
@[simp] theorem State.modSys_wdg (f : Sys → Sys) : (s.modSys f).wdg = s.wdg := rfl
@[simp] theorem State.modSys_fwu (f : Sys → Sys) : (s.modSys f).fwu = s.fwu := rfl

/-! ## modTim -/

@[simp] theorem State.modTim_pending (f : Tim → Tim) : (s.modTim f).pending = s.pending := rfl
@[simp] theorem State.modTim_clk (f : Tim → Tim) : (s.modTim f).clk = s.clk := rfl
@[simp] theorem State.modTim_fuse (f : Tim → Tim) : (s.modTim f).fuse = s.fuse := rfl
@[simp] theorem State.modTim_sys (f : Tim → Tim) : (s.modTim f).sys = s.sys := rfl
@[simp] theorem State.modTim_tim (f : Tim → Tim) : (s.modTim f).tim = f s.tim := rfl
@[simp] theorem State.modTim_cmt (f : Tim → Tim) : (s.modTim f).cmt = s.cmt := rfl
@[simp] theorem State.modTim_hif (f : Tim → Tim) : (s.modTim f).hif = s.hif := rfl
@[simp] theorem State.modTim_txn (f : Tim → Tim) : (s.modTim f).txn = s.txn := rfl
@[simp] theorem State.modTim_evr (f : Tim → Tim) : (s.modTim f).evr = s.evr := rfl
@[simp] theorem State.modTim_rws (f : Tim → Tim) : (s.modTim f).rws = s.rws := rfl
@[simp] theorem State.modTim_rwp (f : Tim → Tim) : (s.modTim f).rwp = s.rwp := rfl
@[simp] theorem State.modTim_out (f : Tim → Tim) : (s.modTim f).out = s.out := rfl
@[simp] theorem State.modTim_free (f : Tim → Tim) : (s.modTim f).free = s.free := rfl
@[simp] theorem State.modTim_mem (f : Tim → Tim) : (s.modTim f).mem = s.mem := rfl
@[simp] theorem State.modTim_pair (f : Tim → Tim) : (s.modTim f).pair = s.pair := rfl
@[simp] theorem State.modTim_part (f : Tim → Tim) : (s.modTim f).part = s.part := rfl
@[simp] theorem State.modTim_prg (f : Tim → Tim) : (s.modTim f).prg = s.prg := rfl
@[simp] theorem State.modTim_tsk (f : Tim → Tim) : (s.modTim f).tsk = s.tsk := rfl
@[simp] theorem State.modTim_lanes (f : Tim → Tim) : (s.modTim f).lanes = s.lanes := rfl
@[simp] theorem State.modTim_vot (f : Tim → Tim) : (s.modTim f).vot = s.vot := rfl
@[simp] theorem State.modTim_tbl (f : Tim → Tim) : (s.modTim f).tbl = s.tbl := rfl
@[simp] theorem State.modTim_fio (f : Tim → Tim) : (s.modTim f).fio = s.fio := rfl
@[simp] theorem State.modTim_net (f : Tim → Tim) : (s.modTim f).net = s.net := rfl
@[simp] theorem State.modTim_pst (f : Tim → Tim) : (s.modTim f).pst = s.pst := rfl
@[simp] theorem State.modTim_mtr (f : Tim → Tim) : (s.modTim f).mtr = s.mtr := rfl
@[simp] theorem State.modTim_rtc (f : Tim → Tim) : (s.modTim f).rtc = s.rtc := rfl
@[simp] theorem State.modTim_bar (f : Tim → Tim) : (s.modTim f).bar = s.bar := rfl
@[simp] theorem State.modTim_wdg (f : Tim → Tim) : (s.modTim f).wdg = s.wdg := rfl
@[simp] theorem State.modTim_fwu (f : Tim → Tim) : (s.modTim f).fwu = s.fwu := rfl

/-! ## modCmt -/

@[simp] theorem State.modCmt_pending (f : Cmt → Cmt) : (s.modCmt f).pending = s.pending := rfl
@[simp] theorem State.modCmt_clk (f : Cmt → Cmt) : (s.modCmt f).clk = s.clk := rfl
@[simp] theorem State.modCmt_fuse (f : Cmt → Cmt) : (s.modCmt f).fuse = s.fuse := rfl
@[simp] theorem State.modCmt_sys (f : Cmt → Cmt) : (s.modCmt f).sys = s.sys := rfl
@[simp] theorem State.modCmt_tim (f : Cmt → Cmt) : (s.modCmt f).tim = s.tim := rfl
@[simp] theorem State.modCmt_cmt (f : Cmt → Cmt) : (s.modCmt f).cmt = f s.cmt := rfl
@[simp] theorem State.modCmt_hif (f : Cmt → Cmt) : (s.modCmt f).hif = s.hif := rfl
@[simp] theorem State.modCmt_txn (f : Cmt → Cmt) : (s.modCmt f).txn = s.txn := rfl
@[simp] theorem State.modCmt_evr (f : Cmt → Cmt) : (s.modCmt f).evr = s.evr := rfl
@[simp] theorem State.modCmt_rws (f : Cmt → Cmt) : (s.modCmt f).rws = s.rws := rfl
@[simp] theorem State.modCmt_rwp (f : Cmt → Cmt) : (s.modCmt f).rwp = s.rwp := rfl
@[simp] theorem State.modCmt_out (f : Cmt → Cmt) : (s.modCmt f).out = s.out := rfl
@[simp] theorem State.modCmt_free (f : Cmt → Cmt) : (s.modCmt f).free = s.free := rfl
@[simp] theorem State.modCmt_mem (f : Cmt → Cmt) : (s.modCmt f).mem = s.mem := rfl
@[simp] theorem State.modCmt_pair (f : Cmt → Cmt) : (s.modCmt f).pair = s.pair := rfl
@[simp] theorem State.modCmt_part (f : Cmt → Cmt) : (s.modCmt f).part = s.part := rfl
@[simp] theorem State.modCmt_prg (f : Cmt → Cmt) : (s.modCmt f).prg = s.prg := rfl
@[simp] theorem State.modCmt_tsk (f : Cmt → Cmt) : (s.modCmt f).tsk = s.tsk := rfl
@[simp] theorem State.modCmt_lanes (f : Cmt → Cmt) : (s.modCmt f).lanes = s.lanes := rfl
@[simp] theorem State.modCmt_vot (f : Cmt → Cmt) : (s.modCmt f).vot = s.vot := rfl
@[simp] theorem State.modCmt_tbl (f : Cmt → Cmt) : (s.modCmt f).tbl = s.tbl := rfl
@[simp] theorem State.modCmt_fio (f : Cmt → Cmt) : (s.modCmt f).fio = s.fio := rfl
@[simp] theorem State.modCmt_net (f : Cmt → Cmt) : (s.modCmt f).net = s.net := rfl
@[simp] theorem State.modCmt_pst (f : Cmt → Cmt) : (s.modCmt f).pst = s.pst := rfl
@[simp] theorem State.modCmt_mtr (f : Cmt → Cmt) : (s.modCmt f).mtr = s.mtr := rfl
@[simp] theorem State.modCmt_rtc (f : Cmt → Cmt) : (s.modCmt f).rtc = s.rtc := rfl
@[simp] theorem State.modCmt_bar (f : Cmt → Cmt) : (s.modCmt f).bar = s.bar := rfl
@[simp] theorem State.modCmt_wdg (f : Cmt → Cmt) : (s.modCmt f).wdg = s.wdg := rfl
@[simp] theorem State.modCmt_fwu (f : Cmt → Cmt) : (s.modCmt f).fwu = s.fwu := rfl

/-! ## modHif -/

@[simp] theorem State.modHif_pending (f : Hif → Hif) : (s.modHif f).pending = s.pending := rfl
@[simp] theorem State.modHif_clk (f : Hif → Hif) : (s.modHif f).clk = s.clk := rfl
@[simp] theorem State.modHif_fuse (f : Hif → Hif) : (s.modHif f).fuse = s.fuse := rfl
@[simp] theorem State.modHif_sys (f : Hif → Hif) : (s.modHif f).sys = s.sys := rfl
@[simp] theorem State.modHif_tim (f : Hif → Hif) : (s.modHif f).tim = s.tim := rfl
@[simp] theorem State.modHif_cmt (f : Hif → Hif) : (s.modHif f).cmt = s.cmt := rfl
@[simp] theorem State.modHif_hif (f : Hif → Hif) : (s.modHif f).hif = f s.hif := rfl
@[simp] theorem State.modHif_txn (f : Hif → Hif) : (s.modHif f).txn = s.txn := rfl
@[simp] theorem State.modHif_evr (f : Hif → Hif) : (s.modHif f).evr = s.evr := rfl
@[simp] theorem State.modHif_rws (f : Hif → Hif) : (s.modHif f).rws = s.rws := rfl
@[simp] theorem State.modHif_rwp (f : Hif → Hif) : (s.modHif f).rwp = s.rwp := rfl
@[simp] theorem State.modHif_out (f : Hif → Hif) : (s.modHif f).out = s.out := rfl
@[simp] theorem State.modHif_free (f : Hif → Hif) : (s.modHif f).free = s.free := rfl
@[simp] theorem State.modHif_mem (f : Hif → Hif) : (s.modHif f).mem = s.mem := rfl
@[simp] theorem State.modHif_pair (f : Hif → Hif) : (s.modHif f).pair = s.pair := rfl
@[simp] theorem State.modHif_part (f : Hif → Hif) : (s.modHif f).part = s.part := rfl
@[simp] theorem State.modHif_prg (f : Hif → Hif) : (s.modHif f).prg = s.prg := rfl
@[simp] theorem State.modHif_tsk (f : Hif → Hif) : (s.modHif f).tsk = s.tsk := rfl
@[simp] theorem State.modHif_lanes (f : Hif → Hif) : (s.modHif f).lanes = s.lanes := rfl
@[simp] theorem State.modHif_vot (f : Hif → Hif) : (s.modHif f).vot = s.vot := rfl
@[simp] theorem State.modHif_tbl (f : Hif → Hif) : (s.modHif f).tbl = s.tbl := rfl
@[simp] theorem State.modHif_fio (f : Hif → Hif) : (s.modHif f).fio = s.fio := rfl
@[simp] theorem State.modHif_net (f : Hif → Hif) : (s.modHif f).net = s.net := rfl
@[simp] theorem State.modHif_pst (f : Hif → Hif) : (s.modHif f).pst = s.pst := rfl
@[simp] theorem State.modHif_mtr (f : Hif → Hif) : (s.modHif f).mtr = s.mtr := rfl
@[simp] theorem State.modHif_rtc (f : Hif → Hif) : (s.modHif f).rtc = s.rtc := rfl
@[simp] theorem State.modHif_bar (f : Hif → Hif) : (s.modHif f).bar = s.bar := rfl
@[simp] theorem State.modHif_wdg (f : Hif → Hif) : (s.modHif f).wdg = s.wdg := rfl
@[simp] theorem State.modHif_fwu (f : Hif → Hif) : (s.modHif f).fwu = s.fwu := rfl

/-! ## modTxn -/

@[simp] theorem State.modTxn_pending (f : Txn → Txn) : (s.modTxn f).pending = s.pending := rfl
@[simp] theorem State.modTxn_clk (f : Txn → Txn) : (s.modTxn f).clk = s.clk := rfl
@[simp] theorem State.modTxn_fuse (f : Txn → Txn) : (s.modTxn f).fuse = s.fuse := rfl
@[simp] theorem State.modTxn_sys (f : Txn → Txn) : (s.modTxn f).sys = s.sys := rfl
@[simp] theorem State.modTxn_tim (f : Txn → Txn) : (s.modTxn f).tim = s.tim := rfl
@[simp] theorem State.modTxn_cmt (f : Txn → Txn) : (s.modTxn f).cmt = s.cmt := rfl
@[simp] theorem State.modTxn_hif (f : Txn → Txn) : (s.modTxn f).hif = s.hif := rfl
@[simp] theorem State.modTxn_txn (f : Txn → Txn) : (s.modTxn f).txn = f s.txn := rfl
@[simp] theorem State.modTxn_evr (f : Txn → Txn) : (s.modTxn f).evr = s.evr := rfl
@[simp] theorem State.modTxn_rws (f : Txn → Txn) : (s.modTxn f).rws = s.rws := rfl
@[simp] theorem State.modTxn_rwp (f : Txn → Txn) : (s.modTxn f).rwp = s.rwp := rfl
@[simp] theorem State.modTxn_out (f : Txn → Txn) : (s.modTxn f).out = s.out := rfl
@[simp] theorem State.modTxn_free (f : Txn → Txn) : (s.modTxn f).free = s.free := rfl
@[simp] theorem State.modTxn_mem (f : Txn → Txn) : (s.modTxn f).mem = s.mem := rfl
@[simp] theorem State.modTxn_pair (f : Txn → Txn) : (s.modTxn f).pair = s.pair := rfl
@[simp] theorem State.modTxn_part (f : Txn → Txn) : (s.modTxn f).part = s.part := rfl
@[simp] theorem State.modTxn_prg (f : Txn → Txn) : (s.modTxn f).prg = s.prg := rfl
@[simp] theorem State.modTxn_tsk (f : Txn → Txn) : (s.modTxn f).tsk = s.tsk := rfl
@[simp] theorem State.modTxn_lanes (f : Txn → Txn) : (s.modTxn f).lanes = s.lanes := rfl
@[simp] theorem State.modTxn_vot (f : Txn → Txn) : (s.modTxn f).vot = s.vot := rfl
@[simp] theorem State.modTxn_tbl (f : Txn → Txn) : (s.modTxn f).tbl = s.tbl := rfl
@[simp] theorem State.modTxn_fio (f : Txn → Txn) : (s.modTxn f).fio = s.fio := rfl
@[simp] theorem State.modTxn_net (f : Txn → Txn) : (s.modTxn f).net = s.net := rfl
@[simp] theorem State.modTxn_pst (f : Txn → Txn) : (s.modTxn f).pst = s.pst := rfl
@[simp] theorem State.modTxn_mtr (f : Txn → Txn) : (s.modTxn f).mtr = s.mtr := rfl
@[simp] theorem State.modTxn_rtc (f : Txn → Txn) : (s.modTxn f).rtc = s.rtc := rfl
@[simp] theorem State.modTxn_bar (f : Txn → Txn) : (s.modTxn f).bar = s.bar := rfl
@[simp] theorem State.modTxn_wdg (f : Txn → Txn) : (s.modTxn f).wdg = s.wdg := rfl
@[simp] theorem State.modTxn_fwu (f : Txn → Txn) : (s.modTxn f).fwu = s.fwu := rfl

/-! ## modEvr -/

@[simp] theorem State.modEvr_pending (f : Evr → Evr) : (s.modEvr f).pending = s.pending := rfl
@[simp] theorem State.modEvr_clk (f : Evr → Evr) : (s.modEvr f).clk = s.clk := rfl
@[simp] theorem State.modEvr_fuse (f : Evr → Evr) : (s.modEvr f).fuse = s.fuse := rfl
@[simp] theorem State.modEvr_sys (f : Evr → Evr) : (s.modEvr f).sys = s.sys := rfl
@[simp] theorem State.modEvr_tim (f : Evr → Evr) : (s.modEvr f).tim = s.tim := rfl
@[simp] theorem State.modEvr_cmt (f : Evr → Evr) : (s.modEvr f).cmt = s.cmt := rfl
@[simp] theorem State.modEvr_hif (f : Evr → Evr) : (s.modEvr f).hif = s.hif := rfl
@[simp] theorem State.modEvr_txn (f : Evr → Evr) : (s.modEvr f).txn = s.txn := rfl
@[simp] theorem State.modEvr_evr (f : Evr → Evr) : (s.modEvr f).evr = f s.evr := rfl
@[simp] theorem State.modEvr_rws (f : Evr → Evr) : (s.modEvr f).rws = s.rws := rfl
@[simp] theorem State.modEvr_rwp (f : Evr → Evr) : (s.modEvr f).rwp = s.rwp := rfl
@[simp] theorem State.modEvr_out (f : Evr → Evr) : (s.modEvr f).out = s.out := rfl
@[simp] theorem State.modEvr_free (f : Evr → Evr) : (s.modEvr f).free = s.free := rfl
@[simp] theorem State.modEvr_mem (f : Evr → Evr) : (s.modEvr f).mem = s.mem := rfl
@[simp] theorem State.modEvr_pair (f : Evr → Evr) : (s.modEvr f).pair = s.pair := rfl
@[simp] theorem State.modEvr_part (f : Evr → Evr) : (s.modEvr f).part = s.part := rfl
@[simp] theorem State.modEvr_prg (f : Evr → Evr) : (s.modEvr f).prg = s.prg := rfl
@[simp] theorem State.modEvr_tsk (f : Evr → Evr) : (s.modEvr f).tsk = s.tsk := rfl
@[simp] theorem State.modEvr_lanes (f : Evr → Evr) : (s.modEvr f).lanes = s.lanes := rfl
@[simp] theorem State.modEvr_vot (f : Evr → Evr) : (s.modEvr f).vot = s.vot := rfl
@[simp] theorem State.modEvr_tbl (f : Evr → Evr) : (s.modEvr f).tbl = s.tbl := rfl
@[simp] theorem State.modEvr_fio (f : Evr → Evr) : (s.modEvr f).fio = s.fio := rfl
@[simp] theorem State.modEvr_net (f : Evr → Evr) : (s.modEvr f).net = s.net := rfl
@[simp] theorem State.modEvr_pst (f : Evr → Evr) : (s.modEvr f).pst = s.pst := rfl
@[simp] theorem State.modEvr_mtr (f : Evr → Evr) : (s.modEvr f).mtr = s.mtr := rfl
@[simp] theorem State.modEvr_rtc (f : Evr → Evr) : (s.modEvr f).rtc = s.rtc := rfl
@[simp] theorem State.modEvr_bar (f : Evr → Evr) : (s.modEvr f).bar = s.bar := rfl
@[simp] theorem State.modEvr_wdg (f : Evr → Evr) : (s.modEvr f).wdg = s.wdg := rfl
@[simp] theorem State.modEvr_fwu (f : Evr → Evr) : (s.modEvr f).fwu = s.fwu := rfl

/-! ## modRws -/

@[simp] theorem State.modRws_pending (f : Rws → Rws) : (s.modRws f).pending = s.pending := rfl
@[simp] theorem State.modRws_clk (f : Rws → Rws) : (s.modRws f).clk = s.clk := rfl
@[simp] theorem State.modRws_fuse (f : Rws → Rws) : (s.modRws f).fuse = s.fuse := rfl
@[simp] theorem State.modRws_sys (f : Rws → Rws) : (s.modRws f).sys = s.sys := rfl
@[simp] theorem State.modRws_tim (f : Rws → Rws) : (s.modRws f).tim = s.tim := rfl
@[simp] theorem State.modRws_cmt (f : Rws → Rws) : (s.modRws f).cmt = s.cmt := rfl
@[simp] theorem State.modRws_hif (f : Rws → Rws) : (s.modRws f).hif = s.hif := rfl
@[simp] theorem State.modRws_txn (f : Rws → Rws) : (s.modRws f).txn = s.txn := rfl
@[simp] theorem State.modRws_evr (f : Rws → Rws) : (s.modRws f).evr = s.evr := rfl
@[simp] theorem State.modRws_rws (f : Rws → Rws) : (s.modRws f).rws = f s.rws := rfl
@[simp] theorem State.modRws_rwp (f : Rws → Rws) : (s.modRws f).rwp = s.rwp := rfl
@[simp] theorem State.modRws_out (f : Rws → Rws) : (s.modRws f).out = s.out := rfl
@[simp] theorem State.modRws_free (f : Rws → Rws) : (s.modRws f).free = s.free := rfl
@[simp] theorem State.modRws_mem (f : Rws → Rws) : (s.modRws f).mem = s.mem := rfl
@[simp] theorem State.modRws_pair (f : Rws → Rws) : (s.modRws f).pair = s.pair := rfl
@[simp] theorem State.modRws_part (f : Rws → Rws) : (s.modRws f).part = s.part := rfl
@[simp] theorem State.modRws_prg (f : Rws → Rws) : (s.modRws f).prg = s.prg := rfl
@[simp] theorem State.modRws_tsk (f : Rws → Rws) : (s.modRws f).tsk = s.tsk := rfl
@[simp] theorem State.modRws_lanes (f : Rws → Rws) : (s.modRws f).lanes = s.lanes := rfl
@[simp] theorem State.modRws_vot (f : Rws → Rws) : (s.modRws f).vot = s.vot := rfl
@[simp] theorem State.modRws_tbl (f : Rws → Rws) : (s.modRws f).tbl = s.tbl := rfl
@[simp] theorem State.modRws_fio (f : Rws → Rws) : (s.modRws f).fio = s.fio := rfl
@[simp] theorem State.modRws_net (f : Rws → Rws) : (s.modRws f).net = s.net := rfl
@[simp] theorem State.modRws_pst (f : Rws → Rws) : (s.modRws f).pst = s.pst := rfl
@[simp] theorem State.modRws_mtr (f : Rws → Rws) : (s.modRws f).mtr = s.mtr := rfl
@[simp] theorem State.modRws_rtc (f : Rws → Rws) : (s.modRws f).rtc = s.rtc := rfl
@[simp] theorem State.modRws_bar (f : Rws → Rws) : (s.modRws f).bar = s.bar := rfl
@[simp] theorem State.modRws_wdg (f : Rws → Rws) : (s.modRws f).wdg = s.wdg := rfl
@[simp] theorem State.modRws_fwu (f : Rws → Rws) : (s.modRws f).fwu = s.fwu := rfl

/-! ## modRwp -/

@[simp] theorem State.modRwp_pending (f : Rwp → Rwp) : (s.modRwp f).pending = s.pending := rfl
@[simp] theorem State.modRwp_clk (f : Rwp → Rwp) : (s.modRwp f).clk = s.clk := rfl
@[simp] theorem State.modRwp_fuse (f : Rwp → Rwp) : (s.modRwp f).fuse = s.fuse := rfl
@[simp] theorem State.modRwp_sys (f : Rwp → Rwp) : (s.modRwp f).sys = s.sys := rfl
@[simp] theorem State.modRwp_tim (f : Rwp → Rwp) : (s.modRwp f).tim = s.tim := rfl
@[simp] theorem State.modRwp_cmt (f : Rwp → Rwp) : (s.modRwp f).cmt = s.cmt := rfl
@[simp] theorem State.modRwp_hif (f : Rwp → Rwp) : (s.modRwp f).hif = s.hif := rfl
@[simp] theorem State.modRwp_txn (f : Rwp → Rwp) : (s.modRwp f).txn = s.txn := rfl
@[simp] theorem State.modRwp_evr (f : Rwp → Rwp) : (s.modRwp f).evr = s.evr := rfl
@[simp] theorem State.modRwp_rws (f : Rwp → Rwp) : (s.modRwp f).rws = s.rws := rfl
@[simp] theorem State.modRwp_rwp (f : Rwp → Rwp) : (s.modRwp f).rwp = f s.rwp := rfl
@[simp] theorem State.modRwp_out (f : Rwp → Rwp) : (s.modRwp f).out = s.out := rfl
@[simp] theorem State.modRwp_free (f : Rwp → Rwp) : (s.modRwp f).free = s.free := rfl
@[simp] theorem State.modRwp_mem (f : Rwp → Rwp) : (s.modRwp f).mem = s.mem := rfl
@[simp] theorem State.modRwp_pair (f : Rwp → Rwp) : (s.modRwp f).pair = s.pair := rfl
@[simp] theorem State.modRwp_part (f : Rwp → Rwp) : (s.modRwp f).part = s.part := rfl
@[simp] theorem State.modRwp_prg (f : Rwp → Rwp) : (s.modRwp f).prg = s.prg := rfl
@[simp] theorem State.modRwp_tsk (f : Rwp → Rwp) : (s.modRwp f).tsk = s.tsk := rfl
@[simp] theorem State.modRwp_lanes (f : Rwp → Rwp) : (s.modRwp f).lanes = s.lanes := rfl
@[simp] theorem State.modRwp_vot (f : Rwp → Rwp) : (s.modRwp f).vot = s.vot := rfl
@[simp] theorem State.modRwp_tbl (f : Rwp → Rwp) : (s.modRwp f).tbl = s.tbl := rfl
@[simp] theorem State.modRwp_fio (f : Rwp → Rwp) : (s.modRwp f).fio = s.fio := rfl
@[simp] theorem State.modRwp_net (f : Rwp → Rwp) : (s.modRwp f).net = s.net := rfl
@[simp] theorem State.modRwp_pst (f : Rwp → Rwp) : (s.modRwp f).pst = s.pst := rfl
@[simp] theorem State.modRwp_mtr (f : Rwp → Rwp) : (s.modRwp f).mtr = s.mtr := rfl
@[simp] theorem State.modRwp_rtc (f : Rwp → Rwp) : (s.modRwp f).rtc = s.rtc := rfl
@[simp] theorem State.modRwp_bar (f : Rwp → Rwp) : (s.modRwp f).bar = s.bar := rfl
@[simp] theorem State.modRwp_wdg (f : Rwp → Rwp) : (s.modRwp f).wdg = s.wdg := rfl
@[simp] theorem State.modRwp_fwu (f : Rwp → Rwp) : (s.modRwp f).fwu = s.fwu := rfl

/-! ## modOut -/

@[simp] theorem State.modOut_pending (f : List Out → List Out) : (s.modOut f).pending = s.pending := rfl
@[simp] theorem State.modOut_clk (f : List Out → List Out) : (s.modOut f).clk = s.clk := rfl
@[simp] theorem State.modOut_fuse (f : List Out → List Out) : (s.modOut f).fuse = s.fuse := rfl
@[simp] theorem State.modOut_sys (f : List Out → List Out) : (s.modOut f).sys = s.sys := rfl
@[simp] theorem State.modOut_tim (f : List Out → List Out) : (s.modOut f).tim = s.tim := rfl
@[simp] theorem State.modOut_cmt (f : List Out → List Out) : (s.modOut f).cmt = s.cmt := rfl
@[simp] theorem State.modOut_hif (f : List Out → List Out) : (s.modOut f).hif = s.hif := rfl
@[simp] theorem State.modOut_txn (f : List Out → List Out) : (s.modOut f).txn = s.txn := rfl
@[simp] theorem State.modOut_evr (f : List Out → List Out) : (s.modOut f).evr = s.evr := rfl
@[simp] theorem State.modOut_rws (f : List Out → List Out) : (s.modOut f).rws = s.rws := rfl
@[simp] theorem State.modOut_rwp (f : List Out → List Out) : (s.modOut f).rwp = s.rwp := rfl
@[simp] theorem State.modOut_out (f : List Out → List Out) : (s.modOut f).out = f s.out := rfl
@[simp] theorem State.modOut_free (f : List Out → List Out) : (s.modOut f).free = s.free := rfl
@[simp] theorem State.modOut_mem (f : List Out → List Out) : (s.modOut f).mem = s.mem := rfl
@[simp] theorem State.modOut_pair (f : List Out → List Out) : (s.modOut f).pair = s.pair := rfl
@[simp] theorem State.modOut_part (f : List Out → List Out) : (s.modOut f).part = s.part := rfl
@[simp] theorem State.modOut_prg (f : List Out → List Out) : (s.modOut f).prg = s.prg := rfl
@[simp] theorem State.modOut_tsk (f : List Out → List Out) : (s.modOut f).tsk = s.tsk := rfl
@[simp] theorem State.modOut_lanes (f : List Out → List Out) : (s.modOut f).lanes = s.lanes := rfl
@[simp] theorem State.modOut_vot (f : List Out → List Out) : (s.modOut f).vot = s.vot := rfl
@[simp] theorem State.modOut_tbl (f : List Out → List Out) : (s.modOut f).tbl = s.tbl := rfl
@[simp] theorem State.modOut_fio (f : List Out → List Out) : (s.modOut f).fio = s.fio := rfl
@[simp] theorem State.modOut_net (f : List Out → List Out) : (s.modOut f).net = s.net := rfl
@[simp] theorem State.modOut_pst (f : List Out → List Out) : (s.modOut f).pst = s.pst := rfl
@[simp] theorem State.modOut_mtr (f : List Out → List Out) : (s.modOut f).mtr = s.mtr := rfl
@[simp] theorem State.modOut_rtc (f : List Out → List Out) : (s.modOut f).rtc = s.rtc := rfl
@[simp] theorem State.modOut_bar (f : List Out → List Out) : (s.modOut f).bar = s.bar := rfl
@[simp] theorem State.modOut_wdg (f : List Out → List Out) : (s.modOut f).wdg = s.wdg := rfl
@[simp] theorem State.modOut_fwu (f : List Out → List Out) : (s.modOut f).fwu = s.fwu := rfl

/-! ## modFree -/

@[simp] theorem State.modFree_pending (f : Nat → Nat) : (s.modFree f).pending = s.pending := rfl
@[simp] theorem State.modFree_clk (f : Nat → Nat) : (s.modFree f).clk = s.clk := rfl
@[simp] theorem State.modFree_fuse (f : Nat → Nat) : (s.modFree f).fuse = s.fuse := rfl
@[simp] theorem State.modFree_sys (f : Nat → Nat) : (s.modFree f).sys = s.sys := rfl
@[simp] theorem State.modFree_tim (f : Nat → Nat) : (s.modFree f).tim = s.tim := rfl
@[simp] theorem State.modFree_cmt (f : Nat → Nat) : (s.modFree f).cmt = s.cmt := rfl
@[simp] theorem State.modFree_hif (f : Nat → Nat) : (s.modFree f).hif = s.hif := rfl
@[simp] theorem State.modFree_txn (f : Nat → Nat) : (s.modFree f).txn = s.txn := rfl
@[simp] theorem State.modFree_evr (f : Nat → Nat) : (s.modFree f).evr = s.evr := rfl
@[simp] theorem State.modFree_rws (f : Nat → Nat) : (s.modFree f).rws = s.rws := rfl
@[simp] theorem State.modFree_rwp (f : Nat → Nat) : (s.modFree f).rwp = s.rwp := rfl
@[simp] theorem State.modFree_out (f : Nat → Nat) : (s.modFree f).out = s.out := rfl
@[simp] theorem State.modFree_free (f : Nat → Nat) : (s.modFree f).free = f s.free := rfl
@[simp] theorem State.modFree_mem (f : Nat → Nat) : (s.modFree f).mem = s.mem := rfl
@[simp] theorem State.modFree_pair (f : Nat → Nat) : (s.modFree f).pair = s.pair := rfl
@[simp] theorem State.modFree_part (f : Nat → Nat) : (s.modFree f).part = s.part := rfl
@[simp] theorem State.modFree_prg (f : Nat → Nat) : (s.modFree f).prg = s.prg := rfl
@[simp] theorem State.modFree_tsk (f : Nat → Nat) : (s.modFree f).tsk = s.tsk := rfl
@[simp] theorem State.modFree_lanes (f : Nat → Nat) : (s.modFree f).lanes = s.lanes := rfl
@[simp] theorem State.modFree_vot (f : Nat → Nat) : (s.modFree f).vot = s.vot := rfl
@[simp] theorem State.modFree_tbl (f : Nat → Nat) : (s.modFree f).tbl = s.tbl := rfl
@[simp] theorem State.modFree_fio (f : Nat → Nat) : (s.modFree f).fio = s.fio := rfl
@[simp] theorem State.modFree_net (f : Nat → Nat) : (s.modFree f).net = s.net := rfl
@[simp] theorem State.modFree_pst (f : Nat → Nat) : (s.modFree f).pst = s.pst := rfl
@[simp] theorem State.modFree_mtr (f : Nat → Nat) : (s.modFree f).mtr = s.mtr := rfl
@[simp] theorem State.modFree_rtc (f : Nat → Nat) : (s.modFree f).rtc = s.rtc := rfl
@[simp] theorem State.modFree_bar (f : Nat → Nat) : (s.modFree f).bar = s.bar := rfl
@[simp] theorem State.modFree_wdg (f : Nat → Nat) : (s.modFree f).wdg = s.wdg := rfl
@[simp] theorem State.modFree_fwu (f : Nat → Nat) : (s.modFree f).fwu = s.fwu := rfl

/-! ## modMem -/

@[simp] theorem State.modMem_pending (f : Mems → Mems) : (s.modMem f).pending = s.pending := rfl
@[simp] theorem State.modMem_clk (f : Mems → Mems) : (s.modMem f).clk = s.clk := rfl
@[simp] theorem State.modMem_fuse (f : Mems → Mems) : (s.modMem f).fuse = s.fuse := rfl
@[simp] theorem State.modMem_sys (f : Mems → Mems) : (s.modMem f).sys = s.sys := rfl
@[simp] theorem State.modMem_tim (f : Mems → Mems) : (s.modMem f).tim = s.tim := rfl
@[simp] theorem State.modMem_cmt (f : Mems → Mems) : (s.modMem f).cmt = s.cmt := rfl
@[simp] theorem State.modMem_hif (f : Mems → Mems) : (s.modMem f).hif = s.hif := rfl
@[simp] theorem State.modMem_txn (f : Mems → Mems) : (s.modMem f).txn = s.txn := rfl
@[simp] theorem State.modMem_evr (f : Mems → Mems) : (s.modMem f).evr = s.evr := rfl
@[simp] theorem State.modMem_rws (f : Mems → Mems) : (s.modMem f).rws = s.rws := rfl
@[simp] theorem State.modMem_rwp (f : Mems → Mems) : (s.modMem f).rwp = s.rwp := rfl
@[simp] theorem State.modMem_out (f : Mems → Mems) : (s.modMem f).out = s.out := rfl
@[simp] theorem State.modMem_free (f : Mems → Mems) : (s.modMem f).free = s.free := rfl
@[simp] theorem State.modMem_mem (f : Mems → Mems) : (s.modMem f).mem = f s.mem := rfl
@[simp] theorem State.modMem_pair (f : Mems → Mems) : (s.modMem f).pair = s.pair := rfl
@[simp] theorem State.modMem_part (f : Mems → Mems) : (s.modMem f).part = s.part := rfl
@[simp] theorem State.modMem_prg (f : Mems → Mems) : (s.modMem f).prg = s.prg := rfl
@[simp] theorem State.modMem_tsk (f : Mems → Mems) : (s.modMem f).tsk = s.tsk := rfl
@[simp] theorem State.modMem_lanes (f : Mems → Mems) : (s.modMem f).lanes = s.lanes := rfl
@[simp] theorem State.modMem_vot (f : Mems → Mems) : (s.modMem f).vot = s.vot := rfl
@[simp] theorem State.modMem_tbl (f : Mems → Mems) : (s.modMem f).tbl = s.tbl := rfl
@[simp] theorem State.modMem_fio (f : Mems → Mems) : (s.modMem f).fio = s.fio := rfl
@[simp] theorem State.modMem_net (f : Mems → Mems) : (s.modMem f).net = s.net := rfl
@[simp] theorem State.modMem_pst (f : Mems → Mems) : (s.modMem f).pst = s.pst := rfl
@[simp] theorem State.modMem_mtr (f : Mems → Mems) : (s.modMem f).mtr = s.mtr := rfl
@[simp] theorem State.modMem_rtc (f : Mems → Mems) : (s.modMem f).rtc = s.rtc := rfl
@[simp] theorem State.modMem_bar (f : Mems → Mems) : (s.modMem f).bar = s.bar := rfl
@[simp] theorem State.modMem_wdg (f : Mems → Mems) : (s.modMem f).wdg = s.wdg := rfl
@[simp] theorem State.modMem_fwu (f : Mems → Mems) : (s.modMem f).fwu = s.fwu := rfl

/-! ## modPair -/

@[simp] theorem State.modPair_pending (f : Pair → Pair) : (s.modPair f).pending = s.pending := rfl
@[simp] theorem State.modPair_clk (f : Pair → Pair) : (s.modPair f).clk = s.clk := rfl
@[simp] theorem State.modPair_fuse (f : Pair → Pair) : (s.modPair f).fuse = s.fuse := rfl
@[simp] theorem State.modPair_sys (f : Pair → Pair) : (s.modPair f).sys = s.sys := rfl
@[simp] theorem State.modPair_tim (f : Pair → Pair) : (s.modPair f).tim = s.tim := rfl
@[simp] theorem State.modPair_cmt (f : Pair → Pair) : (s.modPair f).cmt = s.cmt := rfl
@[simp] theorem State.modPair_hif (f : Pair → Pair) : (s.modPair f).hif = s.hif := rfl
@[simp] theorem State.modPair_txn (f : Pair → Pair) : (s.modPair f).txn = s.txn := rfl
@[simp] theorem State.modPair_evr (f : Pair → Pair) : (s.modPair f).evr = s.evr := rfl
@[simp] theorem State.modPair_rws (f : Pair → Pair) : (s.modPair f).rws = s.rws := rfl
@[simp] theorem State.modPair_rwp (f : Pair → Pair) : (s.modPair f).rwp = s.rwp := rfl
@[simp] theorem State.modPair_out (f : Pair → Pair) : (s.modPair f).out = s.out := rfl
@[simp] theorem State.modPair_free (f : Pair → Pair) : (s.modPair f).free = s.free := rfl
@[simp] theorem State.modPair_mem (f : Pair → Pair) : (s.modPair f).mem = s.mem := rfl
@[simp] theorem State.modPair_pair (f : Pair → Pair) : (s.modPair f).pair = f s.pair := rfl
@[simp] theorem State.modPair_part (f : Pair → Pair) : (s.modPair f).part = s.part := rfl
@[simp] theorem State.modPair_prg (f : Pair → Pair) : (s.modPair f).prg = s.prg := rfl
@[simp] theorem State.modPair_tsk (f : Pair → Pair) : (s.modPair f).tsk = s.tsk := rfl
@[simp] theorem State.modPair_lanes (f : Pair → Pair) : (s.modPair f).lanes = s.lanes := rfl
@[simp] theorem State.modPair_vot (f : Pair → Pair) : (s.modPair f).vot = s.vot := rfl
@[simp] theorem State.modPair_tbl (f : Pair → Pair) : (s.modPair f).tbl = s.tbl := rfl
@[simp] theorem State.modPair_fio (f : Pair → Pair) : (s.modPair f).fio = s.fio := rfl
@[simp] theorem State.modPair_net (f : Pair → Pair) : (s.modPair f).net = s.net := rfl
@[simp] theorem State.modPair_pst (f : Pair → Pair) : (s.modPair f).pst = s.pst := rfl
@[simp] theorem State.modPair_mtr (f : Pair → Pair) : (s.modPair f).mtr = s.mtr := rfl
@[simp] theorem State.modPair_rtc (f : Pair → Pair) : (s.modPair f).rtc = s.rtc := rfl
@[simp] theorem State.modPair_bar (f : Pair → Pair) : (s.modPair f).bar = s.bar := rfl
@[simp] theorem State.modPair_wdg (f : Pair → Pair) : (s.modPair f).wdg = s.wdg := rfl
@[simp] theorem State.modPair_fwu (f : Pair → Pair) : (s.modPair f).fwu = s.fwu := rfl

/-! ## modPart -/

@[simp] theorem State.modPart_pending (f : Partitions → Partitions) : (s.modPart f).pending = s.pending := rfl
@[simp] theorem State.modPart_clk (f : Partitions → Partitions) : (s.modPart f).clk = s.clk := rfl
@[simp] theorem State.modPart_fuse (f : Partitions → Partitions) : (s.modPart f).fuse = s.fuse := rfl
@[simp] theorem State.modPart_sys (f : Partitions → Partitions) : (s.modPart f).sys = s.sys := rfl
@[simp] theorem State.modPart_tim (f : Partitions → Partitions) : (s.modPart f).tim = s.tim := rfl
@[simp] theorem State.modPart_cmt (f : Partitions → Partitions) : (s.modPart f).cmt = s.cmt := rfl
@[simp] theorem State.modPart_hif (f : Partitions → Partitions) : (s.modPart f).hif = s.hif := rfl
@[simp] theorem State.modPart_txn (f : Partitions → Partitions) : (s.modPart f).txn = s.txn := rfl
@[simp] theorem State.modPart_evr (f : Partitions → Partitions) : (s.modPart f).evr = s.evr := rfl
@[simp] theorem State.modPart_rws (f : Partitions → Partitions) : (s.modPart f).rws = s.rws := rfl
@[simp] theorem State.modPart_rwp (f : Partitions → Partitions) : (s.modPart f).rwp = s.rwp := rfl
@[simp] theorem State.modPart_out (f : Partitions → Partitions) : (s.modPart f).out = s.out := rfl
@[simp] theorem State.modPart_free (f : Partitions → Partitions) : (s.modPart f).free = s.free := rfl
@[simp] theorem State.modPart_mem (f : Partitions → Partitions) : (s.modPart f).mem = s.mem := rfl
@[simp] theorem State.modPart_pair (f : Partitions → Partitions) : (s.modPart f).pair = s.pair := rfl
@[simp] theorem State.modPart_part (f : Partitions → Partitions) : (s.modPart f).part = f s.part := rfl
@[simp] theorem State.modPart_prg (f : Partitions → Partitions) : (s.modPart f).prg = s.prg := rfl
@[simp] theorem State.modPart_tsk (f : Partitions → Partitions) : (s.modPart f).tsk = s.tsk := rfl
@[simp] theorem State.modPart_lanes (f : Partitions → Partitions) : (s.modPart f).lanes = s.lanes := rfl
@[simp] theorem State.modPart_vot (f : Partitions → Partitions) : (s.modPart f).vot = s.vot := rfl
@[simp] theorem State.modPart_tbl (f : Partitions → Partitions) : (s.modPart f).tbl = s.tbl := rfl
@[simp] theorem State.modPart_fio (f : Partitions → Partitions) : (s.modPart f).fio = s.fio := rfl
@[simp] theorem State.modPart_net (f : Partitions → Partitions) : (s.modPart f).net = s.net := rfl
@[simp] theorem State.modPart_pst (f : Partitions → Partitions) : (s.modPart f).pst = s.pst := rfl
@[simp] theorem State.modPart_mtr (f : Partitions → Partitions) : (s.modPart f).mtr = s.mtr := rfl
@[simp] theorem State.modPart_rtc (f : Partitions → Partitions) : (s.modPart f).rtc = s.rtc := rfl
@[simp] theorem State.modPart_bar (f : Partitions → Partitions) : (s.modPart f).bar = s.bar := rfl
@[simp] theorem State.modPart_wdg (f : Partitions → Partitions) : (s.modPart f).wdg = s.wdg := rfl
@[simp] theorem State.modPart_fwu (f : Partitions → Partitions) : (s.modPart f).fwu = s.fwu := rfl

/-! ## modPrg -/

@[simp] theorem State.modPrg_pending (f : Prg → Prg) : (s.modPrg f).pending = s.pending := rfl
@[simp] theorem State.modPrg_clk (f : Prg → Prg) : (s.modPrg f).clk = s.clk := rfl
@[simp] theorem State.modPrg_fuse (f : Prg → Prg) : (s.modPrg f).fuse = s.fuse := rfl
@[simp] theorem State.modPrg_sys (f : Prg → Prg) : (s.modPrg f).sys = s.sys := rfl
@[simp] theorem State.modPrg_tim (f : Prg → Prg) : (s.modPrg f).tim = s.tim := rfl
@[simp] theorem State.modPrg_cmt (f : Prg → Prg) : (s.modPrg f).cmt = s.cmt := rfl
@[simp] theorem State.modPrg_hif (f : Prg → Prg) : (s.modPrg f).hif = s.hif := rfl
@[simp] theorem State.modPrg_txn (f : Prg → Prg) : (s.modPrg f).txn = s.txn := rfl
@[simp] theorem State.modPrg_evr (f : Prg → Prg) : (s.modPrg f).evr = s.evr := rfl
@[simp] theorem State.modPrg_rws (f : Prg → Prg) : (s.modPrg f).rws = s.rws := rfl
@[simp] theorem State.modPrg_rwp (f : Prg → Prg) : (s.modPrg f).rwp = s.rwp := rfl
@[simp] theorem State.modPrg_out (f : Prg → Prg) : (s.modPrg f).out = s.out := rfl
@[simp] theorem State.modPrg_free (f : Prg → Prg) : (s.modPrg f).free = s.free := rfl
@[simp] theorem State.modPrg_mem (f : Prg → Prg) : (s.modPrg f).mem = s.mem := rfl
@[simp] theorem State.modPrg_pair (f : Prg → Prg) : (s.modPrg f).pair = s.pair := rfl
@[simp] theorem State.modPrg_part (f : Prg → Prg) : (s.modPrg f).part = s.part := rfl
@[simp] theorem State.modPrg_prg (f : Prg → Prg) : (s.modPrg f).prg = f s.prg := rfl
@[simp] theorem State.modPrg_tsk (f : Prg → Prg) : (s.modPrg f).tsk = s.tsk := rfl
@[simp] theorem State.modPrg_lanes (f : Prg → Prg) : (s.modPrg f).lanes = s.lanes := rfl
@[simp] theorem State.modPrg_vot (f : Prg → Prg) : (s.modPrg f).vot = s.vot := rfl
@[simp] theorem State.modPrg_tbl (f : Prg → Prg) : (s.modPrg f).tbl = s.tbl := rfl
@[simp] theorem State.modPrg_fio (f : Prg → Prg) : (s.modPrg f).fio = s.fio := rfl
@[simp] theorem State.modPrg_net (f : Prg → Prg) : (s.modPrg f).net = s.net := rfl
@[simp] theorem State.modPrg_pst (f : Prg → Prg) : (s.modPrg f).pst = s.pst := rfl
@[simp] theorem State.modPrg_mtr (f : Prg → Prg) : (s.modPrg f).mtr = s.mtr := rfl
@[simp] theorem State.modPrg_rtc (f : Prg → Prg) : (s.modPrg f).rtc = s.rtc := rfl
@[simp] theorem State.modPrg_bar (f : Prg → Prg) : (s.modPrg f).bar = s.bar := rfl
@[simp] theorem State.modPrg_wdg (f : Prg → Prg) : (s.modPrg f).wdg = s.wdg := rfl
@[simp] theorem State.modPrg_fwu (f : Prg → Prg) : (s.modPrg f).fwu = s.fwu := rfl

/-! ## modTsk -/

@[simp] theorem State.modTsk_pending (f : Tsk → Tsk) : (s.modTsk f).pending = s.pending := rfl
@[simp] theorem State.modTsk_clk (f : Tsk → Tsk) : (s.modTsk f).clk = s.clk := rfl
@[simp] theorem State.modTsk_fuse (f : Tsk → Tsk) : (s.modTsk f).fuse = s.fuse := rfl
@[simp] theorem State.modTsk_sys (f : Tsk → Tsk) : (s.modTsk f).sys = s.sys := rfl
@[simp] theorem State.modTsk_tim (f : Tsk → Tsk) : (s.modTsk f).tim = s.tim := rfl
@[simp] theorem State.modTsk_cmt (f : Tsk → Tsk) : (s.modTsk f).cmt = s.cmt := rfl
@[simp] theorem State.modTsk_hif (f : Tsk → Tsk) : (s.modTsk f).hif = s.hif := rfl
@[simp] theorem State.modTsk_txn (f : Tsk → Tsk) : (s.modTsk f).txn = s.txn := rfl
@[simp] theorem State.modTsk_evr (f : Tsk → Tsk) : (s.modTsk f).evr = s.evr := rfl
@[simp] theorem State.modTsk_rws (f : Tsk → Tsk) : (s.modTsk f).rws = s.rws := rfl
@[simp] theorem State.modTsk_rwp (f : Tsk → Tsk) : (s.modTsk f).rwp = s.rwp := rfl
@[simp] theorem State.modTsk_out (f : Tsk → Tsk) : (s.modTsk f).out = s.out := rfl
@[simp] theorem State.modTsk_free (f : Tsk → Tsk) : (s.modTsk f).free = s.free := rfl
@[simp] theorem State.modTsk_mem (f : Tsk → Tsk) : (s.modTsk f).mem = s.mem := rfl
@[simp] theorem State.modTsk_pair (f : Tsk → Tsk) : (s.modTsk f).pair = s.pair := rfl
@[simp] theorem State.modTsk_part (f : Tsk → Tsk) : (s.modTsk f).part = s.part := rfl
@[simp] theorem State.modTsk_prg (f : Tsk → Tsk) : (s.modTsk f).prg = s.prg := rfl
@[simp] theorem State.modTsk_tsk (f : Tsk → Tsk) : (s.modTsk f).tsk = f s.tsk := rfl
@[simp] theorem State.modTsk_lanes (f : Tsk → Tsk) : (s.modTsk f).lanes = s.lanes := rfl
@[simp] theorem State.modTsk_vot (f : Tsk → Tsk) : (s.modTsk f).vot = s.vot := rfl
@[simp] theorem State.modTsk_tbl (f : Tsk → Tsk) : (s.modTsk f).tbl = s.tbl := rfl
@[simp] theorem State.modTsk_fio (f : Tsk → Tsk) : (s.modTsk f).fio = s.fio := rfl
@[simp] theorem State.modTsk_net (f : Tsk → Tsk) : (s.modTsk f).net = s.net := rfl
@[simp] theorem State.modTsk_pst (f : Tsk → Tsk) : (s.modTsk f).pst = s.pst := rfl
@[simp] theorem State.modTsk_mtr (f : Tsk → Tsk) : (s.modTsk f).mtr = s.mtr := rfl
@[simp] theorem State.modTsk_rtc (f : Tsk → Tsk) : (s.modTsk f).rtc = s.rtc := rfl
@[simp] theorem State.modTsk_bar (f : Tsk → Tsk) : (s.modTsk f).bar = s.bar := rfl
@[simp] theorem State.modTsk_wdg (f : Tsk → Tsk) : (s.modTsk f).wdg = s.wdg := rfl
@[simp] theorem State.modTsk_fwu (f : Tsk → Tsk) : (s.modTsk f).fwu = s.fwu := rfl

/-! ## modLanes -/

@[simp] theorem State.modLanes_pending (f : Vector Lane 3 → Vector Lane 3) : (s.modLanes f).pending = s.pending := rfl
@[simp] theorem State.modLanes_clk (f : Vector Lane 3 → Vector Lane 3) : (s.modLanes f).clk = s.clk := rfl
@[simp] theorem State.modLanes_fuse (f : Vector Lane 3 → Vector Lane 3) : (s.modLanes f).fuse = s.fuse := rfl
@[simp] theorem State.modLanes_sys (f : Vector Lane 3 → Vector Lane 3) : (s.modLanes f).sys = s.sys := rfl
@[simp] theorem State.modLanes_tim (f : Vector Lane 3 → Vector Lane 3) : (s.modLanes f).tim = s.tim := rfl
@[simp] theorem State.modLanes_cmt (f : Vector Lane 3 → Vector Lane 3) : (s.modLanes f).cmt = s.cmt := rfl
@[simp] theorem State.modLanes_hif (f : Vector Lane 3 → Vector Lane 3) : (s.modLanes f).hif = s.hif := rfl
@[simp] theorem State.modLanes_txn (f : Vector Lane 3 → Vector Lane 3) : (s.modLanes f).txn = s.txn := rfl
@[simp] theorem State.modLanes_evr (f : Vector Lane 3 → Vector Lane 3) : (s.modLanes f).evr = s.evr := rfl
@[simp] theorem State.modLanes_rws (f : Vector Lane 3 → Vector Lane 3) : (s.modLanes f).rws = s.rws := rfl
@[simp] theorem State.modLanes_rwp (f : Vector Lane 3 → Vector Lane 3) : (s.modLanes f).rwp = s.rwp := rfl
@[simp] theorem State.modLanes_out (f : Vector Lane 3 → Vector Lane 3) : (s.modLanes f).out = s.out := rfl
@[simp] theorem State.modLanes_free (f : Vector Lane 3 → Vector Lane 3) : (s.modLanes f).free = s.free := rfl
@[simp] theorem State.modLanes_mem (f : Vector Lane 3 → Vector Lane 3) : (s.modLanes f).mem = s.mem := rfl
@[simp] theorem State.modLanes_pair (f : Vector Lane 3 → Vector Lane 3) : (s.modLanes f).pair = s.pair := rfl
@[simp] theorem State.modLanes_part (f : Vector Lane 3 → Vector Lane 3) : (s.modLanes f).part = s.part := rfl
@[simp] theorem State.modLanes_prg (f : Vector Lane 3 → Vector Lane 3) : (s.modLanes f).prg = s.prg := rfl
@[simp] theorem State.modLanes_tsk (f : Vector Lane 3 → Vector Lane 3) : (s.modLanes f).tsk = s.tsk := rfl
@[simp] theorem State.modLanes_lanes (f : Vector Lane 3 → Vector Lane 3) : (s.modLanes f).lanes = f s.lanes := rfl
@[simp] theorem State.modLanes_vot (f : Vector Lane 3 → Vector Lane 3) : (s.modLanes f).vot = s.vot := rfl
@[simp] theorem State.modLanes_tbl (f : Vector Lane 3 → Vector Lane 3) : (s.modLanes f).tbl = s.tbl := rfl
@[simp] theorem State.modLanes_fio (f : Vector Lane 3 → Vector Lane 3) : (s.modLanes f).fio = s.fio := rfl
@[simp] theorem State.modLanes_net (f : Vector Lane 3 → Vector Lane 3) : (s.modLanes f).net = s.net := rfl
@[simp] theorem State.modLanes_pst (f : Vector Lane 3 → Vector Lane 3) : (s.modLanes f).pst = s.pst := rfl
@[simp] theorem State.modLanes_mtr (f : Vector Lane 3 → Vector Lane 3) : (s.modLanes f).mtr = s.mtr := rfl
@[simp] theorem State.modLanes_rtc (f : Vector Lane 3 → Vector Lane 3) : (s.modLanes f).rtc = s.rtc := rfl
@[simp] theorem State.modLanes_bar (f : Vector Lane 3 → Vector Lane 3) : (s.modLanes f).bar = s.bar := rfl
@[simp] theorem State.modLanes_wdg (f : Vector Lane 3 → Vector Lane 3) : (s.modLanes f).wdg = s.wdg := rfl
@[simp] theorem State.modLanes_fwu (f : Vector Lane 3 → Vector Lane 3) : (s.modLanes f).fwu = s.fwu := rfl

/-! ## modVot -/

@[simp] theorem State.modVot_pending (f : Vot → Vot) : (s.modVot f).pending = s.pending := rfl
@[simp] theorem State.modVot_clk (f : Vot → Vot) : (s.modVot f).clk = s.clk := rfl
@[simp] theorem State.modVot_fuse (f : Vot → Vot) : (s.modVot f).fuse = s.fuse := rfl
@[simp] theorem State.modVot_sys (f : Vot → Vot) : (s.modVot f).sys = s.sys := rfl
@[simp] theorem State.modVot_tim (f : Vot → Vot) : (s.modVot f).tim = s.tim := rfl
@[simp] theorem State.modVot_cmt (f : Vot → Vot) : (s.modVot f).cmt = s.cmt := rfl
@[simp] theorem State.modVot_hif (f : Vot → Vot) : (s.modVot f).hif = s.hif := rfl
@[simp] theorem State.modVot_txn (f : Vot → Vot) : (s.modVot f).txn = s.txn := rfl
@[simp] theorem State.modVot_evr (f : Vot → Vot) : (s.modVot f).evr = s.evr := rfl
@[simp] theorem State.modVot_rws (f : Vot → Vot) : (s.modVot f).rws = s.rws := rfl
@[simp] theorem State.modVot_rwp (f : Vot → Vot) : (s.modVot f).rwp = s.rwp := rfl
@[simp] theorem State.modVot_out (f : Vot → Vot) : (s.modVot f).out = s.out := rfl
@[simp] theorem State.modVot_free (f : Vot → Vot) : (s.modVot f).free = s.free := rfl
@[simp] theorem State.modVot_mem (f : Vot → Vot) : (s.modVot f).mem = s.mem := rfl
@[simp] theorem State.modVot_pair (f : Vot → Vot) : (s.modVot f).pair = s.pair := rfl
@[simp] theorem State.modVot_part (f : Vot → Vot) : (s.modVot f).part = s.part := rfl
@[simp] theorem State.modVot_prg (f : Vot → Vot) : (s.modVot f).prg = s.prg := rfl
@[simp] theorem State.modVot_tsk (f : Vot → Vot) : (s.modVot f).tsk = s.tsk := rfl
@[simp] theorem State.modVot_lanes (f : Vot → Vot) : (s.modVot f).lanes = s.lanes := rfl
@[simp] theorem State.modVot_vot (f : Vot → Vot) : (s.modVot f).vot = f s.vot := rfl
@[simp] theorem State.modVot_tbl (f : Vot → Vot) : (s.modVot f).tbl = s.tbl := rfl
@[simp] theorem State.modVot_fio (f : Vot → Vot) : (s.modVot f).fio = s.fio := rfl
@[simp] theorem State.modVot_net (f : Vot → Vot) : (s.modVot f).net = s.net := rfl
@[simp] theorem State.modVot_pst (f : Vot → Vot) : (s.modVot f).pst = s.pst := rfl
@[simp] theorem State.modVot_mtr (f : Vot → Vot) : (s.modVot f).mtr = s.mtr := rfl
@[simp] theorem State.modVot_rtc (f : Vot → Vot) : (s.modVot f).rtc = s.rtc := rfl
@[simp] theorem State.modVot_bar (f : Vot → Vot) : (s.modVot f).bar = s.bar := rfl
@[simp] theorem State.modVot_wdg (f : Vot → Vot) : (s.modVot f).wdg = s.wdg := rfl
@[simp] theorem State.modVot_fwu (f : Vot → Vot) : (s.modVot f).fwu = s.fwu := rfl

/-! ## modTbl -/

@[simp] theorem State.modTbl_pending (f : Vector Table 16 → Vector Table 16) : (s.modTbl f).pending = s.pending := rfl
@[simp] theorem State.modTbl_clk (f : Vector Table 16 → Vector Table 16) : (s.modTbl f).clk = s.clk := rfl
@[simp] theorem State.modTbl_fuse (f : Vector Table 16 → Vector Table 16) : (s.modTbl f).fuse = s.fuse := rfl
@[simp] theorem State.modTbl_sys (f : Vector Table 16 → Vector Table 16) : (s.modTbl f).sys = s.sys := rfl
@[simp] theorem State.modTbl_tim (f : Vector Table 16 → Vector Table 16) : (s.modTbl f).tim = s.tim := rfl
@[simp] theorem State.modTbl_cmt (f : Vector Table 16 → Vector Table 16) : (s.modTbl f).cmt = s.cmt := rfl
@[simp] theorem State.modTbl_hif (f : Vector Table 16 → Vector Table 16) : (s.modTbl f).hif = s.hif := rfl
@[simp] theorem State.modTbl_txn (f : Vector Table 16 → Vector Table 16) : (s.modTbl f).txn = s.txn := rfl
@[simp] theorem State.modTbl_evr (f : Vector Table 16 → Vector Table 16) : (s.modTbl f).evr = s.evr := rfl
@[simp] theorem State.modTbl_rws (f : Vector Table 16 → Vector Table 16) : (s.modTbl f).rws = s.rws := rfl
@[simp] theorem State.modTbl_rwp (f : Vector Table 16 → Vector Table 16) : (s.modTbl f).rwp = s.rwp := rfl
@[simp] theorem State.modTbl_out (f : Vector Table 16 → Vector Table 16) : (s.modTbl f).out = s.out := rfl
@[simp] theorem State.modTbl_free (f : Vector Table 16 → Vector Table 16) : (s.modTbl f).free = s.free := rfl
@[simp] theorem State.modTbl_mem (f : Vector Table 16 → Vector Table 16) : (s.modTbl f).mem = s.mem := rfl
@[simp] theorem State.modTbl_pair (f : Vector Table 16 → Vector Table 16) : (s.modTbl f).pair = s.pair := rfl
@[simp] theorem State.modTbl_part (f : Vector Table 16 → Vector Table 16) : (s.modTbl f).part = s.part := rfl
@[simp] theorem State.modTbl_prg (f : Vector Table 16 → Vector Table 16) : (s.modTbl f).prg = s.prg := rfl
@[simp] theorem State.modTbl_tsk (f : Vector Table 16 → Vector Table 16) : (s.modTbl f).tsk = s.tsk := rfl
@[simp] theorem State.modTbl_lanes (f : Vector Table 16 → Vector Table 16) : (s.modTbl f).lanes = s.lanes := rfl
@[simp] theorem State.modTbl_vot (f : Vector Table 16 → Vector Table 16) : (s.modTbl f).vot = s.vot := rfl
@[simp] theorem State.modTbl_tbl (f : Vector Table 16 → Vector Table 16) : (s.modTbl f).tbl = f s.tbl := rfl
@[simp] theorem State.modTbl_fio (f : Vector Table 16 → Vector Table 16) : (s.modTbl f).fio = s.fio := rfl
@[simp] theorem State.modTbl_net (f : Vector Table 16 → Vector Table 16) : (s.modTbl f).net = s.net := rfl
@[simp] theorem State.modTbl_pst (f : Vector Table 16 → Vector Table 16) : (s.modTbl f).pst = s.pst := rfl
@[simp] theorem State.modTbl_mtr (f : Vector Table 16 → Vector Table 16) : (s.modTbl f).mtr = s.mtr := rfl
@[simp] theorem State.modTbl_rtc (f : Vector Table 16 → Vector Table 16) : (s.modTbl f).rtc = s.rtc := rfl
@[simp] theorem State.modTbl_bar (f : Vector Table 16 → Vector Table 16) : (s.modTbl f).bar = s.bar := rfl
@[simp] theorem State.modTbl_wdg (f : Vector Table 16 → Vector Table 16) : (s.modTbl f).wdg = s.wdg := rfl
@[simp] theorem State.modTbl_fwu (f : Vector Table 16 → Vector Table 16) : (s.modTbl f).fwu = s.fwu := rfl

/-! ## modFio -/

@[simp] theorem State.modFio_pending (f : Fio → Fio) : (s.modFio f).pending = s.pending := rfl
@[simp] theorem State.modFio_clk (f : Fio → Fio) : (s.modFio f).clk = s.clk := rfl
@[simp] theorem State.modFio_fuse (f : Fio → Fio) : (s.modFio f).fuse = s.fuse := rfl
@[simp] theorem State.modFio_sys (f : Fio → Fio) : (s.modFio f).sys = s.sys := rfl
@[simp] theorem State.modFio_tim (f : Fio → Fio) : (s.modFio f).tim = s.tim := rfl
@[simp] theorem State.modFio_cmt (f : Fio → Fio) : (s.modFio f).cmt = s.cmt := rfl
@[simp] theorem State.modFio_hif (f : Fio → Fio) : (s.modFio f).hif = s.hif := rfl
@[simp] theorem State.modFio_txn (f : Fio → Fio) : (s.modFio f).txn = s.txn := rfl
@[simp] theorem State.modFio_evr (f : Fio → Fio) : (s.modFio f).evr = s.evr := rfl
@[simp] theorem State.modFio_rws (f : Fio → Fio) : (s.modFio f).rws = s.rws := rfl
@[simp] theorem State.modFio_rwp (f : Fio → Fio) : (s.modFio f).rwp = s.rwp := rfl
@[simp] theorem State.modFio_out (f : Fio → Fio) : (s.modFio f).out = s.out := rfl
@[simp] theorem State.modFio_free (f : Fio → Fio) : (s.modFio f).free = s.free := rfl
@[simp] theorem State.modFio_mem (f : Fio → Fio) : (s.modFio f).mem = s.mem := rfl
@[simp] theorem State.modFio_pair (f : Fio → Fio) : (s.modFio f).pair = s.pair := rfl
@[simp] theorem State.modFio_part (f : Fio → Fio) : (s.modFio f).part = s.part := rfl
@[simp] theorem State.modFio_prg (f : Fio → Fio) : (s.modFio f).prg = s.prg := rfl
@[simp] theorem State.modFio_tsk (f : Fio → Fio) : (s.modFio f).tsk = s.tsk := rfl
@[simp] theorem State.modFio_lanes (f : Fio → Fio) : (s.modFio f).lanes = s.lanes := rfl
@[simp] theorem State.modFio_vot (f : Fio → Fio) : (s.modFio f).vot = s.vot := rfl
@[simp] theorem State.modFio_tbl (f : Fio → Fio) : (s.modFio f).tbl = s.tbl := rfl
@[simp] theorem State.modFio_fio (f : Fio → Fio) : (s.modFio f).fio = f s.fio := rfl
@[simp] theorem State.modFio_net (f : Fio → Fio) : (s.modFio f).net = s.net := rfl
@[simp] theorem State.modFio_pst (f : Fio → Fio) : (s.modFio f).pst = s.pst := rfl
@[simp] theorem State.modFio_mtr (f : Fio → Fio) : (s.modFio f).mtr = s.mtr := rfl
@[simp] theorem State.modFio_rtc (f : Fio → Fio) : (s.modFio f).rtc = s.rtc := rfl
@[simp] theorem State.modFio_bar (f : Fio → Fio) : (s.modFio f).bar = s.bar := rfl
@[simp] theorem State.modFio_wdg (f : Fio → Fio) : (s.modFio f).wdg = s.wdg := rfl
@[simp] theorem State.modFio_fwu (f : Fio → Fio) : (s.modFio f).fwu = s.fwu := rfl

/-! ## modNet -/

@[simp] theorem State.modNet_pending (f : Net → Net) : (s.modNet f).pending = s.pending := rfl
@[simp] theorem State.modNet_clk (f : Net → Net) : (s.modNet f).clk = s.clk := rfl
@[simp] theorem State.modNet_fuse (f : Net → Net) : (s.modNet f).fuse = s.fuse := rfl
@[simp] theorem State.modNet_sys (f : Net → Net) : (s.modNet f).sys = s.sys := rfl
@[simp] theorem State.modNet_tim (f : Net → Net) : (s.modNet f).tim = s.tim := rfl
@[simp] theorem State.modNet_cmt (f : Net → Net) : (s.modNet f).cmt = s.cmt := rfl
@[simp] theorem State.modNet_hif (f : Net → Net) : (s.modNet f).hif = s.hif := rfl
@[simp] theorem State.modNet_txn (f : Net → Net) : (s.modNet f).txn = s.txn := rfl
@[simp] theorem State.modNet_evr (f : Net → Net) : (s.modNet f).evr = s.evr := rfl
@[simp] theorem State.modNet_rws (f : Net → Net) : (s.modNet f).rws = s.rws := rfl
@[simp] theorem State.modNet_rwp (f : Net → Net) : (s.modNet f).rwp = s.rwp := rfl
@[simp] theorem State.modNet_out (f : Net → Net) : (s.modNet f).out = s.out := rfl
@[simp] theorem State.modNet_free (f : Net → Net) : (s.modNet f).free = s.free := rfl
@[simp] theorem State.modNet_mem (f : Net → Net) : (s.modNet f).mem = s.mem := rfl
@[simp] theorem State.modNet_pair (f : Net → Net) : (s.modNet f).pair = s.pair := rfl
@[simp] theorem State.modNet_part (f : Net → Net) : (s.modNet f).part = s.part := rfl
@[simp] theorem State.modNet_prg (f : Net → Net) : (s.modNet f).prg = s.prg := rfl
@[simp] theorem State.modNet_tsk (f : Net → Net) : (s.modNet f).tsk = s.tsk := rfl
@[simp] theorem State.modNet_lanes (f : Net → Net) : (s.modNet f).lanes = s.lanes := rfl
@[simp] theorem State.modNet_vot (f : Net → Net) : (s.modNet f).vot = s.vot := rfl
@[simp] theorem State.modNet_tbl (f : Net → Net) : (s.modNet f).tbl = s.tbl := rfl
@[simp] theorem State.modNet_fio (f : Net → Net) : (s.modNet f).fio = s.fio := rfl
@[simp] theorem State.modNet_net (f : Net → Net) : (s.modNet f).net = f s.net := rfl
@[simp] theorem State.modNet_pst (f : Net → Net) : (s.modNet f).pst = s.pst := rfl
@[simp] theorem State.modNet_mtr (f : Net → Net) : (s.modNet f).mtr = s.mtr := rfl
@[simp] theorem State.modNet_rtc (f : Net → Net) : (s.modNet f).rtc = s.rtc := rfl
@[simp] theorem State.modNet_bar (f : Net → Net) : (s.modNet f).bar = s.bar := rfl
@[simp] theorem State.modNet_wdg (f : Net → Net) : (s.modNet f).wdg = s.wdg := rfl
@[simp] theorem State.modNet_fwu (f : Net → Net) : (s.modNet f).fwu = s.fwu := rfl

/-! ## modPst -/

@[simp] theorem State.modPst_pending (f : Pst → Pst) : (s.modPst f).pending = s.pending := rfl
@[simp] theorem State.modPst_clk (f : Pst → Pst) : (s.modPst f).clk = s.clk := rfl
@[simp] theorem State.modPst_fuse (f : Pst → Pst) : (s.modPst f).fuse = s.fuse := rfl
@[simp] theorem State.modPst_sys (f : Pst → Pst) : (s.modPst f).sys = s.sys := rfl
@[simp] theorem State.modPst_tim (f : Pst → Pst) : (s.modPst f).tim = s.tim := rfl
@[simp] theorem State.modPst_cmt (f : Pst → Pst) : (s.modPst f).cmt = s.cmt := rfl
@[simp] theorem State.modPst_hif (f : Pst → Pst) : (s.modPst f).hif = s.hif := rfl
@[simp] theorem State.modPst_txn (f : Pst → Pst) : (s.modPst f).txn = s.txn := rfl
@[simp] theorem State.modPst_evr (f : Pst → Pst) : (s.modPst f).evr = s.evr := rfl
@[simp] theorem State.modPst_rws (f : Pst → Pst) : (s.modPst f).rws = s.rws := rfl
@[simp] theorem State.modPst_rwp (f : Pst → Pst) : (s.modPst f).rwp = s.rwp := rfl
@[simp] theorem State.modPst_out (f : Pst → Pst) : (s.modPst f).out = s.out := rfl
@[simp] theorem State.modPst_free (f : Pst → Pst) : (s.modPst f).free = s.free := rfl
@[simp] theorem State.modPst_mem (f : Pst → Pst) : (s.modPst f).mem = s.mem := rfl
@[simp] theorem State.modPst_pair (f : Pst → Pst) : (s.modPst f).pair = s.pair := rfl
@[simp] theorem State.modPst_part (f : Pst → Pst) : (s.modPst f).part = s.part := rfl
@[simp] theorem State.modPst_prg (f : Pst → Pst) : (s.modPst f).prg = s.prg := rfl
@[simp] theorem State.modPst_tsk (f : Pst → Pst) : (s.modPst f).tsk = s.tsk := rfl
@[simp] theorem State.modPst_lanes (f : Pst → Pst) : (s.modPst f).lanes = s.lanes := rfl
@[simp] theorem State.modPst_vot (f : Pst → Pst) : (s.modPst f).vot = s.vot := rfl
@[simp] theorem State.modPst_tbl (f : Pst → Pst) : (s.modPst f).tbl = s.tbl := rfl
@[simp] theorem State.modPst_fio (f : Pst → Pst) : (s.modPst f).fio = s.fio := rfl
@[simp] theorem State.modPst_net (f : Pst → Pst) : (s.modPst f).net = s.net := rfl
@[simp] theorem State.modPst_pst (f : Pst → Pst) : (s.modPst f).pst = f s.pst := rfl
@[simp] theorem State.modPst_mtr (f : Pst → Pst) : (s.modPst f).mtr = s.mtr := rfl
@[simp] theorem State.modPst_rtc (f : Pst → Pst) : (s.modPst f).rtc = s.rtc := rfl
@[simp] theorem State.modPst_bar (f : Pst → Pst) : (s.modPst f).bar = s.bar := rfl
@[simp] theorem State.modPst_wdg (f : Pst → Pst) : (s.modPst f).wdg = s.wdg := rfl
@[simp] theorem State.modPst_fwu (f : Pst → Pst) : (s.modPst f).fwu = s.fwu := rfl

/-! ## modMtr -/

@[simp] theorem State.modMtr_pending (f : Mtr → Mtr) : (s.modMtr f).pending = s.pending := rfl
@[simp] theorem State.modMtr_clk (f : Mtr → Mtr) : (s.modMtr f).clk = s.clk := rfl
@[simp] theorem State.modMtr_fuse (f : Mtr → Mtr) : (s.modMtr f).fuse = s.fuse := rfl
@[simp] theorem State.modMtr_sys (f : Mtr → Mtr) : (s.modMtr f).sys = s.sys := rfl
@[simp] theorem State.modMtr_tim (f : Mtr → Mtr) : (s.modMtr f).tim = s.tim := rfl
@[simp] theorem State.modMtr_cmt (f : Mtr → Mtr) : (s.modMtr f).cmt = s.cmt := rfl
@[simp] theorem State.modMtr_hif (f : Mtr → Mtr) : (s.modMtr f).hif = s.hif := rfl
@[simp] theorem State.modMtr_txn (f : Mtr → Mtr) : (s.modMtr f).txn = s.txn := rfl
@[simp] theorem State.modMtr_evr (f : Mtr → Mtr) : (s.modMtr f).evr = s.evr := rfl
@[simp] theorem State.modMtr_rws (f : Mtr → Mtr) : (s.modMtr f).rws = s.rws := rfl
@[simp] theorem State.modMtr_rwp (f : Mtr → Mtr) : (s.modMtr f).rwp = s.rwp := rfl
@[simp] theorem State.modMtr_out (f : Mtr → Mtr) : (s.modMtr f).out = s.out := rfl
@[simp] theorem State.modMtr_free (f : Mtr → Mtr) : (s.modMtr f).free = s.free := rfl
@[simp] theorem State.modMtr_mem (f : Mtr → Mtr) : (s.modMtr f).mem = s.mem := rfl
@[simp] theorem State.modMtr_pair (f : Mtr → Mtr) : (s.modMtr f).pair = s.pair := rfl
@[simp] theorem State.modMtr_part (f : Mtr → Mtr) : (s.modMtr f).part = s.part := rfl
@[simp] theorem State.modMtr_prg (f : Mtr → Mtr) : (s.modMtr f).prg = s.prg := rfl
@[simp] theorem State.modMtr_tsk (f : Mtr → Mtr) : (s.modMtr f).tsk = s.tsk := rfl
@[simp] theorem State.modMtr_lanes (f : Mtr → Mtr) : (s.modMtr f).lanes = s.lanes := rfl
@[simp] theorem State.modMtr_vot (f : Mtr → Mtr) : (s.modMtr f).vot = s.vot := rfl
@[simp] theorem State.modMtr_tbl (f : Mtr → Mtr) : (s.modMtr f).tbl = s.tbl := rfl
@[simp] theorem State.modMtr_fio (f : Mtr → Mtr) : (s.modMtr f).fio = s.fio := rfl
@[simp] theorem State.modMtr_net (f : Mtr → Mtr) : (s.modMtr f).net = s.net := rfl
@[simp] theorem State.modMtr_pst (f : Mtr → Mtr) : (s.modMtr f).pst = s.pst := rfl
@[simp] theorem State.modMtr_mtr (f : Mtr → Mtr) : (s.modMtr f).mtr = f s.mtr := rfl
@[simp] theorem State.modMtr_rtc (f : Mtr → Mtr) : (s.modMtr f).rtc = s.rtc := rfl
@[simp] theorem State.modMtr_bar (f : Mtr → Mtr) : (s.modMtr f).bar = s.bar := rfl
@[simp] theorem State.modMtr_wdg (f : Mtr → Mtr) : (s.modMtr f).wdg = s.wdg := rfl
@[simp] theorem State.modMtr_fwu (f : Mtr → Mtr) : (s.modMtr f).fwu = s.fwu := rfl

/-! ## modRtc -/

@[simp] theorem State.modRtc_pending (f : Rtc → Rtc) : (s.modRtc f).pending = s.pending := rfl
@[simp] theorem State.modRtc_clk (f : Rtc → Rtc) : (s.modRtc f).clk = s.clk := rfl
@[simp] theorem State.modRtc_fuse (f : Rtc → Rtc) : (s.modRtc f).fuse = s.fuse := rfl
@[simp] theorem State.modRtc_sys (f : Rtc → Rtc) : (s.modRtc f).sys = s.sys := rfl
@[simp] theorem State.modRtc_tim (f : Rtc → Rtc) : (s.modRtc f).tim = s.tim := rfl
@[simp] theorem State.modRtc_cmt (f : Rtc → Rtc) : (s.modRtc f).cmt = s.cmt := rfl
@[simp] theorem State.modRtc_hif (f : Rtc → Rtc) : (s.modRtc f).hif = s.hif := rfl
@[simp] theorem State.modRtc_txn (f : Rtc → Rtc) : (s.modRtc f).txn = s.txn := rfl
@[simp] theorem State.modRtc_evr (f : Rtc → Rtc) : (s.modRtc f).evr = s.evr := rfl
@[simp] theorem State.modRtc_rws (f : Rtc → Rtc) : (s.modRtc f).rws = s.rws := rfl
@[simp] theorem State.modRtc_rwp (f : Rtc → Rtc) : (s.modRtc f).rwp = s.rwp := rfl
@[simp] theorem State.modRtc_out (f : Rtc → Rtc) : (s.modRtc f).out = s.out := rfl
@[simp] theorem State.modRtc_free (f : Rtc → Rtc) : (s.modRtc f).free = s.free := rfl
@[simp] theorem State.modRtc_mem (f : Rtc → Rtc) : (s.modRtc f).mem = s.mem := rfl
@[simp] theorem State.modRtc_pair (f : Rtc → Rtc) : (s.modRtc f).pair = s.pair := rfl
@[simp] theorem State.modRtc_part (f : Rtc → Rtc) : (s.modRtc f).part = s.part := rfl
@[simp] theorem State.modRtc_prg (f : Rtc → Rtc) : (s.modRtc f).prg = s.prg := rfl
@[simp] theorem State.modRtc_tsk (f : Rtc → Rtc) : (s.modRtc f).tsk = s.tsk := rfl
@[simp] theorem State.modRtc_lanes (f : Rtc → Rtc) : (s.modRtc f).lanes = s.lanes := rfl
@[simp] theorem State.modRtc_vot (f : Rtc → Rtc) : (s.modRtc f).vot = s.vot := rfl
@[simp] theorem State.modRtc_tbl (f : Rtc → Rtc) : (s.modRtc f).tbl = s.tbl := rfl
@[simp] theorem State.modRtc_fio (f : Rtc → Rtc) : (s.modRtc f).fio = s.fio := rfl
@[simp] theorem State.modRtc_net (f : Rtc → Rtc) : (s.modRtc f).net = s.net := rfl
@[simp] theorem State.modRtc_pst (f : Rtc → Rtc) : (s.modRtc f).pst = s.pst := rfl
@[simp] theorem State.modRtc_mtr (f : Rtc → Rtc) : (s.modRtc f).mtr = s.mtr := rfl
@[simp] theorem State.modRtc_rtc (f : Rtc → Rtc) : (s.modRtc f).rtc = f s.rtc := rfl
@[simp] theorem State.modRtc_bar (f : Rtc → Rtc) : (s.modRtc f).bar = s.bar := rfl
@[simp] theorem State.modRtc_wdg (f : Rtc → Rtc) : (s.modRtc f).wdg = s.wdg := rfl
@[simp] theorem State.modRtc_fwu (f : Rtc → Rtc) : (s.modRtc f).fwu = s.fwu := rfl

/-! ## modBar -/

@[simp] theorem State.modBar_pending (f : Bar → Bar) : (s.modBar f).pending = s.pending := rfl
@[simp] theorem State.modBar_clk (f : Bar → Bar) : (s.modBar f).clk = s.clk := rfl
@[simp] theorem State.modBar_fuse (f : Bar → Bar) : (s.modBar f).fuse = s.fuse := rfl
@[simp] theorem State.modBar_sys (f : Bar → Bar) : (s.modBar f).sys = s.sys := rfl
@[simp] theorem State.modBar_tim (f : Bar → Bar) : (s.modBar f).tim = s.tim := rfl
@[simp] theorem State.modBar_cmt (f : Bar → Bar) : (s.modBar f).cmt = s.cmt := rfl
@[simp] theorem State.modBar_hif (f : Bar → Bar) : (s.modBar f).hif = s.hif := rfl
@[simp] theorem State.modBar_txn (f : Bar → Bar) : (s.modBar f).txn = s.txn := rfl
@[simp] theorem State.modBar_evr (f : Bar → Bar) : (s.modBar f).evr = s.evr := rfl
@[simp] theorem State.modBar_rws (f : Bar → Bar) : (s.modBar f).rws = s.rws := rfl
@[simp] theorem State.modBar_rwp (f : Bar → Bar) : (s.modBar f).rwp = s.rwp := rfl
@[simp] theorem State.modBar_out (f : Bar → Bar) : (s.modBar f).out = s.out := rfl
@[simp] theorem State.modBar_free (f : Bar → Bar) : (s.modBar f).free = s.free := rfl
@[simp] theorem State.modBar_mem (f : Bar → Bar) : (s.modBar f).mem = s.mem := rfl
@[simp] theorem State.modBar_pair (f : Bar → Bar) : (s.modBar f).pair = s.pair := rfl
@[simp] theorem State.modBar_part (f : Bar → Bar) : (s.modBar f).part = s.part := rfl
@[simp] theorem State.modBar_prg (f : Bar → Bar) : (s.modBar f).prg = s.prg := rfl
@[simp] theorem State.modBar_tsk (f : Bar → Bar) : (s.modBar f).tsk = s.tsk := rfl
@[simp] theorem State.modBar_lanes (f : Bar → Bar) : (s.modBar f).lanes = s.lanes := rfl
@[simp] theorem State.modBar_vot (f : Bar → Bar) : (s.modBar f).vot = s.vot := rfl
@[simp] theorem State.modBar_tbl (f : Bar → Bar) : (s.modBar f).tbl = s.tbl := rfl
@[simp] theorem State.modBar_fio (f : Bar → Bar) : (s.modBar f).fio = s.fio := rfl
@[simp] theorem State.modBar_net (f : Bar → Bar) : (s.modBar f).net = s.net := rfl
@[simp] theorem State.modBar_pst (f : Bar → Bar) : (s.modBar f).pst = s.pst := rfl
@[simp] theorem State.modBar_mtr (f : Bar → Bar) : (s.modBar f).mtr = s.mtr := rfl
@[simp] theorem State.modBar_rtc (f : Bar → Bar) : (s.modBar f).rtc = s.rtc := rfl
@[simp] theorem State.modBar_bar (f : Bar → Bar) : (s.modBar f).bar = f s.bar := rfl
@[simp] theorem State.modBar_wdg (f : Bar → Bar) : (s.modBar f).wdg = s.wdg := rfl
@[simp] theorem State.modBar_fwu (f : Bar → Bar) : (s.modBar f).fwu = s.fwu := rfl

/-! ## modWdg -/

@[simp] theorem State.modWdg_pending (f : Wdg → Wdg) : (s.modWdg f).pending = s.pending := rfl
@[simp] theorem State.modWdg_clk (f : Wdg → Wdg) : (s.modWdg f).clk = s.clk := rfl
@[simp] theorem State.modWdg_fuse (f : Wdg → Wdg) : (s.modWdg f).fuse = s.fuse := rfl
@[simp] theorem State.modWdg_sys (f : Wdg → Wdg) : (s.modWdg f).sys = s.sys := rfl
@[simp] theorem State.modWdg_tim (f : Wdg → Wdg) : (s.modWdg f).tim = s.tim := rfl
@[simp] theorem State.modWdg_cmt (f : Wdg → Wdg) : (s.modWdg f).cmt = s.cmt := rfl
@[simp] theorem State.modWdg_hif (f : Wdg → Wdg) : (s.modWdg f).hif = s.hif := rfl
@[simp] theorem State.modWdg_txn (f : Wdg → Wdg) : (s.modWdg f).txn = s.txn := rfl
@[simp] theorem State.modWdg_evr (f : Wdg → Wdg) : (s.modWdg f).evr = s.evr := rfl
@[simp] theorem State.modWdg_rws (f : Wdg → Wdg) : (s.modWdg f).rws = s.rws := rfl
@[simp] theorem State.modWdg_rwp (f : Wdg → Wdg) : (s.modWdg f).rwp = s.rwp := rfl
@[simp] theorem State.modWdg_out (f : Wdg → Wdg) : (s.modWdg f).out = s.out := rfl
@[simp] theorem State.modWdg_free (f : Wdg → Wdg) : (s.modWdg f).free = s.free := rfl
@[simp] theorem State.modWdg_mem (f : Wdg → Wdg) : (s.modWdg f).mem = s.mem := rfl
@[simp] theorem State.modWdg_pair (f : Wdg → Wdg) : (s.modWdg f).pair = s.pair := rfl
@[simp] theorem State.modWdg_part (f : Wdg → Wdg) : (s.modWdg f).part = s.part := rfl
@[simp] theorem State.modWdg_prg (f : Wdg → Wdg) : (s.modWdg f).prg = s.prg := rfl
@[simp] theorem State.modWdg_tsk (f : Wdg → Wdg) : (s.modWdg f).tsk = s.tsk := rfl
@[simp] theorem State.modWdg_lanes (f : Wdg → Wdg) : (s.modWdg f).lanes = s.lanes := rfl
@[simp] theorem State.modWdg_vot (f : Wdg → Wdg) : (s.modWdg f).vot = s.vot := rfl
@[simp] theorem State.modWdg_tbl (f : Wdg → Wdg) : (s.modWdg f).tbl = s.tbl := rfl
@[simp] theorem State.modWdg_fio (f : Wdg → Wdg) : (s.modWdg f).fio = s.fio := rfl
@[simp] theorem State.modWdg_net (f : Wdg → Wdg) : (s.modWdg f).net = s.net := rfl
@[simp] theorem State.modWdg_pst (f : Wdg → Wdg) : (s.modWdg f).pst = s.pst := rfl
@[simp] theorem State.modWdg_mtr (f : Wdg → Wdg) : (s.modWdg f).mtr = s.mtr := rfl
@[simp] theorem State.modWdg_rtc (f : Wdg → Wdg) : (s.modWdg f).rtc = s.rtc := rfl
@[simp] theorem State.modWdg_bar (f : Wdg → Wdg) : (s.modWdg f).bar = s.bar := rfl
@[simp] theorem State.modWdg_wdg (f : Wdg → Wdg) : (s.modWdg f).wdg = f s.wdg := rfl
@[simp] theorem State.modWdg_fwu (f : Wdg → Wdg) : (s.modWdg f).fwu = s.fwu := rfl

/-! ## modFwu -/

@[simp] theorem State.modFwu_pending (f : Fwu → Fwu) : (s.modFwu f).pending = s.pending := rfl
@[simp] theorem State.modFwu_clk (f : Fwu → Fwu) : (s.modFwu f).clk = s.clk := rfl
@[simp] theorem State.modFwu_fuse (f : Fwu → Fwu) : (s.modFwu f).fuse = s.fuse := rfl
@[simp] theorem State.modFwu_sys (f : Fwu → Fwu) : (s.modFwu f).sys = s.sys := rfl
@[simp] theorem State.modFwu_tim (f : Fwu → Fwu) : (s.modFwu f).tim = s.tim := rfl
@[simp] theorem State.modFwu_cmt (f : Fwu → Fwu) : (s.modFwu f).cmt = s.cmt := rfl
@[simp] theorem State.modFwu_hif (f : Fwu → Fwu) : (s.modFwu f).hif = s.hif := rfl
@[simp] theorem State.modFwu_txn (f : Fwu → Fwu) : (s.modFwu f).txn = s.txn := rfl
@[simp] theorem State.modFwu_evr (f : Fwu → Fwu) : (s.modFwu f).evr = s.evr := rfl
@[simp] theorem State.modFwu_rws (f : Fwu → Fwu) : (s.modFwu f).rws = s.rws := rfl
@[simp] theorem State.modFwu_rwp (f : Fwu → Fwu) : (s.modFwu f).rwp = s.rwp := rfl
@[simp] theorem State.modFwu_out (f : Fwu → Fwu) : (s.modFwu f).out = s.out := rfl
@[simp] theorem State.modFwu_free (f : Fwu → Fwu) : (s.modFwu f).free = s.free := rfl
@[simp] theorem State.modFwu_mem (f : Fwu → Fwu) : (s.modFwu f).mem = s.mem := rfl
@[simp] theorem State.modFwu_pair (f : Fwu → Fwu) : (s.modFwu f).pair = s.pair := rfl
@[simp] theorem State.modFwu_part (f : Fwu → Fwu) : (s.modFwu f).part = s.part := rfl
@[simp] theorem State.modFwu_prg (f : Fwu → Fwu) : (s.modFwu f).prg = s.prg := rfl
@[simp] theorem State.modFwu_tsk (f : Fwu → Fwu) : (s.modFwu f).tsk = s.tsk := rfl
@[simp] theorem State.modFwu_lanes (f : Fwu → Fwu) : (s.modFwu f).lanes = s.lanes := rfl
@[simp] theorem State.modFwu_vot (f : Fwu → Fwu) : (s.modFwu f).vot = s.vot := rfl
@[simp] theorem State.modFwu_tbl (f : Fwu → Fwu) : (s.modFwu f).tbl = s.tbl := rfl
@[simp] theorem State.modFwu_fio (f : Fwu → Fwu) : (s.modFwu f).fio = s.fio := rfl
@[simp] theorem State.modFwu_net (f : Fwu → Fwu) : (s.modFwu f).net = s.net := rfl
@[simp] theorem State.modFwu_pst (f : Fwu → Fwu) : (s.modFwu f).pst = s.pst := rfl
@[simp] theorem State.modFwu_mtr (f : Fwu → Fwu) : (s.modFwu f).mtr = s.mtr := rfl
@[simp] theorem State.modFwu_rtc (f : Fwu → Fwu) : (s.modFwu f).rtc = s.rtc := rfl
@[simp] theorem State.modFwu_bar (f : Fwu → Fwu) : (s.modFwu f).bar = s.bar := rfl
@[simp] theorem State.modFwu_wdg (f : Fwu → Fwu) : (s.modFwu f).wdg = s.wdg := rfl
@[simp] theorem State.modFwu_fwu (f : Fwu → Fwu) : (s.modFwu f).fwu = f s.fwu := rfl

/-! ## The queue -/

@[simp] theorem State.popped_pending : s.popped.pending = s.pending.tail := rfl
@[simp] theorem State.popped_clk : s.popped.clk = s.clk := rfl
@[simp] theorem State.popped_fuse : s.popped.fuse = s.fuse := rfl
@[simp] theorem State.popped_sys : s.popped.sys = s.sys := rfl
@[simp] theorem State.popped_tim : s.popped.tim = s.tim := rfl
@[simp] theorem State.popped_cmt : s.popped.cmt = s.cmt := rfl
@[simp] theorem State.popped_hif : s.popped.hif = s.hif := rfl
@[simp] theorem State.popped_txn : s.popped.txn = s.txn := rfl
@[simp] theorem State.popped_evr : s.popped.evr = s.evr := rfl
@[simp] theorem State.popped_rws : s.popped.rws = s.rws := rfl
@[simp] theorem State.popped_rwp : s.popped.rwp = s.rwp := rfl
@[simp] theorem State.popped_out : s.popped.out = s.out := rfl
@[simp] theorem State.popped_free : s.popped.free = s.free := rfl
@[simp] theorem State.popped_mem : s.popped.mem = s.mem := rfl
@[simp] theorem State.popped_pair : s.popped.pair = s.pair := rfl
@[simp] theorem State.popped_part : s.popped.part = s.part := rfl
@[simp] theorem State.popped_prg : s.popped.prg = s.prg := rfl
@[simp] theorem State.popped_tsk : s.popped.tsk = s.tsk := rfl
@[simp] theorem State.popped_lanes : s.popped.lanes = s.lanes := rfl
@[simp] theorem State.popped_vot : s.popped.vot = s.vot := rfl
@[simp] theorem State.popped_tbl : s.popped.tbl = s.tbl := rfl
@[simp] theorem State.popped_fio : s.popped.fio = s.fio := rfl
@[simp] theorem State.popped_net : s.popped.net = s.net := rfl
@[simp] theorem State.popped_pst : s.popped.pst = s.pst := rfl
@[simp] theorem State.popped_mtr : s.popped.mtr = s.mtr := rfl
@[simp] theorem State.popped_rtc : s.popped.rtc = s.rtc := rfl
@[simp] theorem State.popped_bar : s.popped.bar = s.bar := rfl
@[simp] theorem State.popped_wdg : s.popped.wdg = s.wdg := rfl
@[simp] theorem State.popped_fwu : s.popped.fwu = s.fwu := rfl

@[simp] theorem State.withFront_pending (c : Instr) : (s.withFront c).pending = c :: s.pending := rfl
@[simp] theorem State.withFront_clk (c : Instr) : (s.withFront c).clk = s.clk := rfl
@[simp] theorem State.withFront_fuse (c : Instr) : (s.withFront c).fuse = s.fuse := rfl
@[simp] theorem State.withFront_sys (c : Instr) : (s.withFront c).sys = s.sys := rfl
@[simp] theorem State.withFront_tim (c : Instr) : (s.withFront c).tim = s.tim := rfl
@[simp] theorem State.withFront_cmt (c : Instr) : (s.withFront c).cmt = s.cmt := rfl
@[simp] theorem State.withFront_hif (c : Instr) : (s.withFront c).hif = s.hif := rfl
@[simp] theorem State.withFront_txn (c : Instr) : (s.withFront c).txn = s.txn := rfl
@[simp] theorem State.withFront_evr (c : Instr) : (s.withFront c).evr = s.evr := rfl
@[simp] theorem State.withFront_rws (c : Instr) : (s.withFront c).rws = s.rws := rfl
@[simp] theorem State.withFront_rwp (c : Instr) : (s.withFront c).rwp = s.rwp := rfl
@[simp] theorem State.withFront_out (c : Instr) : (s.withFront c).out = s.out := rfl
@[simp] theorem State.withFront_free (c : Instr) : (s.withFront c).free = s.free := rfl
@[simp] theorem State.withFront_mem (c : Instr) : (s.withFront c).mem = s.mem := rfl
@[simp] theorem State.withFront_pair (c : Instr) : (s.withFront c).pair = s.pair := rfl
@[simp] theorem State.withFront_part (c : Instr) : (s.withFront c).part = s.part := rfl
@[simp] theorem State.withFront_prg (c : Instr) : (s.withFront c).prg = s.prg := rfl
@[simp] theorem State.withFront_tsk (c : Instr) : (s.withFront c).tsk = s.tsk := rfl
@[simp] theorem State.withFront_lanes (c : Instr) : (s.withFront c).lanes = s.lanes := rfl
@[simp] theorem State.withFront_vot (c : Instr) : (s.withFront c).vot = s.vot := rfl
@[simp] theorem State.withFront_tbl (c : Instr) : (s.withFront c).tbl = s.tbl := rfl
@[simp] theorem State.withFront_fio (c : Instr) : (s.withFront c).fio = s.fio := rfl
@[simp] theorem State.withFront_net (c : Instr) : (s.withFront c).net = s.net := rfl
@[simp] theorem State.withFront_pst (c : Instr) : (s.withFront c).pst = s.pst := rfl
@[simp] theorem State.withFront_mtr (c : Instr) : (s.withFront c).mtr = s.mtr := rfl
@[simp] theorem State.withFront_rtc (c : Instr) : (s.withFront c).rtc = s.rtc := rfl
@[simp] theorem State.withFront_bar (c : Instr) : (s.withFront c).bar = s.bar := rfl
@[simp] theorem State.withFront_wdg (c : Instr) : (s.withFront c).wdg = s.wdg := rfl
@[simp] theorem State.withFront_fwu (c : Instr) : (s.withFront c).fwu = s.fwu := rfl

end Sys2Proof.Machine
end

