-- ==== Sys2Proof/Laws/Ops.lean ====
section
/-! SUPPORT. What the shared operations of Machine/Ops.lean can do, said once. -/

namespace Sys2Proof.Machine

/-! ## One element of a vector -/

@[simp] theorem vmod_get_same {α : Type} {n : Nat} (v : Vector α n) (i : Fin n) (f : α → α) : (vmod v i f).get i = f (v.get i) := by
  simp only [vmod, Vector.get_eq_getElem]
  exact Vector.getElem_set_self ..

theorem vmod_get_other {α : Type} {n : Nat} (v : Vector α n) {i j : Fin n} (f : α → α) (h : i ≠ j) : (vmod v i f).get j = v.get j := by
  simp only [vmod, Vector.get_eq_getElem]
  exact Vector.getElem_set_ne _ _ fun e => h (Fin.ext e)

/-- An update of one element depends only on what it makes of that element. -/
theorem vmod_congr {α : Type} {n : Nat} {v : Vector α n} {i : Fin n} {f g : α → α} (h : f (v.get i) = g (v.get i)) :
    vmod v i f = vmod v i g := by
  simp only [vmod, h]

/-! ## Ring pairs -/

@[simp] theorem ringPair_modRing (q : RingId) (f : RingPair → RingPair) (s : State) : ringPair (modRing q f s) q = f (ringPair s q) := by
  simp [ringPair, modRing]

theorem ringPair_modRing_other {q p : RingId} (f : RingPair → RingPair) (s : State) (h : q ≠ p) :
    ringPair (modRing q f s) p = ringPair s p := by
  simp [ringPair, modRing, vmod_get_other _ f h]

theorem modRing_congr {q : RingId} {f g : RingPair → RingPair} {s : State} (h : f (ringPair s q) = g (ringPair s q)) :
    modRing q f s = modRing q g s := by
  simp only [modRing, State.modHif, vmod_congr (show f (s.hif.rings.get q) = g (s.hif.rings.get q) from h)]

/-- A ring-pair update leaves everything but the ring pairs. -/
theorem modRing_frame (q : RingId) (f : RingPair → RingPair) (s : State) : ∃ h, modRing q f s = { s with hif := { s.hif with rings := h } } :=
  ⟨_, rfl⟩

/-! ## Leaving the module, vectors, records and events -/

/-- An event vector changes only the causes, the pending bits and what has left the module. -/
theorem raise_frame (v : Nat) (s : State) :
    ∃ c m o, raise v s = { s with hif := { s.hif with cause := c, msix := m }, out := o } := by
  unfold raise
  split
  · unfold raiseBit
    split
    · exact ⟨_, _, _, rfl⟩
    · unfold sendMsix
      dsimp only
      split
      · exact ⟨_, _, _, rfl⟩
      · exact ⟨_, _, _, rfl⟩
  · exact ⟨_, _, _, rfl⟩

/-- A trace record changes only the trace. -/
theorem traceGen_frame (typ flags source : Nat) (body : List Byte) (ct : Nat) (s : State) :
    ∃ c, traceGen typ flags source body ct s = { s with cmt := c } := by
  unfold traceGen
  split
  · exact ⟨_, rfl⟩
  · exact ⟨_, rfl⟩

/-- Handing an event over changes only the recorder, or the events that the metering unit holds. -/
theorem handOver_frame (i : EvItem) (s : State) : ∃ r l, handOver i s = { s with evr := r, mtr := { s.mtr with events := l } } := by
  unfold handOver
  split
  · exact ⟨_, _, rfl⟩
  · exact ⟨_, _, rfl⟩

/-- An event changes only the trace, the recorder and the events held for it, the causes and pending bits, and what has left the module. -/
theorem eventAt_frame (cls source depth : Nat) (detail : W64) (ct : Nat) (s : State) :
    ∃ t r l c m o, eventAt cls source depth detail ct s =
      { s with cmt := t, evr := r, mtr := { s.mtr with events := l }, hif := { s.hif with cause := c, msix := m }, out := o } := by
  unfold eventAt
  obtain ⟨t, ht⟩ := traceGen_frame 5 0 source (fields [(2, cls), (1, depth), (1, 0), (8, detail.toNat)]) ct s
  dsimp only
  rw [ht]
  split
  · obtain ⟨r, l, hh⟩ := handOver_frame (evItem cls source depth detail ct (traceSeqNow s 5) s) { s with cmt := t }
    rw [hh]
    obtain ⟨c, m, o, h⟩ := raise_frame (classVector cls) { s with cmt := t, evr := r, mtr := { s.mtr with events := l } }
    rw [h]
    exact ⟨t, r, l, c, m, o, rfl⟩
  · obtain ⟨c, m, o, h⟩ := raise_frame (classVector cls) { s with cmt := t }
    rw [h]
    exact ⟨t, _, _, c, m, o, rfl⟩

/-- An event without a source does the same. -/
theorem event_frame (cls : Nat) (detail : W64) (s : State) :
    ∃ t r l c m o, event cls detail s =
      { s with cmt := t, evr := r, mtr := { s.mtr with events := l }, hif := { s.hif with cause := c, msix := m }, out := o } :=
  eventAt_frame ..

/-! ## Descriptors -/

theorem serve_none {q : RingId} {op : Nat} {s : State} {f : Outst → State → State × Work} (h : readyDesc q op s = none) :
    serve q op s f = s := by
  simp [serve, h]

theorem serve_finish {q : RingId} {op : Nat} {s t : State} {f : Outst → State → State × Work} {e : Outst} {d : Done}
    (h : readyDesc q op s = some e) (ha : withoutAuthority s e = false) (hf : f e s = (t, .finish d)) :
    serve q op s f = endDesc q e.num d t := by
  simp [serve, h, ha, hf]

theorem serve_notActive {q : RingId} {op : Nat} {s : State} {f : Outst → State → State × Work} {e : Outst}
    (h : readyDesc q op s = some e) (ha : withoutAuthority s e = true) : serve q op s f = endDesc q e.num (doneWith stNotActive 0) s := by
  simp [serve, h, ha]

theorem serve_wait {q : RingId} {op : Nat} {s t : State} {f : Outst → State → State × Work} {e : Outst} {b : Option Nat}
    (h : readyDesc q op s = some e) (ha : withoutAuthority s e = false) (hf : f e s = (t, .wait b)) :
    serve q op s f = waitDesc q e.num b t := by
  simp [serve, h, ha, hf]

end Sys2Proof.Machine
end

