-- ==== Sys2Proof/Laws/Commands.lean ====
section
/-! SUPPORT. What a served descriptor answers: with the work of its opcode done or waiting, the command's next state. -/

namespace Sys2Proof.Machine

/-- An outcome is a next state in one way. -/
theorem next_inj {a b : State} (h : (Host.Outcome.next a : Host.Outcome State Fault Refusal) = .next b) : b = a := by
  injection h with h
  exact h.symm

theorem next_serve_none {q : RingId} {op : Nat} {s : State} {f : Outst → State → State × Work} (h : readyDesc q op s = none) :
    (Host.Outcome.next (serve q op s f) : Host.Outcome State Fault Refusal) = .next s := congrArg _ (serve_none h)

theorem next_serve_finish {q : RingId} {op : Nat} {s t : State} {f : Outst → State → State × Work} {e : Outst} {d : Done}
    (h : readyDesc q op s = some e) (ha : withoutAuthority s e = false) (hf : f e s = (t, .finish d)) :
    (Host.Outcome.next (serve q op s f) : Host.Outcome State Fault Refusal) = .next (endDesc q e.num d t) :=
  congrArg _ (serve_finish h ha hf)

theorem next_serve_wait {q : RingId} {op : Nat} {s t : State} {f : Outst → State → State × Work} {e : Outst} {b : Option Nat}
    (h : readyDesc q op s = some e) (ha : withoutAuthority s e = false) (hf : f e s = (t, .wait b)) :
    (Host.Outcome.next (serve q op s f) : Host.Outcome State Fault Refusal) = .next (waitDesc q e.num b t) :=
  congrArg _ (serve_wait h ha hf)

/-- With no partner to mirror to, a mirrored opcode is served like any other. -/
theorem serveMirrored_alone {q : RingId} {op : Nat} {s : State} {f : Outst → State → State × Work} {dma : List Byte}
    {item : Outst → State → MirrorItem} (m : mirrors s = false) : serveMirrored q op dma item f s = serve q op s f := by
  simp [serveMirrored, m]

theorem next_mirrored_finish {q : RingId} {op : Nat} {s t : State} {f : Outst → State → State × Work} {e : Outst} {d : Done}
    {dma : List Byte} {item : Outst → State → MirrorItem} (m : mirrors s = false) (h : readyDesc q op s = some e)
    (ha : withoutAuthority s e = false) (hf : f e s = (t, .finish d)) :
    (Host.Outcome.next (serveMirrored q op dma item f s) : Host.Outcome State Fault Refusal) = .next (endDesc q e.num d t) := by
  rw [serveMirrored_alone m]
  exact next_serve_finish h ha hf

theorem next_mirrored_wait {q : RingId} {op : Nat} {s t : State} {f : Outst → State → State × Work} {e : Outst} {b : Option Nat}
    {dma : List Byte} {item : Outst → State → MirrorItem} (m : mirrors s = false) (h : readyDesc q op s = some e)
    (ha : withoutAuthority s e = false) (hf : f e s = (t, .wait b)) :
    (Host.Outcome.next (serveMirrored q op dma item f s) : Host.Outcome State Fault Refusal) = .next (waitDesc q e.num b t) := by
  rw [serveMirrored_alone m]
  exact next_serve_wait h ha hf

end Sys2Proof.Machine
end

