-- ==== Sys2Proof/Laws/Engine.lean ====
section
/-! SUPPORT. What one move of a function unit does at a bundle boundary, said once for every unit row. -/

namespace Sys2Proof.Machine

/-- An update of a lane depends only on what it makes of that lane. -/
theorem modLane_congr {l : LaneId} {f g : Lane → Lane} {s : State} (h : f (s.lanes.get l) = g (s.lanes.get l)) : modLane l f s = modLane l g s := by
  simp only [modLane, State.modLanes, vmod_congr h]

/-- A lane update leaves the other lanes and the rest of the state. -/
theorem modLane_onlyLane (l : LaneId) (f : Lane → Lane) (s : State) : onlyLane l s (modLane l f s) :=
  ⟨rfl, fun _ hm => vmod_get_other _ _ (Ne.symm hm)⟩

/-- Two changes of one lane are a change of that lane. -/
theorem onlyLane_trans {l : LaneId} {s t u : State} (h : onlyLane l s t) (k : onlyLane l t u) : onlyLane l s u := by
  refine ⟨?_, fun m hm => (k.2 m hm).trans (h.2 m hm)⟩
  have := congrArg (fun x : State => x.modLanes (fun _ => s.lanes)) k.1
  exact this.trans h.1

/-- What a lane update makes of its lane. -/
@[simp] theorem lane_modLane (l : LaneId) (f : Lane → Lane) (s : State) : (modLane l f s).lanes.get l = f (s.lanes.get l) := vmod_get_same _ _ _

@[simp] theorem lane_modCtx (l : LaneId) (n : Nat) (f : Ctx → Ctx) (s : State) :
    ((modCtx l n f s).lanes.get l).mem = (s.lanes.get l).mem ∧ ((modCtx l n f s).lanes.get l).buffer = (s.lanes.get l).buffer ∧
      ((modCtx l n f s).lanes.get l).run = (s.lanes.get l).run ∧ ((modCtx l n f s).lanes.get l).state = (s.lanes.get l).state := by
  unfold modCtx
  rw [lane_modLane]
  split <;> simp

/-- What a context update makes of its context. -/
theorem ctx_modCtx {n : Nat} (hn : n < 256) (l : LaneId) (f : Ctx → Ctx) (s : State) : ctxOf (modCtx l n f s) l n = f (ctxOf s l n) := by
  have e : fin? 256 n = some (finOr n : Fin 256) := by simp [fin?, finOr, hn]
  simp only [ctxOf, modCtx, lane_modLane, e, vmod_get_same]

@[simp] theorem Lane.marked_state (ls : List Nat) (x : Lane) : (x.marked ls).state = x.state := by unfold Lane.marked; split <;> rfl
@[simp] theorem Lane.marked_mem (ls : List Nat) (x : Lane) : (x.marked ls).mem = x.mem := by unfold Lane.marked; split <;> rfl
@[simp] theorem Lane.marked_buffer (ls : List Nat) (x : Lane) : (x.marked ls).buffer = x.buffer := by unfold Lane.marked; split <;> rfl
@[simp] theorem Lane.marked_ctx (ls : List Nat) (x : Lane) : (x.marked ls).ctx = x.ctx := by unfold Lane.marked; split <;> rfl
@[simp] theorem Lane.marked_run (ls : List Nat) (x : Lane) : (x.marked ls).run = x.run := by unfold Lane.marked; split <;> rfl

@[simp] theorem Lane.marked_nil : Lane.marked [] = id := by
  funext x
  simp [Lane.marked]

@[simp] theorem Pair.marked_nil (p : Pair) : p.marked [] = p := by
  simp [Pair.marked]

theorem Lane.marked_append (v w : List Nat) (x : Lane) : (x.marked v).marked w = x.marked (v ++ w) := by
  by_cases h : x.state == .resync <;> simp [Lane.marked, h]

theorem Pair.marked_append (v w : List Nat) (p : Pair) : (p.marked v).marked w = p.marked (v ++ w) := by
  by_cases h : p.joinStep = 0 <;> simp [Pair.marked, h]

theorem lanesIn_markLines (l : LaneId) (w : List Nat) (s : State) : lanesIn (markLines l w s) = lanesIn s := by
  unfold markLines
  split
  · unfold lanesIn
    apply List.filter_congr
    intro m _
    simp only [State.modLanes, State.modPair, Vector.get_eq_getElem, Vector.getElem_map, Lane.marked_state]
  · rfl

theorem sourceLane_markLines (l : LaneId) (w : List Nat) (s : State) : sourceLane (markLines l w s) = sourceLane s := by
  unfold sourceLane
  rw [lanesIn_markLines]

/-- Lines marked in two writes are those marked in one. -/
theorem markLines_append (l : LaneId) (v w : List Nat) (s : State) : markLines l w (markLines l v s) = markLines l (v ++ w) s := by
  by_cases h : sourceLane s = some l
  · have h' : sourceLane (markLines l v s) = some l := (sourceLane_markLines l v s).trans h
    rw [markLines, if_pos h', markLines, if_pos h, markLines, if_pos h]
    simp only [State.modLanes, State.modPair, Vector.map_map, Pair.marked_append]
    have : Lane.marked w ∘ Lane.marked v = Lane.marked (v ++ w) := funext fun x => Lane.marked_append v w x
    rw [this]
  · have h' : ¬ sourceLane (markLines l v s) = some l := fun k => h ((sourceLane_markLines l v s).symm.trans k)
    rw [markLines, if_neg h', markLines, if_neg h, markLines, if_neg h]

@[simp] theorem markLines_nil (l : LaneId) (s : State) : markLines l [] s = s := by
  unfold markLines
  split
  · simp only [State.modLanes, State.modPair, Lane.marked_nil, Pair.marked_nil, Vector.map_id]
  · rfl

/-- Marking lines leaves what a lane holds, but for its own marks. -/
theorem lane_markLines (l m : LaneId) (w : List Nat) (s : State) :
    ∃ d, (markLines l w s).lanes.get m = { s.lanes.get m with dirty := d } := by
  unfold markLines
  split
  · simp only [State.modLanes, State.modPair, Vector.get_eq_getElem, Vector.getElem_map, Lane.marked]
    split
    · exact ⟨_, rfl⟩
    · exact ⟨_, rfl⟩
  · exact ⟨_, rfl⟩

/-- The marks of a write are the same after a change of the lane that leaves its state. -/
theorem markLines_onlyLane {l : LaneId} {s t : State} (w : List Nat) (h : onlyLane l s t) (hs : (t.lanes.get l).state = (s.lanes.get l).state) :
    onlyLane l (markLines l w s) (markLines l w t) := by
  have hl : lanesIn t = lanesIn s := by
    unfold lanesIn
    apply List.filter_congr
    intro m _
    by_cases hm : m = l
    · rw [hm, hs]
    · rw [h.2 m hm]
  have hsrc : sourceLane t = sourceLane s := by unfold sourceLane; rw [hl]
  have hp : t = s.modLanes fun _ => t.lanes := by
    have := congrArg (fun x : State => x.modLanes fun _ => t.lanes) h.1
    exact this
  unfold markLines
  rw [hsrc]
  split
  · refine ⟨?_, ?_⟩
    · rw [hp]
      rfl
    · intro m hm
      have := h.2 m hm
      simp only [Vector.get_eq_getElem] at this
      simp only [State.modLanes, State.modPair, Vector.get_eq_getElem, Vector.getElem_map, this]
  · exact h

@[simp] theorem ctxOf_markLines (l m : LaneId) (w : List Nat) (t : Nat) (s : State) : ctxOf (markLines l w s) m t = ctxOf s m t := by
  obtain ⟨d, h⟩ := lane_markLines l m w s
  unfold ctxOf
  rw [h]

/-- The error phase of the owner's context in the working copy. -/
def Eng.keeps (g : Eng) (s : State) (l : LaneId) (r : Release) : Prop :=
  g.index = (ctxOf s l r.task).index ∧ g.effects = (ctxOf s l r.task).effects ∧ g.digest = (ctxOf s l r.task).digest ∧
    g.ctx.index = (engineCtx s l r).index ∧ g.ctx.effects = (engineCtx s l r).effects ∧ g.ctx.digest = (engineCtx s l r).digest ∧
    g.ctx.inErr = (engineCtx s l r).inErr ∧ g.recs = [] ∧ g.dmg = []

/-- Putting a working copy back that emitted nothing is the move of its context and scratchpad. -/
theorem commit_moved {l : LaneId} {r : Release} {s : State} {g : Eng} (h1 : (runningEntry s l r).task < 256) (h2 : r.task < 256)
    (hk : g.keeps s l r) : moved s (commitEng l r g s) l r g.ctx g.mem g.wrote ∧
      (commitEng l r g s).tsk.rels = s.tsk.rels ∧ ((commitEng l r g s).lanes.get l).run = (s.lanes.get l).run ∧
      (ctxOf (commitEng l r g s) l r.task).inErr = (ctxOf s l r.task).inErr := by
  have e1 : ∀ t, t < 256 → fin? 256 t = some (finOr t : Fin 256) := by intro t ht; simp [fin?, finOr, ht]
  obtain ⟨hi, he, hd, ha, hb, hc, hf, hr, hm⟩ := hk
  unfold commitEng
  simp only [hr, hm, List.foldl_nil, List.append_nil]
  generalize hX : modLane l (fun x => { x with mem := g.mem, buffer := x.buffer })
    (modCtx l r.task (fun c => { c with index := g.index, effects := g.effects, digest := g.digest }) (modCtx l (runningEntry s l r).task (fun _ => g.ctx) s)) = X
  have hl : X.lanes.get l = { s.lanes.get l with
      ctx := vmod (vmod (s.lanes.get l).ctx (finOr (runningEntry s l r).task) fun _ => g.ctx) (finOr r.task) fun c => { c with index := g.index, effects := g.effects, digest := g.digest },
      mem := g.mem } := by
    rw [← hX]
    simp only [lane_modLane, modCtx, e1 _ h1, e1 _ h2]
  have ho : onlyLane l s X := by
    rw [← hX]
    exact onlyLane_trans (modLane_onlyLane _ _ _) (onlyLane_trans (modLane_onlyLane _ _ _) (modLane_onlyLane _ _ _))
  have hrels : X.tsk.rels = s.tsk.rels := by rw [← hX]; rfl
  have hcur : ctxOf X l (runningEntry s l r).task = g.ctx := by
    unfold ctxOf
    rw [hl]
    by_cases hq : (finOr r.task : Fin 256) = finOr (runningEntry s l r).task
    · have hs : ctxOf s l r.task = engineCtx s l r := by unfold engineCtx ctxOf; rw [hq]
      dsimp only
      rw [hq, vmod_get_same, vmod_get_same, hi, he, hd, hs, ← ha, ← hb, ← hc]
    · dsimp only
      rw [vmod_get_other _ _ hq, vmod_get_same]
  have hown : (ctxOf X l r.task).inErr = (ctxOf s l r.task).inErr := by
    unfold ctxOf
    rw [hl]
    dsimp only
    rw [vmod_get_same]
    by_cases hq : (finOr (runningEntry s l r).task : Fin 256) = finOr r.task
    · dsimp only
      rw [← hq, vmod_get_same, hf]
      unfold engineCtx ctxOf
      rfl
    · dsimp only
      rw [vmod_get_other _ _ hq]
  obtain ⟨d, hmk⟩ := lane_markLines l l g.wrote X
  refine ⟨⟨?_, ?_, ?_, ?_, ?_⟩, ?_, ?_, ?_⟩
  · rw [ctxOf_markLines, hcur]
  · rw [hmk, hl]
  · rw [hmk, hl]
  · rw [hmk, hl]
  · exact markLines_onlyLane _ ho (by rw [hl])
  · rw [← hrels]
    unfold markLines
    split <;> rfl
  · rw [hmk, hl]
  · rw [ctxOf_markLines, hown]

/-- The release that holds an engine is still that one where the releases and the engines are as before. -/
theorem running_congr {s t : State} {l : LaneId} {e : Fin 4} (hr : t.tsk.rels = s.tsk.rels) (hl : (t.lanes.get l).run = (s.lanes.get l).run) :
    running t l e = running s l e := by
  unfold running readyRel
  rw [hr, hl]

theorem runningEntry_congr {s t : State} {l : LaneId} {r : Release} (h : (ctxOf t l r.task).inErr = (ctxOf s l r.task).inErr) :
    runningEntry t l r = runningEntry s l r := by
  unfold runningEntry
  rw [h]

/-- The choice of an engine changes only what its lane runs, after the write-backs of a context that it takes the engine from. -/
theorem schedule_cases (l : LaneId) (e : Fin 4) (s : State) :
    (∃ v : Vector (Option Nat) 4 → Vector (Option Nat) 4, schedule l e s = modLane l (fun x => { x with run := v x.run }) s) ∨
      ∃ (v : Vector (Option Nat) 4 → Vector (Option Nat) 4) (r : Release), running s l e = some r ∧ schedule l e s = modLane l (fun x => { x with run := v x.run }) (timersDone l (runningEntry s l r).task s) := by
  unfold schedule
  split
  · exact .inl ⟨fun v => vmod v e fun _ => none, rfl⟩
  · split
    · split
      · refine .inl ⟨id, ?_⟩
        have h : vmod s.lanes l (fun x => { x with run := id x.run }) = s.lanes := by
          apply Vector.ext
          intro i hi
          by_cases hc : l = ⟨i, hi⟩
          · subst hc
            exact Vector.getElem_set_self ..
          · exact Vector.getElem_set_ne _ _ fun k => hc (Fin.ext k)
        simp only [modLane, State.modLanes, h]
      · exact .inr ⟨fun v => vmod v e fun _ => some _, _, ‹_›, rfl⟩
    · exact .inl ⟨fun v => vmod v e fun _ => some _, rfl⟩

/-- A change of what a lane runs is no part of a move. -/
theorem moved_run {s t : State} {l r c m w} (v : Vector (Option Nat) 4 → Vector (Option Nat) 4) (h : moved s t l r c m w) :
    moved s (modLane l (fun x => { x with run := v x.run }) t) l r c m w := by
  obtain ⟨a, b, d, e, o⟩ := h
  refine ⟨?_, ?_, ?_, ?_, onlyLane_trans o (modLane_onlyLane _ _ _)⟩
  · simpa [ctxOf] using a
  · simpa using b
  · simpa using d
  · simpa using e

/-- A write into the data partition after a move. -/
theorem moved_laneWrite {s t : State} {l r c m w} (off : Nat) (bs : List Byte) (h : moved s t l r c m w) :
    moved s (laneWrite l off bs t) l r c (dataWrite m off bs) (w ++ linesOf off bs.length) := by
  obtain ⟨a, b, d, e, o⟩ := h
  unfold laneWrite
  generalize hX : modLane l (fun x => { x with mem := dataWrite x.mem off bs }) t = X
  have hl : X.lanes.get l = { t.lanes.get l with mem := dataWrite m off bs } := by rw [← hX, lane_modLane, b]
  obtain ⟨k, hk⟩ := lane_markLines l l (linesOf off bs.length) X
  obtain ⟨k', hk'⟩ := lane_markLines l l w s
  refine ⟨?_, ?_, ?_, ?_, ?_⟩
  · rw [ctxOf_markLines, ← a]
    unfold ctxOf
    rw [hl]
  · rw [hk, hl]
  · rw [hk, hl, ← d]
  · rw [hk, hl, ← e]
  · rw [← markLines_append]
    refine markLines_onlyLane _ (onlyLane_trans o (hX ▸ modLane_onlyLane _ _ _)) ?_
    rw [hl, hk', ← e]

/-- The write-backs of a context after a move: they are made, and their lines marked. -/
theorem moved_timersDone {s t : State} {l r c m w} (hn : (runningEntry s l r).task < 256) (h : moved s t l r c m w) :
    moved s (timersDone l (runningEntry s l r).task t) l r { c with timerWb := [] }
      (c.timerWb.foldl (fun m x => dataWrite m x.2.1 x.2.2) m) (w ++ c.timerWb.flatMap fun x => linesOf x.2.1 x.2.2.length) := by
  have hw : (ctxOf t l (runningEntry s l r).task).timerWb = c.timerWb := by rw [h.1]
  unfold timersDone
  rw [hw]
  have h0 : moved s (modCtx l (runningEntry s l r).task (fun c => { c with timerWb := [] }) t) l r { c with timerWb := [] } m w := by
    obtain ⟨a, b, d, e, o⟩ := h
    refine ⟨?_, ?_, ?_, ?_, onlyLane_trans o (modLane_onlyLane _ _ _)⟩
    · rw [ctx_modCtx hn, a]
    · rw [(lane_modCtx ..).1, b]
    · rw [(lane_modCtx ..).2.1, d]
    · rw [(lane_modCtx ..).2.2.2, e]
  generalize hc : ({ c with timerWb := [] } : Ctx) = c' at h0 ⊢
  clear hc hw h
  generalize modCtx l (runningEntry s l r).task (fun c => { c with timerWb := [] }) t = u at h0
  induction c.timerWb generalizing m w u with
  | nil => simpa using h0
  | cons x xs ih =>
    have := ih _ (moved_laneWrite x.2.1 x.2.2 h0)
    simpa [List.append_assoc] using this

/-- The choice of an engine after a move leaves it that move, or adds the write-backs of the context (R119, R136). -/
theorem moved_schedule {s t : State} {l r c m w e} (hn : (runningEntry s l r).task < 256) (h : moved s t l r c m w)
    (hr : running t l e = some r) (he : runningEntry t l r = runningEntry s l r) :
    moved s (schedule l e t) l r c m w ∨ moved s (schedule l e t) l r { c with timerWb := [] }
      (c.timerWb.foldl (fun m x => dataWrite m x.2.1 x.2.2) m) (w ++ c.timerWb.flatMap fun x => linesOf x.2.1 x.2.2.length) := by
  rcases schedule_cases l e t with ⟨v, hv⟩ | ⟨v, r', hr', hv⟩
  · rw [hv]
    exact .inl (moved_run v h)
  · rw [hv]
    have : r' = r := by
      rw [hr] at hr'
      exact (Option.some.inj hr').symm
    subst this
    rw [he]
    exact .inr (moved_run v (moved_timersDone hn h))

/-- The working copy as the trigger of a unit row finds it. -/
def Eng.begun (g : Eng) (p : Nat) : Eng := { g with ctx := { g.ctx with started := [unitOf p], resv := dataPorts g.ctx.cyc p } }

/-- A unit row at a bundle boundary: its trigger, and what follows from it. -/
theorem unit_ok {p b l en s r} (h : atBoundary s l en r) (hp : isTrigger p = true) (hu : unitOf p ≠ 8 ∨ (engineCtx s l r).delay = none)
    (hx : portsExceeded (dataPorts (engineCtx s l r).cyc p) (engineCtx s l r).cyc = false ∧
      portsExceeded (dataPorts (engineCtx s l r).cyc p) ((engineCtx s l r).cyc + 1) = false) :
    issueUnit p l en b none s = afterIssue l r (engineCtx s l r).stopIndex
      (match trigger (envOf s l r) p b ((engOf s l r).begun p) with
       | .error f => (some f, engOf s l r)
       | .ok g => match (endCycle g).ctx.blk with
          | some _ => blkRun (envOf s l r).forced ((runningEntry s l r).budget - (engineCtx s l r).usedCycles - 1) (endCycle g)
          | none => (none, endCycle g)) s := by
  obtain ⟨h1, h2, h3, h4, h5, h6, h7, h8, h9, h10, h11⟩ := h
  have hg : (engOf s l r).ctx = engineCtx s l r := rfl
  have hb : (engineCtx s l r).blk.isSome = false := by rw [h5]; rfl
  have hgd : ∀ c : Ctx, guardOn c 0 = true := fun _ => rfl
  have hd : ((engineCtx s l r).delay.isSome && [unitOf p].contains 8) = false := by
    rcases hu with hu | hu
    · simp [Ne.symm hu]
    · simp [hu]
  have hi : issueMoves (envOf s l r) [{ guard := 0, src := .imm b, dst := p }] (engOf s l r) = trigger (envOf s l r) p b ((engOf s l r).begun p) := by
    unfold issueMoves
    simp only [List.filter_cons, hgd, if_true, List.filter_nil, List.map_cons, List.map_nil, hp, moveValue, hg, h6, h7, List.nil_append,
      List.flatMap_cons, List.flatMap_nil, List.append_nil, hasRepeat, hx.1, hx.2, Bool.or_self, List.contains_nil, Bool.not_true,
      Bool.false_eq_true, if_false, List.foldl_nil, hd, runTriggers]
    show (match trigger (envOf s l r) p b ((engOf s l r).begun p) with
      | .error f => Except.error f
      | .ok g => .ok g) = _
    split <;> simp_all
  simp only [issueUnit, atEngine, h1]
  rw [if_neg (by rw [hg]; simpa [envOf] using h4)]
  simp only [hg, hb, Bool.false_eq_true, if_false, Option.getD_none, min_self, issueMove, hi]
  congr 1

/-- A unit row whose trigger ends without fault, block operation or record is the move of the context and scratchpad it gives; where
another release then takes the engine, the write-backs of the context are made at once. -/
theorem unit_moved {p b l en s r g} (h : atBoundary s l en r) (hp : isTrigger p = true) (hu : unitOf p ≠ 8 ∨ (engineCtx s l r).delay = none)
    (hx : portsExceeded (dataPorts (engineCtx s l r).cyc p) (engineCtx s l r).cyc = false ∧
      portsExceeded (dataPorts (engineCtx s l r).cyc p) ((engineCtx s l r).cyc + 1) = false)
    (ht : trigger (envOf s l r) p b ((engOf s l r).begun p) = .ok g) (hb : (endCycle g).ctx.blk = none)
    (hen : (endCycle g).ctx.ending = false) (hk : (endCycle g).keeps s l r) :
    ∃ t, (Host.Outcome.next (issueUnit p l en b none s) : Host.Outcome State Fault Refusal) = .next t ∧
      (moved s t l r (endCycle g).ctx (endCycle g).mem (endCycle g).wrote ∨
        moved s t l r { (endCycle g).ctx with timerWb := [] }
          ((endCycle g).ctx.timerWb.foldl (fun m x => dataWrite m x.2.1 x.2.2) (endCycle g).mem)
          ((endCycle g).wrote ++ (endCycle g).ctx.timerWb.flatMap fun x => linesOf x.2.1 x.2.2.length)) := by
  refine ⟨_, rfl, ?_⟩
  rw [unit_ok h hp hu hx, ht]
  have ha : ∀ k, afterIssue l r k (none, endCycle g) s = schedule l r.entry.engine (commitEng l r (endCycle g) s) := by
    intro k
    simp [afterIssue, hen]
  simp only
  split
  · rename_i hs
    exact absurd (hb.symm.trans hs) (by simp)
  rw [ha]
  obtain ⟨hm, hr, hl, he⟩ := commit_moved h.2.1 h.2.2.1 hk
  have hrun : running (commitEng l r (endCycle g) s) l en = some r := (running_congr hr hl).trans h.1
  have hen' : r.entry.engine = en := h.2.2.2.2.2.2.2.2.2.2
  exact moved_schedule h.2.1 hm (hen' ▸ hrun) (runningEntry_congr he)

/-- One reserved read is never too many. -/
theorem portsExceeded_read (n k : Nat) : portsExceeded [(n,1,0)] k = false := by unfold portsExceeded; by_cases h : n = k <;> simp [h]

end Sys2Proof.Machine
end

