-- ==== Sys2Proof/Laws/Fixed.lean ====
section
/-! SUPPORT. No operation of the machine changes the command queue or the identity that production gave the chip: one lemma for
each operation, `<operation>_fixed`. -/

namespace Sys2Proof.Machine

@[simp] theorem State.modClk_fixed (s : State) (f : Clock → Clock) : (s.modClk f).fixed = s.fixed := rfl
@[simp] theorem State.modSys_fixed (s : State) (f : Sys → Sys) : (s.modSys f).fixed = s.fixed := rfl
@[simp] theorem State.modTim_fixed (s : State) (f : Tim → Tim) : (s.modTim f).fixed = s.fixed := rfl
@[simp] theorem State.modCmt_fixed (s : State) (f : Cmt → Cmt) : (s.modCmt f).fixed = s.fixed := rfl
@[simp] theorem State.modHif_fixed (s : State) (f : Hif → Hif) : (s.modHif f).fixed = s.fixed := rfl
@[simp] theorem State.modTxn_fixed (s : State) (f : Txn → Txn) : (s.modTxn f).fixed = s.fixed := rfl
@[simp] theorem State.modEvr_fixed (s : State) (f : Evr → Evr) : (s.modEvr f).fixed = s.fixed := rfl
@[simp] theorem State.modRws_fixed (s : State) (f : Rws → Rws) : (s.modRws f).fixed = s.fixed := rfl
@[simp] theorem State.modRwp_fixed (s : State) (f : Rwp → Rwp) : (s.modRwp f).fixed = s.fixed := rfl
@[simp] theorem State.modOut_fixed (s : State) (f : List Out → List Out) : (s.modOut f).fixed = s.fixed := rfl
@[simp] theorem State.modFree_fixed (s : State) (f : Nat → Nat) : (s.modFree f).fixed = s.fixed := rfl
@[simp] theorem State.modMem_fixed (s : State) (f : Mems → Mems) : (s.modMem f).fixed = s.fixed := rfl
@[simp] theorem State.modPair_fixed (s : State) (f : Pair → Pair) : (s.modPair f).fixed = s.fixed := rfl
@[simp] theorem State.modPart_fixed (s : State) (f : Partitions → Partitions) : (s.modPart f).fixed = s.fixed := rfl
@[simp] theorem State.modPrg_fixed (s : State) (f : Prg → Prg) : (s.modPrg f).fixed = s.fixed := rfl
@[simp] theorem State.modTsk_fixed (s : State) (f : Tsk → Tsk) : (s.modTsk f).fixed = s.fixed := rfl
@[simp] theorem State.modLanes_fixed (s : State) (f : Vector Lane 3 → Vector Lane 3) : (s.modLanes f).fixed = s.fixed := rfl
@[simp] theorem State.modVot_fixed (s : State) (f : Vot → Vot) : (s.modVot f).fixed = s.fixed := rfl
@[simp] theorem State.modTbl_fixed (s : State) (f : Vector Table 16 → Vector Table 16) : (s.modTbl f).fixed = s.fixed := rfl
@[simp] theorem State.modFio_fixed (s : State) (f : Fio → Fio) : (s.modFio f).fixed = s.fixed := rfl
@[simp] theorem State.modNet_fixed (s : State) (f : Net → Net) : (s.modNet f).fixed = s.fixed := rfl
@[simp] theorem State.modPst_fixed (s : State) (f : Pst → Pst) : (s.modPst f).fixed = s.fixed := rfl
@[simp] theorem State.modMtr_fixed (s : State) (f : Mtr → Mtr) : (s.modMtr f).fixed = s.fixed := rfl
@[simp] theorem State.modRtc_fixed (s : State) (f : Rtc → Rtc) : (s.modRtc f).fixed = s.fixed := rfl
@[simp] theorem State.modBar_fixed (s : State) (f : Bar → Bar) : (s.modBar f).fixed = s.fixed := rfl
@[simp] theorem State.modWdg_fixed (s : State) (f : Wdg → Wdg) : (s.modWdg f).fixed = s.fixed := rfl
@[simp] theorem State.modFwu_fixed (s : State) (f : Fwu → Fwu) : (s.modFwu f).fixed = s.fixed := rfl

@[simp] theorem ite_fixed (c : Prop) [Decidable c] (a b : State) : (if c then a else b).fixed = if c then a.fixed else b.fixed := by split <;> rfl

@[simp] theorem foldl_fixed {α : Type} (g : State → α → State) (h : ∀ s x, (g s x).fixed = s.fixed) (l : List α) (s : State) : (l.foldl g s).fixed = s.fixed := by
  induction l generalizing s with
  | nil => rfl
  | cons x l ih => rw [List.foldl_cons, ih, h]

theorem foldl_snd_fixed {α β : Type} (g : β × State → α → β × State) (h : ∀ s x, (g s x).2.fixed = s.2.fixed) (l : List α)
    (s : β × State) : (l.foldl g s).2.fixed = s.2.fixed := by
  induction l generalizing s with
  | nil => rfl
  | cons x l ih => rw [List.foldl_cons, ih, h]

@[simp] theorem freeValue_fixed (s : State) : (freeValue s).2.fixed = s.fixed := by
  unfold freeValue
  simp

@[simp] theorem emit_fixed (o : Out) (s : State) : (emit o s).fixed = s.fixed := by
  unfold emit
  simp

@[simp] theorem sendMsix_fixed (v : Fin 64) (s : State) : (sendMsix v s).fixed = s.fixed := by
  unfold sendMsix
  simp

@[simp] theorem raiseBit_fixed (i : Fin 10) (s : State) : (raiseBit i s).fixed = s.fixed := by
  unfold raiseBit
  repeat' split
  all_goals simp

@[simp] theorem raise_fixed (v : Nat) (s : State) : (raise v s).fixed = s.fixed := by
  unfold raise
  repeat' split
  all_goals simp

@[simp] theorem traceGen_fixed (typ flags source : Nat) (body : List Byte) (ct : Nat) (s : State) : (traceGen typ flags source body ct s).fixed = s.fixed := by
  unfold traceGen
  repeat' split
  all_goals simp

@[simp] theorem handOver_fixed (i : EvItem) (s : State) : (handOver i s).fixed = s.fixed := by
  unfold handOver
  simp

@[simp] theorem eventAt_fixed (cls source depth : Nat) (detail : W64) (ct : Nat) (s : State) : (eventAt cls source depth detail ct s).fixed = s.fixed := by
  unfold eventAt
  repeat' split
  all_goals simp

@[simp] theorem event_fixed (cls : Nat) (detail : W64) (s : State) : (event cls detail s).fixed = s.fixed := by
  unfold event
  simp

@[simp] theorem eventFree_fixed (detail : W64) (s : State) : (eventFree detail s).fixed = s.fixed := by
  unfold eventFree
  simp

@[simp] theorem modRing_fixed (q : RingId) (f : RingPair → RingPair) (s : State) : (modRing q f s).fixed = s.fixed := by
  unfold modRing
  simp

@[simp] theorem recordLate_fixed (q : RingId) (ct : Nat) (x0 : List Outst) (x1 : State) : (recordLate q ct x0 x1).fixed = x1.fixed := by
  fun_induction recordLate with
  | case1 => rfl
  | case2 s e es ih => rw [ih]; split <;> simp

@[simp] theorem countEnds_fixed (q : RingId) (es : List Outst) (s : State) : (countEnds q es s).fixed = s.fixed := by
  unfold countEnds
  simp

@[simp] theorem settle_fixed (q : RingId) (s : State) : (settle q s).fixed = s.fixed := by
  unfold settle
  simp

@[simp] theorem leaveService_fixed (q : RingId) (num : Nat) (s : State) : (leaveService q num s).fixed = s.fixed := by
  unfold leaveService
  repeat' split
  all_goals simp

@[simp] theorem endDesc_fixed (q : RingId) (num : Nat) (d : Done) (s : State) : (endDesc q num d s).fixed = s.fixed := by
  unfold endDesc
  simp

@[simp] theorem waitDesc_fixed (q : RingId) (num : Nat) (bound : Option Nat) (s : State) : (waitDesc q num bound s).fixed = s.fixed := by
  unfold waitDesc
  simp

theorem serve_fixed (q : RingId) (op : Nat) (s : State) (f : Outst → State → State × Work)
    (hf : ∀ e s, (f e s).1.fixed = s.fixed) : (serve q op s f).fixed = s.fixed := by
  unfold serve
  split
  · rfl
  · split
    · simp
    · split
      all_goals
        rename_i h
        have h1 := (congrArg (fun x => State.fixed (Prod.fst x)) h).symm.trans (hf ..)
        simp_all

@[simp] theorem bufWrite_fixed (d : Desc) (off : Nat) (bytes : List Byte) (s : State) : (bufWrite d off bytes s).fixed = s.fixed := by
  unfold bufWrite
  repeat' split
  all_goals simp

@[simp] theorem rwpSet_fixed (f : Rwp → Rwp) (s : State) : (rwpSet f s).fixed = s.fixed := by
  unfold rwpSet
  simp

@[simp] theorem modPoint_fixed (i : Fin 8) (f : MeterPoint → MeterPoint) (s : State) : (modPoint i f s).fixed = s.fixed := by
  unfold modPoint
  simp

@[simp] theorem freePairs_fixed (x0 : Nat) (x1 : State) : (freePairs x0 x1).2.fixed = x1.fixed := by
  fun_induction freePairs <;> simp_all +zetaDelta

@[simp] theorem endWindow_fixed (i : Fin 8) (k : Nat) (w : HarmWin) (s : State) : (endWindow i k w s).fixed = s.fixed := by
  unfold endWindow
  simp

@[simp] theorem takeCrossing_fixed (i : Fin 8) (k : Nat) (s : State) : (takeCrossing i k s).fixed = s.fixed := by
  unfold takeCrossing
  dsimp only
  repeat' split
  all_goals simp

@[simp] theorem samplePoint_fixed (i : Fin 8) (k : Nat) (xv xi : Int) (s : State) : (samplePoint i k xv xi s).fixed = s.fixed := by
  unfold samplePoint
  simp

@[simp] theorem saturate_fixed (i : Fin 8) (which : Nat) (hit : Bool) (s : State) : (saturate i which hit s).fixed = s.fixed := by
  unfold saturate
  repeat' split
  all_goals simp

@[simp] theorem addEnergy_fixed (i : Fin 8) (e : Int) (s : State) : (addEnergy i e s).fixed = s.fixed := by
  unfold addEnergy
  repeat' split
  all_goals simp

@[simp] theorem closeEnergy_fixed (i : Fin 8) (s : State) : (closeEnergy i s).fixed = s.fixed := by
  unfold closeEnergy
  simp

@[simp] theorem publish_fixed (i : Fin 8) (ct : Nat) (s : State) : (publish i ct s).fixed = s.fixed := by
  unfold publish
  simp

@[simp] theorem applyPreset_fixed (i : Fin 8) (x : MtrPreset) (s : State) : (applyPreset i x s).fixed = s.fixed := by
  unfold applyPreset
  simp

@[simp] theorem takePresets_fixed (i : Fin 8) (s : State) : (takePresets i s).fixed = s.fixed := by
  unfold takePresets
  simp

@[simp] theorem takeSettings_fixed (i : Fin 8) (s : State) : (takeSettings i s).fixed = s.fixed := by
  unfold takeSettings
  simp

@[simp] theorem closePoint_fixed (ct : Nat) (i : Fin 8) (s : State) : (closePoint ct i s).fixed = s.fixed := by
  unfold closePoint
  simp

@[simp] theorem deliverMeter_fixed (ct : Nat) (s : State) : (deliverMeter ct s).fixed = s.fixed := by
  unfold deliverMeter
  simp

@[simp] theorem meterTick_fixed (s : State) : (meterTick s).fixed = s.fixed := by
  unfold meterTick
  simp

@[simp] theorem stepMeter_fixed (target : Nat) (s : State) : (stepMeter target s).fixed = s.fixed := by
  unfold stepMeter
  repeat' split
  all_goals simp

@[simp] theorem endPq_fixed (i : Fin 8) (kind ct : Nat) (cut : Bool) (e : PqEvent) (s : State) : (endPq i kind ct cut e s).fixed = s.fixed := by
  unfold endPq
  repeat' split
  all_goals simp

@[simp] theorem cutShort_fixed (i : Fin 8) (s : State) : (cutShort i s).fixed = s.fixed := by
  unfold cutShort
  simp
  repeat' split
  all_goals simp

@[simp] theorem pqJudge_fixed (i : Fin 8) (u : Int) (ct : Nat) (s : State) (kind : Nat) : (pqJudge i u ct s kind).fixed = s.fixed := by
  unfold pqJudge
  dsimp only
  repeat' split
  all_goals simp

@[simp] theorem pairSendFor_fixed (desc : Option (RingId × Nat)) (data : List Byte) (m : NarrowsMsg) (s : State) : (pairSendFor desc data m s).fixed = s.fixed := by
  unfold pairSendFor
  repeat' split
  all_goals simp

@[simp] theorem pairSend_fixed (m : NarrowsMsg) (s : State) : (pairSend m s).fixed = s.fixed := by
  unfold pairSend
  simp

@[simp] theorem mirror_fixed (i : MirrorItem) (s : State) : (mirror i s).fixed = s.fixed := by
  unfold mirror
  repeat' split
  all_goals simp

@[simp] theorem mirrorDesc_fixed (q : RingId) (e : Outst) (data : List Byte) (item : MirrorItem) (s : State) : (mirrorDesc q e data item s).fixed = s.fixed := by
  unfold mirrorDesc
  simp

theorem serveMirrored_fixed (q : RingId) (op : Nat) (dma : List Byte) (item : Outst → State → MirrorItem)
    (f : Outst → State → State × Work) (s : State) (hf : ∀ e s, (f e s).1.fixed = s.fixed) :
    (serveMirrored q op dma item f s).fixed = s.fixed := by
  unfold serveMirrored
  split
  · split
    · rfl
    · split
      · exact serve_fixed q op s f hf
      · simp
  · exact serve_fixed q op s f hf

theorem serveThenMirror_fixed (q : RingId) (op : Nat) (item : Outst → State → MirrorItem) (f : Outst → State → State × Done) (s : State)
    (hf : ∀ e s, (f e s).1.fixed = s.fixed) : (serveThenMirror q op item f s).fixed = s.fixed := by
  unfold serveThenMirror
  split
  · rfl
  · dsimp only
    split
    · simp [hf]
    · exact serve_fixed q op s _ hf

@[simp] theorem modStrait_fixed (r : StraitId) (f : Ring → Ring) (s : State) : (modStrait r f s).fixed = s.fixed := by
  unfold modStrait
  simp

@[simp] theorem modLane_fixed (l : LaneId) (f : Lane → Lane) (s : State) : (modLane l f s).fixed = s.fixed := by
  unfold modLane
  simp

@[simp] theorem correctedIn_fixed (l : LaneId) (n : Nat) (s : State) : (correctedIn l n s).fixed = s.fixed := by
  unfold correctedIn
  simp

@[simp] theorem countCorrected_fixed (o : SramOwner) (s : State) : (countCorrected o s).fixed = s.fixed := by
  unfold countCorrected
  repeat' split
  all_goals simp

@[simp] theorem markLines_fixed (l : LaneId) (ls : List Nat) (s : State) : (markLines l ls s).fixed = s.fixed := by
  unfold markLines
  simp

@[simp] theorem modRun_fixed (t : Nat) (f : TaskRun → TaskRun) (s : State) : (modRun t f s).fixed = s.fixed := by
  unfold modRun
  repeat' split
  all_goals simp

@[simp] theorem modChan_fixed (n : ChanId) (f : Chan → Chan) (s : State) : (modChan n f s).fixed = s.fixed := by
  unfold modChan
  simp

@[simp] theorem reportPoints_fixed (points : List Nat) (s : State) : (reportPoints points s).fixed = s.fixed := by
  unfold reportPoints
  simp

@[simp] theorem setDiag_fixed (n : ChanId) (bits : Byte) (s : State) : (setDiag n bits s).fixed = s.fixed := by
  unfold setDiag
  simp

@[simp] theorem clearDiag_fixed (n : ChanId) (bits : Byte) (s : State) : (clearDiag n bits s).fixed = s.fixed := by
  unfold clearDiag
  simp

@[simp] theorem drive_fixed (n : ChanId) (s : State) : (drive n s).fixed = s.fixed := by
  unfold drive
  repeat' split
  all_goals simp

@[simp] theorem command_fixed (n : ChanId) (v : Bool) (s : State) : (command n v s).fixed = s.fixed := by
  unfold command
  repeat' split
  all_goals simp

@[simp] theorem commandSafe_fixed (n : ChanId) (s : State) : (commandSafe n s).fixed = s.fixed := by
  unfold commandSafe
  simp

@[simp] theorem allSafe_fixed (s : State) : (allSafe s).fixed = s.fixed := by
  unfold allSafe
  simp

@[simp] theorem takeState_fixed (n : ChanId) (v : Bool) (stamp took : Nat) (s : State) : (takeState n v stamp took s).fixed = s.fixed := by
  unfold takeState
  simp

@[simp] theorem clearBreakOn_fixed (n : ChanId) (s : State) : (clearBreakOn n s).fixed = s.fixed := by
  unfold clearBreakOn
  repeat' split
  all_goals simp

@[simp] theorem takeRaw_fixed (n : ChanId) (v : Bool) (s : State) : (takeRaw n v s).fixed = s.fixed := by
  unfold takeRaw
  simp

@[simp] theorem debounce_fixed (n : ChanId) (s : State) : (debounce n s).fixed = s.fixed := by
  unfold debounce
  simp

@[simp] theorem takeReadback_fixed (n : ChanId) (v : Bool) (s : State) : (takeReadback n v s).fixed = s.fixed := by
  unfold takeReadback
  repeat' split
  all_goals simp

@[simp] theorem rawEvent_fixed (task stamp : Nat) (trigger : Option (RingId × Nat)) (s : State) : (rawEvent task stamp trigger s).fixed = s.fixed := by
  unfold rawEvent
  simp

@[simp] theorem rollEdges_fixed (s : State) : (rollEdges s).fixed = s.fixed := by
  unfold rollEdges
  repeat' split
  all_goals simp

@[simp] theorem clearLostEdges_fixed (s : State) : (clearLostEdges s).fixed = s.fixed := by
  unfold clearLostEdges
  simp

@[simp] theorem deliverEdge_fixed (e : FieldEdge) (s : State) : (deliverEdge e s).fixed = s.fixed := by
  unfold deliverEdge
  simp

@[simp] theorem loseEdge_fixed (e : FieldEdge) (s : State) : (loseEdge e s).fixed = s.fixed := by
  unfold loseEdge
  simp

@[simp] theorem reportEdge_fixed (e : FieldEdge) (s : State) : (reportEdge e s).fixed = s.fixed := by
  unfold reportEdge
  simp

@[simp] theorem leaveSafe_fixed (s : State) : (leaveSafe s).fixed = s.fixed := by
  unfold leaveSafe
  simp

@[simp] theorem takeRefresh_fixed (mark : Bool) (seq : W16) (s : State) : (takeRefresh mark seq s).fixed = s.fixed := by
  unfold takeRefresh
  repeat' split
  all_goals simp

@[simp] theorem modGroup_fixed (g : Fin 4) (f : FieldGroup → FieldGroup) (s : State) : (modGroup g f s).fixed = s.fixed := by
  unfold modGroup
  simp

@[simp] theorem restoreChan_fixed (n : ChanId) (s : State) : (restoreChan n s).fixed = s.fixed := by
  unfold restoreChan
  simp

@[simp] theorem takeCfg_fixed (n : ChanId) (cfg : ChanCfg) (s : State) : (takeCfg n cfg s).fixed = s.fixed := by
  unfold takeCfg
  repeat' split
  all_goals simp

@[simp] theorem applySetup_fixed (bs : List Byte) (x : Nat) (s : State) : (applySetup bs x s).fixed = s.fixed := by
  unfold applySetup
  simp

@[simp] theorem tick_fixed (s : State) : (tick s).fixed = s.fixed := by
  unfold tick
  repeat' split
  all_goals simp

@[simp] theorem qualityRecord_fixed (old new : Quality) (v : Int) (s : State) : (qualityRecord old new v s).fixed = s.fixed := by
  unfold qualityRecord
  simp

@[simp] theorem setQuality_fixed (q : Quality) (v : Int) (s : State) : (setQuality q v s).fixed = s.fixed := by
  unfold setQuality
  repeat' split
  all_goals simp

@[simp] theorem stepTime_fixed (target : Nat) (s : State) : (stepTime target s).fixed = s.fixed := by
  unfold stepTime
  simp

@[simp] theorem followPort_fixed (p : Option PortId) (s : State) : (followPort p s).fixed = s.fixed := by
  unfold followPort
  repeat' split
  all_goals simp

@[simp] theorem setGrandmaster_fixed (g : Bool) (s : State) : (setGrandmaster g s).fixed = s.fixed := by
  unfold setGrandmaster
  repeat' split
  all_goals simp

@[simp] theorem selectRole_fixed (s : State) : (selectRole s).fixed = s.fixed := by
  unfold selectRole
  repeat' split
  all_goals simp

@[simp] theorem syncQuality_fixed (o : Int) (s : State) : (syncQuality o s).fixed = s.fixed := by
  unfold syncQuality
  repeat' split
  all_goals simp

@[simp] theorem takeSync_fixed (o : Int) (s : State) : (takeSync o s).fixed = s.fixed := by
  unfold takeSync
  repeat' split
  all_goals simp

@[simp] theorem keepAnnounce_fixed (p : PortId) (a : PtpAnnounce) (s : State) : (keepAnnounce p a s).fixed = s.fixed := by
  unfold keepAnnounce
  repeat' split
  all_goals simp

@[simp] theorem mirrorTime_fixed (s : State) : (mirrorTime s).fixed = s.fixed := by
  unfold mirrorTime
  simp

@[simp] theorem takeUtcOffset_fixed (p : PortId) (a : PtpAnnounce) (s : State) : (takeUtcOffset p a s).fixed = s.fixed := by
  unfold takeUtcOffset
  repeat' split
  all_goals simp

@[simp] theorem hostSetTime_fixed (target : Nat) (s : State) : (hostSetTime target s).fixed = s.fixed := by
  unfold hostSetTime
  repeat' split
  all_goals simp

@[simp] theorem writeTimSet_fixed (hi : W32) (s : State) : (writeTimSet hi s).fixed = s.fixed := by
  unfold writeTimSet
  repeat' split
  all_goals simp

@[simp] theorem answerPdelay_fixed (p : PortId) (seq : W16) (s : State) : (answerPdelay p seq s).fixed = s.fixed := by
  unfold answerPdelay
  simp

@[simp] theorem flushPdelay_fixed (r : StraitId) (s : State) : (flushPdelay r s).fixed = s.fixed := by
  unfold flushPdelay
  simp

@[simp] theorem setMode_fixed (m : Nat) (s : State) : (setMode m s).fixed = s.fixed := by
  unfold setMode
  repeat' split
  all_goals simp

@[simp] theorem setPairState_fixed (p : PairState) (s : State) : (setPairState p s).fixed = s.fixed := by
  unfold setPairState
  repeat' split
  all_goals simp

@[simp] theorem stopToggling_fixed (s : State) : (stopToggling s).fixed = s.fixed := by
  unfold stopToggling
  repeat' split
  all_goals simp

@[simp] theorem startToggling_fixed (s : State) : (startToggling s).fixed = s.fixed := by
  unfold startToggling
  repeat' split
  all_goals simp

@[simp] theorem endTriggers_fixed (st : Byte) (s : State) : (endTriggers st s).fixed = s.fixed := by
  unfold endTriggers
  simp

@[simp] theorem dropReleases_fixed (s : State) : (dropReleases s).fixed = s.fixed := by
  unfold dropReleases
  simp

@[simp] theorem endStopper_fixed (s : State) : (endStopper s).fixed = s.fixed := by
  unfold endStopper
  repeat' split
  all_goals simp

@[simp] theorem abortRings_fixed (s : State) : (abortRings s).fixed = s.fixed := by
  unfold abortRings
  simp
  repeat' first | (simp; done) | split | (refine Eq.trans (foldl_fixed _ (fun s x => ?_) _ _) ?_)

@[simp] theorem dropTxn_fixed (status reason : Nat) (s : State) : (dropTxn status reason s).fixed = s.fixed := by
  unfold dropTxn
  repeat' split
  all_goals simp

@[simp] theorem abortTxn_fixed (kind who station : Nat) (s : State) : (abortTxn kind who station s).fixed = s.fixed := by
  unfold abortTxn
  repeat' split
  all_goals simp

@[simp] theorem safeTalkTxn_fixed (s : State) : (safeTalkTxn s).fixed = s.fixed := by
  unfold safeTalkTxn
  repeat' split
  all_goals simp

@[simp] theorem pairSafeTalk_fixed (s : State) : (pairSafeTalk s).fixed = s.fixed := by
  unfold pairSafeTalk
  repeat' split
  all_goals simp

@[simp] theorem markSafeTalk_fixed (cause : Nat) (s : State) : (markSafeTalk cause s).fixed = s.fixed := by
  unfold markSafeTalk
  simp

@[simp] theorem enterSafeTalk_fixed (cause : Nat) (s : State) : (enterSafeTalk cause s).fixed = s.fixed := by
  unfold enterSafeTalk
  repeat' split
  all_goals simp

@[simp] theorem shadowCopy_fixed (task : Nat) (s : State) : (shadowCopy task s).fixed = s.fixed := by
  unfold shadowCopy
  repeat' split
  all_goals simp

@[simp] theorem shadowCopyAll_fixed (s : State) : (shadowCopyAll s).fixed = s.fixed := by
  unfold shadowCopyAll
  repeat' split
  all_goals simp

@[simp] theorem queuePage_fixed (row page : Nat) (body : List Byte) (use_ : PageUse) (s : State) : (queuePage row page body use_ s).fixed = s.fixed := by
  unfold queuePage
  simp

@[simp] theorem saveTimePage_fixed (s : State) : (saveTimePage s).fixed = s.fixed := by
  unfold saveTimePage
  simp

@[simp] theorem closeRecovery_fixed (l : Option LaneId) (s : State) : (closeRecovery l s).fixed = s.fixed := by
  unfold closeRecovery
  simp

@[simp] theorem noteFault_fixed (cls task : Nat) (l : Option LaneId) (s : State) : (noteFault cls task l s).fixed = s.fixed := by
  unfold noteFault
  simp

@[simp] theorem openFault_fixed (cls task : Nat) (l : Option LaneId) (detail : W64) (s : State) : (openFault cls task l detail s).fixed = s.fixed := by
  unfold openFault
  repeat' split
  all_goals simp

@[simp] theorem keepPromises_fixed (s t : State) (h : t.fixed = s.fixed) : (keepPromises s t).fixed = s.fixed := by
  unfold keepPromises
  split
  · simp
  · exact h

@[simp] theorem stopLane_fixed (st : LaneState) (cls : Nat) (l : LaneId) (s : State) : (stopLane st cls l s).fixed = s.fixed := by
  unfold stopLane
  simp

@[simp] theorem releaseUnit_fixed (l : LaneId) (s : State) : (releaseUnit l s).fixed = s.fixed := by
  unfold releaseUnit
  simp

@[simp] theorem awaitVerdict_fixed (l : LaneId) (s : State) : (awaitVerdict l s).fixed = s.fixed := by
  unfold awaitVerdict
  simp

@[simp] theorem restartResync_fixed (step : Nat) (s : State) : (restartResync step s).fixed = s.fixed := by
  unfold restartResync
  simp

@[simp] theorem stopResync_fixed (s : State) : (stopResync s).fixed = s.fixed := by
  unfold stopResync
  repeat' split
  all_goals simp

@[simp] theorem stopLanes_fixed (cls : Nat) (ls : List LaneId) (s : State) : (stopLanes cls ls s).fixed = s.fixed := by
  unfold stopLanes
  simp

@[simp] theorem twoLaneFault_fixed (cls task : Nat) (l : Option LaneId) (detail : W64) (s : State) : (twoLaneFault cls task l detail s).fixed = s.fixed := by
  unfold twoLaneFault
  repeat' split
  all_goals simp

@[simp] theorem excludeLane_fixed (cls task : Nat) (l : LaneId) (detail : W64) (s : State) : (excludeLane cls task l detail s).fixed = s.fixed := by
  unfold excludeLane
  dsimp only
  repeat' split
  all_goals simp

@[simp] theorem outFault_fixed (cls task : Nat) (l : LaneId) (detail : W64) (s : State) : (outFault cls task l detail s).fixed = s.fixed := by
  unfold outFault
  simp

@[simp] theorem laneFault_fixed (cls task : Nat) (l : LaneId) (detail : W64) (s : State) : (laneFault cls task l detail s).fixed = s.fixed := by
  unfold laneFault
  repeat' split
  all_goals simp

@[simp] theorem modRel_fixed (task cycle : Nat) (f : Release → Release) (s : State) : (modRel task cycle f s).fixed = s.fixed := by
  unfold modRel
  simp

@[simp] theorem countRate_fixed (s : State) : (countRate s).fixed = s.fixed := by
  unfold countRate
  simp

@[simp] theorem passEffect_fixed (r : EffRec) (s : State) : (passEffect r s).fixed = s.fixed := by
  unfold passEffect
  repeat' split
  all_goals simp

@[simp] theorem checkIn_fixed (task : Nat) (s : State) : (checkIn task s).fixed = s.fixed := by
  unfold checkIn
  simp

@[simp] theorem countErr_fixed (r : EffRec) (f : TaskRun → TaskRun) (s : State) : (countErr r f s).fixed = s.fixed := by
  unfold countErr
  repeat' split
  all_goals simp

@[simp] theorem passEnd_fixed (r : EffRec) (s : State) : (passEnd r s).fixed = s.fixed := by
  unfold passEnd
  simp

@[simp] theorem passAbort_fixed (r : EffRec) (s : State) : (passAbort r s).fixed = s.fixed := by
  unfold passAbort
  simp

@[simp] theorem passErrorEnd_fixed (r : EffRec) (s : State) : (passErrorEnd r s).fixed = s.fixed := by
  unfold passErrorEnd
  simp

@[simp] theorem passErrorAbort_fixed (r : EffRec) (s : State) : (passErrorAbort r s).fixed = s.fixed := by
  unfold passErrorAbort
  simp

@[simp] theorem passRecord_fixed (r : EffRec) (s : State) : (passRecord r s).fixed = s.fixed := by
  unfold passRecord
  repeat' split
  all_goals simp

@[simp] theorem popHead_fixed (t : Nat) (l : LaneId) (s : State) : (popHead t l s).fixed = s.fixed := by
  unfold popHead
  simp

@[simp] theorem passAgreed_fixed (t : Nat) (r : EffRec) (s : State) : (passAgreed t r s).fixed = s.fixed := by
  unfold passAgreed
  simp

@[simp] theorem minorityFault_fixed (l : LaneId) (r : EffRec) (s : State) : (minorityFault l r s).fixed = s.fixed := by
  unfold minorityFault
  simp

@[simp] theorem noMajority_fixed (r : EffRec) (s : State) : (noMajority r s).fixed = s.fixed := by
  unfold noMajority
  simp

theorem judgeOnce_fixed {t : Nat} {s s' : State} (h : judgeOnce t s = some s') : s'.fixed = s.fixed := by
  unfold judgeOnce at h
  dsimp only at h
  repeat' split at h
  all_goals first | cases h; done | (obtain rfl := Option.some.inj h; simp)

@[simp] theorem judge_fixed (t : Nat) (x0 : Nat) (x1 : State) : (judge t x0 x1).fixed = x1.fixed := by
  fun_induction judge with
  | case1 => rfl
  | case2 s n s' h ih => rw [ih]; exact judgeOnce_fixed h
  | case3 => rfl

@[simp] theorem judgeAll_fixed (s : State) : (judgeAll s).fixed = s.fixed := by
  unfold judgeAll
  simp

@[simp] theorem lateCopy_fixed (l : LaneId) (r o : EffRec) (s : State) : (lateCopy l r o s).fixed = s.fixed := by
  unfold lateCopy
  repeat' split
  all_goals simp

@[simp] theorem voterFault_fixed (verdicts : Byte) (s : State) : (voterFault verdicts s).fixed = s.fixed := by
  unfold voterFault
  simp

@[simp] theorem arrive_fixed (l : LaneId) (r : EffRec) (s : State) : (arrive l r s).fixed = s.fixed := by
  unfold arrive
  repeat' split
  all_goals simp

@[simp] theorem startResync_fixed (byHost : Bool) (l : LaneId) (s : State) : (startResync byHost l s).fixed = s.fixed := by
  unfold startResync
  repeat' split
  all_goals simp

@[simp] theorem restartedResync_fixed (s : State) : (restartedResync s).fixed = s.fixed := by
  unfold restartedResync
  simp

@[simp] theorem lanePassed_fixed (byHost : Bool) (l : LaneId) (s : State) : (lanePassed byHost l s).fixed = s.fixed := by
  unfold lanePassed
  repeat' split
  all_goals simp

@[simp] theorem laneFailed_fixed (l : LaneId) (s : State) : (laneFailed l s).fixed = s.fixed := by
  unfold laneFailed
  simp

@[simp] theorem allowanceEvent_fixed (what : Nat) (s : State) : (allowanceEvent what s).fixed = s.fixed := by
  unfold allowanceEvent
  simp

@[simp] theorem oneLaneEntry_fixed (l : LaneId) (s : State) : (oneLaneEntry l s).fixed = s.fixed := by
  unfold oneLaneEntry
  simp

@[simp] theorem endRetest_fixed (l : LaneId) (part : Byte) (s : State) : (endRetest l part s).fixed = s.fixed := by
  unfold endRetest
  repeat' split
  all_goals simp

@[simp] theorem publishVerdict_fixed (l : LaneId) (s : State) : (publishVerdict l s).fixed = s.fixed := by
  unfold publishVerdict
  repeat' split
  all_goals simp

@[simp] theorem failLane_fixed (pass : Bool) (l : LaneId) (s : State) : (failLane pass l s).fixed = s.fixed := by
  unfold failLane
  repeat' split
  all_goals simp

@[simp] theorem stoppedOutcome_fixed (by_ : Option LaneId) (a b : LaneId) (pa pb : Bool) (s : State) : (stoppedOutcome by_ a b pa pb s).fixed = s.fixed := by
  unfold stoppedOutcome
  repeat' split
  all_goals simp

@[simp] theorem decideLane_fixed (l : LaneId) (pass : Bool) (s : State) : (decideLane l pass s).fixed = s.fixed := by
  unfold decideLane
  repeat' split
  all_goals simp

@[simp] theorem takeDecisions_fixed (x0 : Nat) (x1 : State) : (takeDecisions x0 x1).fixed = x1.fixed := by
  fun_induction takeDecisions with
  | case3 =>
    rename_i ih
    rw [ih]
    split <;> simp +zetaDelta
  | _ => simp_all

@[simp] theorem decideNow_fixed (s : State) : (decideNow s).fixed = s.fixed := by
  unfold decideNow
  repeat' split
  all_goals simp

@[simp] theorem takeLine_fixed (i : Nat) (src : LaneId) (l : LaneId) (s : State) : (takeLine i src l s).fixed = s.fixed := by
  unfold takeLine
  simp

@[simp] theorem resyncLine_fixed (l : LaneId) (s : State) : (resyncLine l s).fixed = s.fixed := by
  unfold resyncLine
  dsimp only
  repeat' split
  all_goals simp

@[simp] theorem resyncTick_fixed (s : State) : (resyncTick s).fixed = s.fixed := by
  unfold resyncTick
  simp

@[simp] theorem rejoin_fixed (l : LaneId) (s : State) : (rejoin l s).fixed = s.fixed := by
  unfold rejoin
  repeat' split
  all_goals simp

@[simp] theorem rejoinLanes_fixed (ct : Nat) (s : State) : (rejoinLanes ct s).fixed = s.fixed := by
  unfold rejoinLanes
  simp

@[simp] theorem doLaneStatus_fixed (e : Outst) (s : State) : (doLaneStatus e s).1.fixed = s.fixed := by
  unfold doLaneStatus
  repeat' split
  all_goals simp

@[simp] theorem doLaneRetest_fixed (q : RingId) (e : Outst) (s : State) : (doLaneRetest q e s).1.fixed = s.fixed := by
  unfold doLaneRetest
  repeat' split
  all_goals simp

@[simp] theorem doLaneExclude_fixed (e : Outst) (s : State) : (doLaneExclude e s).1.fixed = s.fixed := by
  unfold doLaneExclude
  repeat' split
  all_goals simp

@[simp] theorem doLaneRejoin_fixed (e : Outst) (s : State) : (doLaneRejoin e s).1.fixed = s.fixed := by
  unfold doLaneRejoin
  dsimp only
  repeat' split
  all_goals simp

@[simp] theorem injectTest_fixed (failed : Option (Fin 778)) (s : State) : (injectTest failed s).fixed = s.fixed := by
  unfold injectTest
  simp

@[simp] theorem doVotInject_fixed (failed : Option (Fin 778)) (z1 : Outst) (s : State) : (doVotInject failed z1 s).1.fixed = s.fixed := by
  unfold doVotInject
  repeat' split
  all_goals simp

@[simp] theorem readPage_fixed (n : Nat) (s : State) : (readPage n s).2.fixed = s.fixed := by
  unfold readPage
  dsimp only
  repeat' split
  all_goals simp

@[simp] theorem wearWarn_fixed (n writes : Nat) (s : State) : (wearWarn n writes s).fixed = s.fixed := by
  unfold wearWarn
  repeat' split
  all_goals simp

@[simp] theorem wornPage_fixed (n : Nat) (s : State) : (wornPage n s).fixed = s.fixed := by
  unfold wornPage
  repeat' split
  all_goals simp

@[simp] theorem writePage_fixed (n : Nat) (body : List Byte) (kind group fails : Nat) (s : State) : (writePage n body kind group fails s).2.fixed = s.fixed := by
  unfold writePage
  dsimp only
  repeat' split
  all_goals simp

@[simp] theorem modJournal_fixed (i : Fin 4) (f : Journal → Journal) (s : State) : (modJournal i f s).fixed = s.fixed := by
  unfold modJournal
  simp

@[simp] theorem writeGroup_fixed (kind group : Nat) (x0 : Nat) (x1 : List (List Byte)) (x2 : State) : (writeGroup kind group x0 x1 x2).2.fixed = x2.fixed := by
  fun_induction writeGroup <;> simp_all +zetaDelta

@[simp] theorem rollBack_fixed (i : Fin 4) (kind : Nat) (s : State) : (rollBack i kind s).fixed = s.fixed := by
  unfold rollBack
  simp

@[simp] theorem saveGroup_fixed (kind : Nat) (tag : W64) (first bytes : Nat) (bodies : List (List Byte)) (cut : Option Nat) (s : State) : (saveGroup kind tag first bytes bodies cut s).2.fixed = s.fixed := by
  unfold saveGroup
  dsimp only
  repeat' split
  all_goals simp

@[simp] theorem readPages_fixed (x0 : Nat) (x1 : Nat) (x2 : State) : (readPages x0 x1 x2).2.fixed = x2.fixed := by
  fun_induction readPages <;> simp_all +zetaDelta

@[simp] theorem ringWear_fixed (i : Fin 64) (s : State) : (ringWear i s).fixed = s.fixed := by
  unfold ringWear
  simp

@[simp] theorem writeRwp_fixed (s : State) : (writeRwp s).fixed = s.fixed := by
  unfold writeRwp
  repeat' split
  all_goals simp

@[simp] theorem recoverKind_fixed (kind : Nat) (s : State) : (recoverKind kind s).2.fixed = s.fixed := by
  unfold recoverKind
  dsimp only
  repeat' split
  all_goals simp

@[simp] theorem loadRwp_fixed (s : State) : (loadRwp s).fixed = s.fixed := by
  unfold loadRwp
  repeat' split
  all_goals simp

@[simp] theorem recoverStore_fixed (s : State) : (recoverStore s).fixed = s.fixed := by
  unfold recoverStore
  dsimp only
  repeat' split
  all_goals simp

@[simp] theorem modPwd_fixed (r : Fin 3) (f : PwdRegion → PwdRegion) (s : State) : (modPwd r f s).fixed = s.fixed := by
  unfold modPwd
  simp

@[simp] theorem failedAttempt_fixed (r : Fin 3) (kind : Nat) (s : State) : (failedAttempt r kind s).fixed = s.fixed := by
  unfold failedAttempt
  simp

@[simp] theorem checkPwd_fixed (r : Fin 3) (write : Bool) (given : List Byte) (s : State) : (checkPwd r write given s).2.fixed = s.fixed := by
  unfold checkPwd
  dsimp only
  repeat' split
  all_goals simp

@[simp] theorem retentiveSave_fixed (why : Nat) (cut : Option Nat) (s : State) : (retentiveSave why cut s).2.fixed = s.fixed := by
  unfold retentiveSave
  dsimp only
  repeat' split
  all_goals simp

@[simp] theorem restoreRetentive_fixed (i : Image) (s : State) (m : Memory) : (restoreRetentive i s m).2.2.fixed = s.fixed := by
  unfold restoreRetentive
  dsimp only
  repeat' split
  all_goals simp

@[simp] theorem writeSlot_fixed (i : Nat) (bs : List Byte) (fails : Nat) (s : State) : (writeSlot i bs fails s).2.fixed = s.fixed := by
  exact writePage_fixed ..

@[simp] theorem recordDone_fixed (i : EvItem) (rest : List EvItem) (s : State) : (recordDone i rest s).fixed = s.fixed := by
  unfold recordDone
  simp

@[simp] theorem noteDropped_fixed (s : State) : (noteDropped s).fixed = s.fixed := by
  unfold noteDropped
  repeat' split
  all_goals simp

@[simp] theorem recordFailed_fixed (s : State) : (recordFailed s).fixed = s.fixed := by
  unfold recordFailed
  repeat' split
  all_goals simp

@[simp] theorem writeRecord_fixed (fails1 fails2 : Nat) (cut : Bool) (s : State) : (writeRecord fails1 fails2 cut s).fixed = s.fixed := by
  unfold writeRecord
  repeat' split
  all_goals simp

@[simp] theorem flushRecords_fixed (x0 : Nat) (x1 : State) : (flushRecords x0 x1).fixed = x1.fixed := by
  fun_induction flushRecords <;> simp_all

@[simp] theorem recoverEvr_fixed (s : State) : (recoverEvr s).fixed = s.fixed := by
  unfold recoverEvr
  repeat' split
  all_goals simp

@[simp] theorem doEvrRead_fixed (e : Outst) (s : State) : (doEvrRead e s).1.fixed = s.fixed := by
  unfold doEvrRead
  dsimp only
  repeat' split
  all_goals simp

@[simp] theorem doEvrStatus_fixed (z0 : Outst) (s : State) : (doEvrStatus z0 s).1.fixed = s.fixed := by
  unfold doEvrStatus
  simp

@[simp] theorem lossRecord_fixed (n first : Nat) (s : State) : (lossRecord n first s).fixed = s.fixed := by
  unfold lossRecord
  simp

@[simp] theorem doCmtRead_fixed (overtaken : Nat) (e : Outst) (s : State) : (doCmtRead overtaken e s).1.fixed = s.fixed := by
  unfold doCmtRead
  dsimp only
  repeat' split
  all_goals simp

@[simp] theorem doCmtMark_fixed (q : RingId) (e : Outst) (s : State) : (doCmtMark q e s).1.fixed = s.fixed := by
  unfold doCmtMark
  repeat' split
  all_goals simp

@[simp] theorem doCmtResume_fixed (z0 : Outst) (s : State) : (doCmtResume z0 s).1.fixed = s.fixed := by
  unfold doCmtResume
  repeat' split
  all_goals simp

@[simp] theorem doCmtStatus_fixed (z0 : Outst) (s : State) : (doCmtStatus z0 s).1.fixed = s.fixed := by
  unfold doCmtStatus
  simp

@[simp] theorem modSlot_fixed (i : Fin 2) (f : FwSlot → FwSlot) (s : State) : (modSlot i f s).fixed = s.fixed := by
  unfold modSlot
  simp

@[simp] theorem runSlot_fixed (i : Fin 2) (s : State) : (runSlot i s).fixed = s.fixed := by
  unfold runSlot
  simp

@[simp] theorem failTrial_fixed (i : Fin 2) (why : Nat) (s : State) : (failTrial i why s).fixed = s.fixed := by
  unfold failTrial
  simp

@[simp] theorem loadSlot_fixed (i : Fin 2) (s : State) : (loadSlot i s).2.fixed = s.fixed := by
  unfold loadSlot
  dsimp only
  repeat' split
  all_goals simp

@[simp] theorem chooseFirmware_fixed (s : State) : (chooseFirmware s).2.fixed = s.fixed := by
  unfold chooseFirmware
  dsimp only
  repeat' split
  all_goals simp

@[simp] theorem startPeriod_fixed (s : State) : (startPeriod s).fixed = s.fixed := by
  unfold startPeriod
  simp

@[simp] theorem newPeriod_fixed (s : State) : (newPeriod s).fixed = s.fixed := by
  unfold newPeriod
  simp

@[simp] theorem serviceRestart_fixed (s : State) : (serviceRestart s).fixed = s.fixed := by
  unfold serviceRestart
  simp

@[simp] theorem abandonTransfer_fixed (why : Nat) (s : State) : (abandonTransfer why s).fixed = s.fixed := by
  unfold abandonTransfer
  repeat' split
  all_goals simp

@[simp] theorem noteForces_fixed (s : State) : (noteForces s).fixed = s.fixed := by
  unfold noteForces
  repeat' split
  all_goals simp

@[simp] theorem chipReset_fixed (kind : Nat) (s0 : State) : (chipReset kind s0).fixed = s0.fixed := by
  unfold chipReset
  have h : (abandonTransfer 3 (noteForces s0)).fixed = s0.fixed := by simp
  simp only [State.fixed, resetFuse] at h ⊢
  split <;> simpa using h

@[simp] theorem flushRwp_fixed (s : State) : (flushRwp s).fixed = s.fixed := by
  unfold flushRwp
  repeat' split
  all_goals simp

@[simp] theorem chipRestart_fixed (kind : Nat) (s : State) : (chipRestart kind s).fixed = s.fixed := by
  unfold chipRestart
  simp

@[simp] theorem stepOne_fixed (chan : Option Nat) (s : State) : (stepOne chan s).fixed = s.fixed := by
  unfold stepOne
  repeat' split
  all_goals simp

@[simp] theorem stepThree_fixed (s : State) : (stepThree s).fixed = s.fixed := by
  unfold stepThree
  simp

@[simp] theorem stepTwo_fixed (s : State) : (stepTwo s).fixed = s.fixed := by
  unfold stepTwo
  simp

@[simp] theorem climb_fixed (chan : Option Nat) (s : State) : (climb chan s).fixed = s.fixed := by
  unfold climb
  repeat' split
  all_goals simp

@[simp] theorem restoreTimePage_fixed (s : State) : (restoreTimePage s).fixed = s.fixed := by
  unfold restoreTimePage
  split
  · rfl
  · dsimp only
    split
    · rw [event_fixed, State.modSys_fixed, State.modClk_fixed, State.modNet_fixed, State.modEvr_fixed, State.modTim_fixed,
        State.modVot_fixed]
    · rw [State.modNet_fixed, State.modEvr_fixed, State.modTim_fixed, State.modVot_fixed]

@[simp] theorem restoreMeter_fixed (s : State) : (restoreMeter s).fixed = s.fixed := by
  unfold restoreMeter
  repeat' split
  all_goals simp

@[simp] theorem setFreeze_fixed (r : Fin 2) (f : Option RtcFreeze) (s : State) : (setFreeze r f s).fixed = s.fixed := by
  unfold setFreeze
  simp

@[simp] theorem modStation_fixed (r : StraitId) (n : Nat) (f : Station → Station) (s : State) : (modStation r n f s).fixed = s.fixed := by
  unfold modStation
  simp

@[simp] theorem emitFrame_fixed (p : PortId) (bs : List Byte) (s : State) : (emitFrame p bs s).fixed = s.fixed := by
  unfold emitFrame
  repeat' split
  all_goals simp

@[simp] theorem countA_fixed (s : State) : (countA s).fixed = s.fixed := by
  unfold countA
  simp

@[simp] theorem sendNow_fixed (r : StraitId) (f : Strait) (s0 : State) : (sendNow r f s0).fixed = s0.fixed := by
  unfold sendNow
  simp

@[simp] theorem sendGated_fixed (r : StraitId) (f : Strait) (s : State) : (sendGated r f s).fixed = s.fixed := by
  unfold sendGated
  repeat' split
  all_goals simp

@[simp] theorem sendNode_fixed (r : StraitId) (typ stream gen dst : Nat) (payload : List Byte) (s : State) : (sendNode r typ stream gen dst payload s).fixed = s.fixed := by
  unfold sendNode
  simp

@[simp] theorem modCtx_fixed (l : LaneId) (t : Nat) (f : Ctx → Ctx) (s : State) : (modCtx l t f s).fixed = s.fixed := by
  unfold modCtx
  repeat' split
  all_goals simp

@[simp] theorem laneWrite_fixed (l : LaneId) (off : Nat) (bs : List Byte) (s : State) : (laneWrite l off bs s).fixed = s.fixed := by
  unfold laneWrite
  simp

@[simp] theorem timersDone_fixed (l : LaneId) (t : Nat) (s : State) : (timersDone l t s).fixed = s.fixed := by
  unfold timersDone
  simp

@[simp] theorem schedule_fixed (l : LaneId) (e : Fin 4) (s : State) : (schedule l e s).fixed = s.fixed := by
  unfold schedule
  repeat' split
  all_goals simp

@[simp] theorem emitOwner_fixed (l : LaneId) (r : Release) (kind : Nat) (value : W64) (s : State) : (emitOwner l r kind value s).fixed = s.fixed := by
  unfold emitOwner
  simp

@[simp] theorem endInLane_fixed (l : LaneId) (r : Release) (normal : Bool) (s : State) : (endInLane l r normal s).fixed = s.fixed := by
  unfold endInLane
  simp

@[simp] theorem emitEnd_fixed (l : LaneId) (r : Release) (cycles : Nat) (s : State) : (emitEnd l r cycles s).fixed = s.fixed := by
  unfold emitEnd
  simp

@[simp] theorem startError_fixed (l : LaneId) (r : Release) (err : TaskEntry) (fault : Option (Nat × Nat)) (cycles : Nat) (s : State) : (startError l r err fault cycles s).fixed = s.fixed := by
  unfold startError
  simp

@[simp] theorem ownerFault_fixed (l : LaneId) (r : Release) (f bundle : Nat) (s : State) : (ownerFault l r f bundle s).fixed = s.fixed := by
  unfold ownerFault
  repeat' split
  all_goals simp

@[simp] theorem errorFault_fixed (l : LaneId) (r : Release) (err : TaskEntry) (f bundle : Nat) (s : State) : (errorFault l r err f bundle s).fixed = s.fixed := by
  unfold errorFault
  repeat' split
  all_goals simp

@[simp] theorem codeFault_fixed (l : LaneId) (r : Release) (f bundle : Nat) (s : State) : (codeFault l r f bundle s).fixed = s.fixed := by
  unfold codeFault
  repeat' split
  all_goals simp

@[simp] theorem ownerEnd_fixed (l : LaneId) (r : Release) (s : State) : (ownerEnd l r s).fixed = s.fixed := by
  unfold ownerEnd
  repeat' split
  all_goals simp

@[simp] theorem errorEnd_fixed (l : LaneId) (r : Release) (err : TaskEntry) (s : State) : (errorEnd l r err s).fixed = s.fixed := by
  unfold errorEnd
  simp

@[simp] theorem codeEnd_fixed (l : LaneId) (r : Release) (s : State) : (codeEnd l r s).fixed = s.fixed := by
  unfold codeEnd
  repeat' split
  all_goals simp

@[simp] theorem damagedEvent_fixed (l : LaneId) (d : Nat × Nat × Nat) (s : State) : (damagedEvent l d s).fixed = s.fixed := by
  unfold damagedEvent
  simp

@[simp] theorem commitEng_fixed (l : LaneId) (r : Release) (g : Eng) (s : State) : (commitEng l r g s).fixed = s.fixed := by
  unfold commitEng
  simp

@[simp] theorem afterIssue_fixed (l : LaneId) (r : Release) (bundle : Nat) (out : Option Nat × Eng) (s : State) : (afterIssue l r bundle out s).fixed = s.fixed := by
  unfold afterIssue
  repeat' split
  all_goals simp

@[simp] theorem atEngine_fixed (l : LaneId) (e : Fin 4) (elems : Option Nat) (s : State) (act : EngEnv → Nat → Eng → Option Nat × Eng) : (atEngine l e elems s act).fixed = s.fixed := by
  unfold atEngine
  repeat' split
  all_goals simp

@[simp] theorem issueUnit_fixed (p : Nat) (l : LaneId) (e : Fin 4) (b : W64) (elems : Option Nat) (s : State) : (issueUnit p l e b elems s).fixed = s.fixed := by
  unfold issueUnit
  simp

@[simp] theorem stationCause_fixed (b ring station : Nat) (s : State) : (stationCause b ring station s).fixed = s.fixed := by
  unfold stationCause
  simp

@[simp] theorem checkPartner_fixed (ct : Nat) (s : State) : (checkPartner ct s).fixed = s.fixed := by
  unfold checkPartner
  repeat' split
  all_goals simp

@[simp] theorem takeSlot_fixed (r : Release) (s : State) : (takeSlot r s).fixed = s.fixed := by
  unfold takeSlot
  simp

@[simp] theorem joinRelease_fixed (ct : Nat) (s : State) : (joinRelease ct s).fixed = s.fixed := by
  unfold joinRelease
  dsimp only
  repeat' first | (simp; done) | split | refine foldl_fixed _ (fun s x => ?_) _ _ | (rw [foldl_fixed _ (fun s x => ?_)])

@[simp] theorem stillRunning_fixed (task : Nat) (s : State) : (stillRunning task s).fixed = s.fixed := by
  unfold stillRunning
  refine foldl_fixed _ (fun s l => ?_) _ _
  split <;> simp

@[simp] theorem writeSym_fixed (r : Release) (y : Symbol) (v : List Byte) (s : State) : (writeSym r y v s).fixed = s.fixed := by
  unfold writeSym
  simp

@[simp] theorem startForces_fixed (r : Release) (prev : Option Nat) (s : State) : (startForces r prev s).fixed = s.fixed := by
  unfold startForces
  simp
  repeat' first | (simp; done) | split | (refine Eq.trans (foldl_fixed _ (fun s x => ?_) _ _) ?_)

@[simp] theorem writeItems_fixed (r : Release) (w : VarWrite) (s : State) : (writeItems r w s).2.fixed = s.fixed := by
  unfold writeItems
  refine foldl_snd_fixed _ (fun acc i => ?_) _ _
  split
  · split <;> simp
  · rfl

@[simp] theorem endWrite_fixed (w : VarWrite) (ct : Nat) (s : State) : (endWrite w ct s).fixed = s.fixed := by
  unfold endWrite
  repeat' split
  all_goals simp

@[simp] theorem startWrites_fixed (r : Release) (x0 : List VarWrite) (x1 : State) : (startWrites r x0 x1).fixed = x1.fixed := by
  fun_induction startWrites with
  | case1 => rfl
  | case2 s w ws before h w1 s1 hw ih =>
    rw [ih, State.modTsk_fixed]
    exact (congrArg (fun x => State.fixed (Prod.snd x)) hw).symm.trans (writeItems_fixed ..)
  | case3 s w ws before h ih => exact ih

@[simp] theorem endWrites_fixed (ct : Nat) (x0 : List VarWrite) (x1 : State) : (endWrites ct x0 x1).fixed = x1.fixed := by
  fun_induction endWrites <;> simp_all

@[simp] theorem startEdges_fixed (r : Release) (s : State) : (startEdges r s).fixed = s.fixed := by
  unfold startEdges
  simp

@[simp] theorem resetContexts_fixed (e : TaskEntry) (s : State) : (resetContexts e s).fixed = s.fixed := by
  unfold resetContexts
  dsimp only
  repeat' first | split | refine foldl_fixed _ (fun s x => ?_) _ _
  all_goals simp

@[simp] theorem takeSnap_fixed (l : LaneId) (r : Release) (s : State) : (takeSnap l r s).fixed = s.fixed := by
  unfold takeSnap
  simp

@[simp] theorem startRelease_fixed (r : Release) (prev : Option Nat) (s : State) : (startRelease r prev s).fixed = s.fixed := by
  unfold startRelease
  simp

@[simp] theorem release_fixed (bad : List W32) (e : TaskEntry) (cycle ct : Nat) (s : State) : (release bad e cycle ct s).fixed = s.fixed := by
  unfold release
  simp

@[simp] theorem releasePeriodic_fixed (bad : List W32) (x : Nat × TaskEntry) (s : State) : (releasePeriodic bad x s).fixed = s.fixed := by
  unfold releasePeriodic
  simp

@[simp] theorem recognise_fixed (e : TaskEntry) (at_ stamp : Nat) (trigger : Option (RingId × Nat)) (s : State) : (recognise e at_ stamp trigger s).fixed = s.fixed := by
  unfold recognise
  dsimp only
  repeat' split
  all_goals simp

@[simp] theorem endTrigger_fixed (ct : Nat) (t : (RingId × Nat) × Bool) (s : State) : (endTrigger ct t s).fixed = s.fixed := by
  unfold endTrigger
  simp

@[simp] theorem copyIn_fixed (l : LaneId) (x : XIn × Nat × Option Version) (s : State) : (copyIn l x s).fixed = s.fixed := by
  unfold copyIn
  simp

@[simp] theorem doTaskTrigger_fixed (q : RingId) (e : Outst) (s : State) : (doTaskTrigger q e s).1.fixed = s.fixed := by
  unfold doTaskTrigger
  dsimp only
  repeat' split
  all_goals simp

@[simp] theorem doTaskStatus_fixed (e : Outst) (s : State) : (doTaskStatus e s).1.fixed = s.fixed := by
  unfold doTaskStatus
  dsimp only
  repeat' split
  all_goals simp

@[simp] theorem finishRead_fixed (r : VarRead) (s : State) : (finishRead r s).fixed = s.fixed := by
  unfold finishRead
  repeat' split
  all_goals simp

@[simp] theorem runReads_fixed (s : State) : (runReads s).fixed = s.fixed := by
  unfold runReads
  simp

@[simp] theorem doVarRead_fixed (q : RingId) (dma : List Byte) (e : Outst) (s : State) : (doVarRead q dma e s).1.fixed = s.fixed := by
  unfold doVarRead
  dsimp only
  repeat' split
  all_goals simp

@[simp] theorem enterWrite_fixed (q : RingId) (num ct : Nat) (items : List VarItem) (s : State) : (enterWrite q num ct items s).fixed = s.fixed := by
  unfold enterWrite
  simp

@[simp] theorem doVarWrite_fixed (q : RingId) (dma : List Byte) (e : Outst) (s : State) : (doVarWrite q dma e s).1.fixed = s.fixed := by
  unfold doVarWrite
  dsimp only
  repeat' split
  all_goals simp

@[simp] theorem timeoutWrite_fixed (w : VarWrite) (s : State) : (timeoutWrite w s).fixed = s.fixed := by
  unfold timeoutWrite
  simp

@[simp] theorem enterForce_fixed (q : RingId) (num at_ : Nat) (a : ForceAct) (s : State) : (enterForce q num at_ a s).fixed = s.fixed := by
  unfold enterForce
  simp

@[simp] theorem doForceSet_fixed (q : RingId) (dma : List Byte) (e : Outst) (s : State) : (doForceSet q dma e s).1.fixed = s.fixed := by
  unfold doForceSet
  dsimp only
  repeat' split
  all_goals simp

@[simp] theorem doForceClear_fixed (q : RingId) (e : Outst) (s : State) : (doForceClear q e s).1.fixed = s.fixed := by
  unfold doForceClear
  dsimp only
  repeat' split
  all_goals simp

@[simp] theorem doForceClearAll_fixed (q : RingId) (e : Outst) (s : State) : (doForceClearAll q e s).1.fixed = s.fixed := by
  unfold doForceClearAll
  simp

@[simp] theorem doForceList_fixed (e : Outst) (s : State) : (doForceList e s).1.fixed = s.fixed := by
  unfold doForceList
  simp

@[simp] theorem startWatchdog_fixed (hw : Bool) (s : State) : (startWatchdog hw s).fixed = s.fixed := by
  unfold startWatchdog
  simp

@[simp] theorem systemFault_fixed (s : State) : (systemFault s).fixed = s.fixed := by
  unfold systemFault
  simp

@[simp] theorem advanceQuestion_fixed (s : State) : (advanceQuestion s).fixed = s.fixed := by
  unfold advanceQuestion
  simp

@[simp] theorem judgeService_fixed (a : W32) (s : State) : (judgeService a s).fixed = s.fixed := by
  unfold judgeService
  simp

@[simp] theorem lateRelease_fixed (r : Release) (s : State) : (lateRelease r s).fixed = s.fixed := by
  unfold lateRelease
  simp

@[simp] theorem cutRelease_fixed (r : Release) (s : State) : (cutRelease r s).fixed = s.fixed := by
  unfold cutRelease
  repeat' split
  all_goals simp

@[simp] theorem modTail_fixed (task : Nat) (f : StopTail → StopTail) (s : State) : (modTail task f s).fixed = s.fixed := by
  unfold modTail
  simp

@[simp] theorem cutDue_fixed (s : State) : (cutDue s).fixed = s.fixed := by
  unfold cutDue
  simp

@[simp] theorem cutTails_fixed (s : State) : (cutTails s).fixed = s.fixed := by
  unfold cutTails
  simp

@[simp] theorem validVersion_fixed (r : Release) (s : State) : (validVersion r s).fixed = s.fixed := by
  unfold validVersion
  repeat' split
  all_goals simp

@[simp] theorem judgeWindow_fixed (r : Release) (s : State) : (judgeWindow r s).fixed = s.fixed := by
  unfold judgeWindow
  repeat' split
  all_goals simp

@[simp] theorem applyRelease_fixed (r : Release) (s : State) : (applyRelease r s).fixed = s.fixed := by
  unfold applyRelease
  simp

@[simp] theorem applyTail_fixed (t : StopTail) (s : State) : (applyTail t s).fixed = s.fixed := by
  unfold applyTail
  simp

@[simp] theorem forgetReleases_fixed (s : State) : (forgetReleases s).fixed = s.fixed := by
  unfold forgetReleases
  simp

@[simp] theorem beginStop_fixed (at_ : Nat) (stopper : Option (RingId × Nat)) (s : State) : (beginStop at_ stopper s).fixed = s.fixed := by
  unfold beginStop
  simp

@[simp] theorem doStop_fixed (q : RingId) (e : Outst) (s : State) : (doStop q e s).1.fixed = s.fixed := by
  unfold doStop
  repeat' split
  all_goals simp

@[simp] theorem pauseResync_fixed (s : State) : (pauseResync s).fixed = s.fixed := by
  unfold pauseResync
  simp

@[simp] theorem resumeResync_fixed (s : State) : (resumeResync s).fixed = s.fixed := by
  unfold resumeResync
  simp

@[simp] theorem enterStopped_fixed (reason : Nat) (s : State) : (enterStopped reason s).fixed = s.fixed := by
  unfold enterStopped
  repeat' split
  all_goals simp

@[simp] theorem modBank_fixed (b : Fin 2) (f : Bank → Bank) (s : State) : (modBank b f s).fixed = s.fixed := by
  unfold modBank
  simp

@[simp] theorem loadBank_fixed (b : Nat) (bs : List Byte) (differ : List LaneId) (s : State) : (loadBank b bs differ s).1.fixed = s.fixed := by
  unfold loadBank
  repeat' split
  all_goals simp

@[simp] theorem doPrgLoad_fixed (dma : List Byte) (differ : List LaneId) (e : Outst) (s : State) : (doPrgLoad dma differ e s).1.fixed = s.fixed := by
  unfold doPrgLoad
  simp

@[simp] theorem loadMap_fixed (bs : List Byte) (s : State) : (loadMap bs s).1.fixed = s.fixed := by
  unfold loadMap
  repeat' split
  all_goals simp

@[simp] theorem doPrgMapLoad_fixed (dma : List Byte) (e : Outst) (s : State) : (doPrgMapLoad dma e s).1.fixed = s.fixed := by
  unfold doPrgMapLoad
  simp

@[simp] theorem stageSwitch_fixed (bank x : Nat) (s : State) : (stageSwitch bank x s).fixed = s.fixed := by
  unfold stageSwitch
  simp

@[simp] theorem doPrgSwitchStage_fixed (q : RingId) (e : Outst) (s : State) : (doPrgSwitchStage q e s).1.fixed = s.fixed := by
  unfold doPrgSwitchStage
  repeat' split
  all_goals simp

@[simp] theorem doPrgRelease_fixed (e : Outst) (s : State) : (doPrgRelease e s).1.fixed = s.fixed := by
  unfold doPrgRelease
  repeat' split
  all_goals simp

@[simp] theorem doPrgStatus_fixed (e : Outst) (s : State) : (doPrgStatus e s).1.fixed = s.fixed := by
  unfold doPrgStatus
  simp

@[simp] theorem queueImage_fixed (q : RingId) (num slot : Nat) (setActive : Bool) (bodies : List (List Byte)) (s : State) : (queueImage q num slot setActive bodies s).fixed = s.fixed := by
  unfold queueImage
  simp

@[simp] theorem doPrgSave_fixed (q : RingId) (e : Outst) (s : State) : (doPrgSave q e s).1.fixed = s.fixed := by
  unfold doPrgSave
  dsimp only
  repeat' split
  all_goals simp

@[simp] theorem doPrgKeySet_fixed (q : RingId) (dma : List Byte) (e : Outst) (s : State) : (doPrgKeySet q dma e s).1.fixed = s.fixed := by
  unfold doPrgKeySet
  dsimp only
  repeat' split
  all_goals simp

@[simp] theorem confirmQuiet_fixed (s : State) : (confirmQuiet s).fixed = s.fixed := by
  unfold confirmQuiet
  refine foldl_fixed _ (fun s l => ?_) _ _
  split <;> simp

theorem execSwitchCommit_fixed {s t : State} (h : execSwitchCommit s = .next t) : t.fixed = s.fixed := by
  unfold execSwitchCommit at h
  dsimp only at h
  repeat' split at h
  all_goals (obtain rfl := Host.Outcome.next.inj h; simp)

@[simp] theorem rebindForces_fixed (f : W32 → Option W32) (s : State) : (rebindForces f s).fixed = s.fixed := by
  unfold rebindForces
  simp

@[simp] theorem rebindWrites_fixed (f : W32 → Option W32) (s : State) : (rebindWrites f s).fixed = s.fixed := by
  unfold rebindWrites
  simp

@[simp] theorem rebindReads_fixed (f : W32 → Option W32) (x : Nat) (s : State) : (rebindReads f x s).fixed = s.fixed := by
  unfold rebindReads
  simp

@[simp] theorem retentiveFits_fixed (s : State) : (retentiveFits s).fixed = s.fixed := by
  unfold retentiveFits
  repeat' split
  all_goals simp

@[simp] theorem swapBanks_fixed (b : Fin 2) (s : State) : (swapBanks b s).fixed = s.fixed := by
  unfold swapBanks
  simp

@[simp] theorem switchNow_fixed (w : SwitchRun) (s : State) : (switchNow w s).fixed = s.fixed := by
  unfold switchNow
  repeat' split
  all_goals simp

@[simp] theorem doTxnOpen_fixed (q : RingId) (z1 : Outst) (s : State) : (doTxnOpen q z1 s).1.fixed = s.fixed := by
  unfold doTxnOpen
  repeat' split
  all_goals simp

@[simp] theorem setStaged_fixed (objs : List StagedObj) (rws : List (Nat × W32)) (s : State) : (setStaged objs rws s).fixed = s.fixed := by
  unfold setStaged
  simp

@[simp] theorem stageObj_fixed (kind ring : Nat) (bs : List Byte) (s : State) : (stageObj kind ring bs s).2.fixed = s.fixed := by
  unfold stageObj
  dsimp only
  repeat' split
  all_goals simp

@[simp] theorem touchTxn_fixed (s : State) : (touchTxn s).fixed = s.fixed := by
  unfold touchTxn
  simp

@[simp] theorem doTxnStage_fixed (q : RingId) (dma : List Byte) (e : Outst) (s : State) : (doTxnStage q dma e s).1.fixed = s.fixed := by
  unfold doTxnStage
  dsimp only
  repeat' split
  all_goals simp

@[simp] theorem stageRws_fixed (off : Nat) (w : W32) (s : State) : (stageRws off w s).fixed = s.fixed := by
  unfold stageRws
  repeat' split
  all_goals simp

@[simp] theorem doTxnCheck_fixed (q : RingId) (e : Outst) (s : State) : (doTxnCheck q e s).1.fixed = s.fixed := by
  unfold doTxnCheck
  repeat' split
  all_goals simp

@[simp] theorem prepareRings_fixed (x : Nat) (s : State) : (prepareRings x s).fixed = s.fixed := by
  unfold prepareRings
  simp

@[simp] theorem beginApply_fixed (num x : Nat) (s : State) : (beginApply num x s).fixed = s.fixed := by
  unfold beginApply
  simp

@[simp] theorem doTxnApply_fixed (q : RingId) (e : Outst) (s : State) : (doTxnApply q e s).1.fixed = s.fixed := by
  unfold doTxnApply
  repeat' split
  all_goals simp

@[simp] theorem commitRings_fixed (s : State) : (commitRings s).fixed = s.fixed := by
  unfold commitRings
  simp

@[simp] theorem commitTxn_fixed (s : State) : (commitTxn s).fixed = s.fixed := by
  unfold commitTxn
  repeat' split
  all_goals simp

@[simp] theorem dropEvents_fixed (k : Schedule) (es : List MapEntry) (s : State) : (dropEvents k es s).fixed = s.fixed := by
  unfold dropEvents
  simp

@[simp] theorem freshDigests_fixed (ts : List Nat) (s : State) : (freshDigests ts s).fixed = s.fixed := by
  unfold freshDigests
  simp

@[simp] theorem forgetStreams_fixed (ts : List Nat) (s : State) : (forgetStreams ts s).fixed = s.fixed := by
  unfold forgetStreams
  simp

@[simp] theorem applySchedule_fixed (n : NewSet) (es : List MapEntry) (extra : Nat → Nat) (x : Nat) (newSched : Bool) (s : State) : (applySchedule n es extra x newSched s).fixed = s.fixed := by
  unfold applySchedule
  repeat' split
  all_goals simp

@[simp] theorem applyChans_fixed (es : List MapEntry) (s : State) : (applyChans es s).fixed = s.fixed := by
  unfold applyChans
  repeat' split
  all_goals simp

@[simp] theorem applyNet_fixed (n : NewSet) (r : StraitId) (k : NetSched) (s : State) : (applyNet n r k s).fixed = s.fixed := by
  unfold applyNet
  simp

@[simp] theorem applyEpochs_fixed (s : State) : (applyEpochs s).fixed = s.fixed := by
  unfold applyEpochs
  simp

@[simp] theorem activateRings_fixed (s : State) : (activateRings s).fixed = s.fixed := by
  unfold activateRings
  simp

@[simp] theorem applyPartitions_fixed (bs : List Byte) (s : State) : (applyPartitions bs s).fixed = s.fixed := by
  unfold applyPartitions
  simp

@[simp] theorem applySet_fixed (objs : List StagedObj) (rws : List (Nat × W32)) (es : List MapEntry) (extra : Nat → Nat) (x : Nat) (s0 : State) : (applySet objs rws es extra x s0).fixed = s0.fixed := by
  unfold applySet
  simp
  repeat' first | (simp; done) | split | (refine Eq.trans (foldl_fixed _ (fun s x => ?_) _ _) ?_)

@[simp] theorem finishSwitch_fixed (s : State) : (finishSwitch s).fixed = s.fixed := by
  unfold finishSwitch
  dsimp only
  split
  · rw [switchNow_fixed]
    split
    · rfl
    · split
      · rename_i h
        exact execSwitchCommit_fixed h
      · rfl
  · rfl

@[simp] theorem endApplied_fixed (x : Nat) (s : State) : (endApplied x s).fixed = s.fixed := by
  unfold endApplied
  repeat' split
  all_goals simp

@[simp] theorem carryVersions_fixed (es : List MapEntry) (k : Option Schedule) (s : State) : (carryVersions es k s).fixed = s.fixed := by
  unfold carryVersions
  simp

@[simp] theorem abandonTxn_fixed (cause : Nat) (s : State) : (abandonTxn cause s).fixed = s.fixed := by
  unfold abandonTxn
  repeat' split
  all_goals simp

@[simp] theorem doTxnAbandon_fixed (q : RingId) (z1 : Outst) (s : State) : (doTxnAbandon q z1 s).1.fixed = s.fixed := by
  unfold doTxnAbandon
  repeat' split
  all_goals simp

@[simp] theorem doTxnStatus_fixed (z0 : Outst) (s : State) : (doTxnStatus z0 s).1.fixed = s.fixed := by
  unfold doTxnStatus
  repeat' split
  all_goals simp

@[simp] theorem doTxnRead_fixed (q : RingId) (e : Outst) (s : State) : (doTxnRead q e s).1.fixed = s.fixed := by
  unfold doTxnRead
  dsimp only
  repeat' split
  all_goals simp

@[simp] theorem savedSet_fixed (s : State) : (savedSet s).2.fixed = s.fixed := by
  unfold savedSet
  repeat' split
  all_goals simp

@[simp] theorem restoreModes_fixed (s : State) : (restoreModes s).fixed = s.fixed := by
  unfold restoreModes
  have h := savedSet_fixed s
  split
  · rename_i hs
    rw [hs] at h
    simpa using h
  · rename_i hs
    rw [hs] at h
    exact h

@[simp] theorem slotBytes_fixed (slot : Nat) (s : State) : (slotBytes slot s).2.fixed = s.fixed := by
  unfold slotBytes
  dsimp only
  repeat' split
  all_goals simp

@[simp] theorem startImage_fixed (s : State) : (startImage s).2.fixed = s.fixed := by
  unfold startImage
  dsimp only
  repeat' split
  all_goals simp

@[simp] theorem startData_fixed (i : Image) (s : State) : (startData i s).fixed = s.fixed := by
  unfold startData
  simp

@[simp] theorem freshRuns_fixed (s : State) : (freshRuns s).fixed = s.fixed := by
  unfold freshRuns
  simp

@[simp] theorem enterRunning_fixed (s : State) : (enterRunning s).fixed = s.fixed := by
  unfold enterRunning
  simp

@[simp] theorem failStart_fixed (reason : Nat) (before s : State) : (failStart reason before s).fixed = s.fixed := by
  unfold failStart
  simp

@[simp] theorem startHost_fixed (s : State) : (startHost s).2.fixed = s.fixed := by
  unfold startHost
  split
  · rename_i h
    have h1 := (congrArg (fun x => State.fixed (Prod.snd x)) h).symm.trans (startImage_fixed ..)
    simp [h1]
  · rename_i h
    have h1 := (congrArg (fun x => State.fixed (Prod.snd x)) h).symm.trans (startImage_fixed ..)
    repeat' split
    all_goals simp [h1]

@[simp] theorem doRun_fixed (z0 : RingId) (z1 : Outst) (s : State) : (doRun z0 z1 s).1.fixed = s.fixed := by
  unfold doRun
  split
  · have h := startHost_fixed s
    split <;> simp_all
  · rfl

@[simp] theorem autonomousLoad_fixed (s : State) : (autonomousLoad s).2.fixed = s.fixed := by
  unfold autonomousLoad
  split
  · rename_i h
    have h1 := (congrArg (fun x => State.fixed (Prod.snd x)) h).symm.trans (startImage_fixed ..)
    simp [h1]
  · rename_i h
    have h1 := (congrArg (fun x => State.fixed (Prod.snd x)) h).symm.trans (startImage_fixed ..)
    dsimp only at h1 ⊢
    split
    · rename_i h2
      have h3 := (congrArg (fun x => State.fixed (Prod.snd x)) h2).symm.trans (savedSet_fixed ..)
      simp_all
    · rename_i h2
      have h3 := (congrArg (fun x => State.fixed (Prod.snd x)) h2).symm.trans (savedSet_fixed ..)
      split <;> simp_all

@[simp] theorem sendOuts_fixed (r : StraitId) (instant : Nat) (img : List (W32 × IoValue)) (s : State) : (sendOuts r instant img s).fixed = s.fixed := by
  unfold sendOuts
  simp

@[simp] theorem markSent_fixed (r : Release) (ring : StraitId) (s : State) : (markSent r ring s).fixed = s.fixed := by
  unfold markSent
  simp

@[simp] theorem sendRelease_fixed (r : Release) (s : State) : (sendRelease r s).fixed = s.fixed := by
  unfold sendRelease
  simp

@[simp] theorem sendTail_fixed (t : StopTail) (s : State) : (sendTail t s).fixed = s.fixed := by
  unfold sendTail
  simp

@[simp] theorem sendDue_fixed (s : State) : (sendDue s).fixed = s.fixed := by
  unfold sendDue
  repeat' split
  all_goals simp

@[simp] theorem setRole_fixed (p : PairState) (s : State) : (setRole p s).fixed = s.fixed := by
  unfold setRole
  simp

@[simp] theorem stopStandby_fixed (s : State) : (stopStandby s).fixed = s.fixed := by
  unfold stopStandby
  repeat' split
  all_goals simp

@[simp] theorem detach_fixed (fixed : Bool) (s : State) : (detach fixed s).fixed = s.fixed := by
  unfold detach
  simp

@[simp] theorem leaveSync_fixed (cause : Nat) (s : State) : (leaveSync cause s).fixed = s.fixed := by
  unfold leaveSync
  repeat' split
  all_goals simp

@[simp] theorem sendPrepare_fixed (r : StraitId) (m : ModeChange) (dst : Nat) (only : StationEntry → Bool) (s : State) : (sendPrepare r m dst only s).fixed = s.fixed := by
  unfold sendPrepare
  simp

@[simp] theorem sendCatchUp_fixed (r : StraitId) (n : Nat) (s : State) : (sendCatchUp r n s).fixed = s.fixed := by
  unfold sendCatchUp
  simp

@[simp] theorem catchUps_fixed (r : StraitId) (s : State) : (catchUps r s).fixed = s.fixed := by
  unfold catchUps
  simp

@[simp] theorem sendRequest_fixed (r : StraitId) (a : ATxn) (s : State) : (sendRequest r a s).fixed = s.fixed := by
  unfold sendRequest
  simp

@[simp] theorem openA_fixed (r : StraitId) (desc : Option (RingId × Nat)) (station modul op : Nat) (msg : List Byte) (space off deadline : Nat) (s : State) : (openA r desc station modul op msg space off deadline s).fixed = s.fixed := by
  unfold openA
  simp

@[simp] theorem closeA_fixed (r : StraitId) (a : ATxn) (s : State) : (closeA r a s).fixed = s.fixed := by
  unfold closeA
  simp

@[simp] theorem failA_fixed (r : StraitId) (a : ATxn) (status : Byte) (s : State) : (failA r a status s).fixed = s.fixed := by
  unfold failA
  repeat' split
  all_goals simp

@[simp] theorem setBreak_fixed (r : StraitId) (e w : Nat) (s : State) : (setBreak r e w s).fixed = s.fixed := by
  unfold setBreak
  simp

@[simp] theorem clearBreak_fixed (r : StraitId) (s : State) : (clearBreak r s).fixed = s.fixed := by
  unfold clearBreak
  repeat' split
  all_goals simp

@[simp] theorem addBreak_fixed (r : StraitId) (e w : Nat) (s : State) : (addBreak r e w s).fixed = s.fixed := by
  unfold addBreak
  simp

@[simp] theorem countRing_fixed (r : StraitId) (f : Ring → Ring) (s : State) : (countRing r f s).fixed = s.fixed := by
  unfold countRing
  simp

@[simp] theorem countDup_fixed (r : StraitId) (s : State) : (countDup r s).fixed = s.fixed := by
  unfold countDup
  simp

@[simp] theorem countOld_fixed (r : StraitId) (s : State) : (countOld r s).fixed = s.fixed := by
  unfold countOld
  simp

@[simp] theorem countCrc_fixed (r : StraitId) (s : State) : (countCrc r s).fixed = s.fixed := by
  unfold countCrc
  simp

@[simp] theorem countLate_fixed (r : StraitId) (s : State) : (countLate r s).fixed = s.fixed := by
  unfold countLate
  simp

@[simp] theorem countBad_fixed (r : StraitId) (s : State) : (countBad r s).fixed = s.fixed := by
  unfold countBad
  simp

@[simp] theorem countHops_fixed (r : StraitId) (s : State) : (countHops r s).fixed = s.fixed := by
  unfold countHops
  simp

@[simp] theorem forward_fixed (r : StraitId) (p : PortId) (bs : List Byte) (s : State) : (forward r p bs s).fixed = s.fixed := by
  unfold forward
  repeat' split
  all_goals simp

@[simp] theorem forwardBad_fixed (r : StraitId) (p : PortId) (bs : List Byte) (s : State) : (forwardBad r p bs s).fixed = s.fixed := by
  unfold forwardBad
  repeat' split
  all_goals simp

@[simp] theorem pushMessage_fixed (r : StraitId) (kind station : Nat) (payload : List Byte) (s : State) : (pushMessage r kind station payload s).fixed = s.fixed := by
  unfold pushMessage
  repeat' split
  all_goals simp

@[simp] theorem acceptIn_fixed (r : StraitId) (n : Nat) (f : Strait) (s : State) : (acceptIn r n f s).fixed = s.fixed := by
  unfold acceptIn
  repeat' split
  all_goals simp

@[simp] theorem acceptMessage_fixed (r : StraitId) (n : Nat) (f : Strait) (s : State) : (acceptMessage r n f s).fixed = s.fixed := by
  unfold acceptMessage
  repeat' split
  all_goals simp

@[simp] theorem judgeStandby_fixed (r : StraitId) (n : Nat) (counts : List Nat) (s : State) : (judgeStandby r n counts s).fixed = s.fixed := by
  unfold judgeStandby
  repeat' split
  all_goals simp

@[simp] theorem endA_fixed (r : StraitId) (a : ATxn) (status : Nat) (msg : List Byte) (s : State) : (endA r a status msg s).fixed = s.fixed := by
  unfold endA
  dsimp only
  repeat' split
  all_goals simp

@[simp] theorem acceptResponse_fixed (r : StraitId) (n : Nat) (f : Strait) (s : State) : (acceptResponse r n f s).fixed = s.fixed := by
  unfold acceptResponse
  repeat' split
  all_goals simp

@[simp] theorem markLag_fixed (r : StraitId) (n mEpoch : Nat) (s : State) : (markLag r n mEpoch s).fixed = s.fixed := by
  unfold markLag
  repeat' split
  all_goals simp

@[simp] theorem takeDivergence_fixed (r : StraitId) (n stream seq : Nat) (s : State) : (takeDivergence r n stream seq s).fixed = s.fixed := by
  unfold takeDivergence
  repeat' split
  all_goals simp

@[simp] theorem takeLagging_fixed (r : StraitId) (n : Nat) (f : Strait) (s : State) : (takeLagging r n f s).fixed = s.fixed := by
  unfold takeLagging
  simp

@[simp] theorem takeLinkReport_fixed (r : StraitId) (n : Nat) (west up : Bool) (s : State) : (takeLinkReport r n west up s).fixed = s.fixed := by
  unfold takeLinkReport
  repeat' split
  all_goals simp

@[simp] theorem acceptReport_fixed (r : StraitId) (n : Nat) (f : Strait) (s : State) : (acceptReport r n f s).fixed = s.fixed := by
  unfold acceptReport
  dsimp only
  repeat' split
  all_goals simp

@[simp] theorem acceptDiag_fixed (r : StraitId) (f : Strait) (s : State) : (acceptDiag r f s).fixed = s.fixed := by
  unfold acceptDiag
  simp

@[simp] theorem noteRestart_fixed (r : StraitId) (f : Strait) (identity : W64) (s : State) : (noteRestart r f identity s).fixed = s.fixed := by
  unfold noteRestart
  repeat' split
  all_goals simp

@[simp] theorem acceptReply_fixed (r : StraitId) (f : Strait) (s0 : State) : (acceptReply r f s0).fixed = s0.fixed := by
  unfold acceptReply
  simp

@[simp] theorem acceptAck_fixed (r : StraitId) (f : Strait) (s : State) : (acceptAck r f s).fixed = s.fixed := by
  unfold acceptAck
  dsimp only
  repeat' split
  all_goals simp

@[simp] theorem acceptMode_fixed (r : StraitId) (f : Strait) (s : State) : (acceptMode r f s).fixed = s.fixed := by
  unfold acceptMode
  repeat' split
  all_goals simp

@[simp] theorem followPartner_fixed (r : StraitId) (f : Strait) (s : State) : (followPartner r f s).fixed = s.fixed := by
  unfold followPartner
  repeat' split
  all_goals simp

@[simp] theorem acceptData_fixed (r : StraitId) (n : Nat) (f : Strait) (s : State) : (acceptData r n f s).fixed = s.fixed := by
  unfold acceptData
  repeat' split
  all_goals simp

@[simp] theorem setRef_fixed (r : StraitId) (n : Nat) (f : Strait) (s : State) : (setRef r n f s).fixed = s.fixed := by
  unfold setRef
  repeat' split
  all_goals simp

@[simp] theorem recordFrame_fixed (p : PortId) (f : Strait) (len : Nat) (s : State) : (recordFrame p f len s).fixed = s.fixed := by
  unfold recordFrame
  simp

@[simp] theorem recordEast_fixed (r : StraitId) (f : Strait) (len : Nat) (s : State) : (recordEast r f len s).fixed = s.fixed := by
  unfold recordEast
  simp

@[simp] theorem secondCopy_fixed (p : PortId) (r : StraitId) (n len : Nat) (f : Strait) (y : StreamRef) (s : State) : (secondCopy p r n len f y s).fixed = s.fixed := by
  unfold secondCopy
  simp

@[simp] theorem acceptSeq_fixed (p : PortId) (r : StraitId) (n len : Nat) (f : Strait) (y : StreamRef) (s : State) : (acceptSeq p r n len f y s).fixed = s.fixed := by
  unfold acceptSeq
  repeat' split
  all_goals simp

@[simp] theorem acceptTool_fixed (p : PortId) (r : StraitId) (len : Nat) (f : Strait) (s : State) : (acceptTool p r len f s).fixed = s.fixed := by
  unfold acceptTool
  simp

@[simp] theorem acceptStream_fixed (p : PortId) (r : StraitId) (len : Nat) (f : Strait) (s : State) : (acceptStream p r len f s).fixed = s.fixed := by
  unfold acceptStream
  repeat' split
  all_goals simp

@[simp] theorem acceptModeCopy_fixed (p : PortId) (r : StraitId) (len : Nat) (f : Strait) (s : State) : (acceptModeCopy p r len f s).fixed = s.fixed := by
  unfold acceptModeCopy
  simp

@[simp] theorem accept_fixed (p : PortId) (r : StraitId) (bs : List Byte) (s : State) : (accept p r bs s).fixed = s.fixed := by
  unfold accept
  simp

@[simp] theorem notePartner_fixed (r : StraitId) (bs : List Byte) (s : State) : (notePartner r bs s).fixed = s.fixed := by
  unfold notePartner
  repeat' split
  all_goals simp

@[simp] theorem takeStrait_fixed (p : PortId) (r : StraitId) (bs : List Byte) (s : State) : (takeStrait p r bs s).fixed = s.fixed := by
  unfold takeStrait
  simp

@[simp] theorem countFcs_fixed (p : PortId) (s : State) : (countFcs p s).fixed = s.fixed := by
  unfold countFcs
  simp

@[simp] theorem receiveOn_fixed (p : PortId) (r : StraitId) (bad : Bool) (bs : List Byte) (s : State) : (receiveOn p r bad bs s).fixed = s.fixed := by
  unfold receiveOn
  repeat' split
  all_goals simp

@[simp] theorem dropStation_fixed (r : StraitId) (n cause : Nat) (s : State) : (dropStation r n cause s).fixed = s.fixed := by
  unfold dropStation
  repeat' split
  all_goals simp

@[simp] theorem restoreStation_fixed (r : StraitId) (n : Nat) (s : State) : (restoreStation r n s).fixed = s.fixed := by
  unfold restoreStation
  simp

@[simp] theorem missCycle_fixed (r : StraitId) (n : Nat) (s : State) : (missCycle r n s).fixed = s.fixed := by
  unfold missCycle
  simp

@[simp] theorem takeCycle_fixed (r : StraitId) (n : Nat) (f : InFrame) (s : State) : (takeCycle r n f s).fixed = s.fixed := by
  unfold takeCycle
  repeat' split
  all_goals simp

@[simp] theorem settleStation_fixed (r : StraitId) (e : StationEntry) (agreed : Bool) (s : State) : (settleStation r e agreed s).fixed = s.fixed := by
  unfold settleStation
  dsimp only
  repeat' split
  all_goals simp

@[simp] theorem settleCycle_fixed (r : StraitId) (map : BitVec 256) (s : State) : (settleCycle r map s).fixed = s.fixed := by
  unfold settleCycle
  simp

@[simp] theorem settleAgreed_fixed (r : StraitId) (a : AcceptedRec) (s : State) : (settleAgreed r a s).fixed = s.fixed := by
  unfold settleAgreed
  simp

@[simp] theorem dueRing_fixed (r : StraitId) (s : State) : (dueRing r s).fixed = s.fixed := by
  unfold dueRing
  dsimp only
  repeat' split
  all_goals simp

@[simp] theorem endInaug_fixed (r : StraitId) (d : Done) (s : State) : (endInaug r d s).fixed = s.fixed := by
  unfold endInaug
  repeat' split
  all_goals simp

@[simp] theorem refuseInaug_fixed (r : StraitId) (n : Nat) (s : State) : (refuseInaug r n s).fixed = s.fixed := by
  unfold refuseInaug
  simp

@[simp] theorem beginInaug_fixed (r : StraitId) (l : List (Option DiscReply)) (s : State) : (beginInaug r l s).fixed = s.fixed := by
  unfold beginInaug
  repeat' split
  all_goals simp

@[simp] theorem abortInaug_fixed (r : StraitId) (m : ModeChange) (s : State) : (abortInaug r m s).fixed = s.fixed := by
  unfold abortInaug
  simp

@[simp] theorem decideInaug_fixed (r : StraitId) (m : ModeChange) (s : State) : (decideInaug r m s).fixed = s.fixed := by
  unfold decideInaug
  repeat' split
  all_goals simp

@[simp] theorem applyNumbering_fixed (r : StraitId) (m : ModeChange) (l : List (Option DiscReply)) (s : State) : (applyNumbering r m l s).fixed = s.fixed := by
  unfold applyNumbering
  simp
  repeat' first | (simp; done) | split | (refine Eq.trans (foldl_fixed _ (fun s x => ?_) _ _) ?_)

@[simp] theorem settleMode_fixed (r : StraitId) (s : State) : (settleMode r s).fixed = s.fixed := by
  unfold settleMode
  repeat' split
  all_goals simp

@[simp] theorem settleModes_fixed (s : State) : (settleModes s).fixed = s.fixed := by
  unfold settleModes
  simp

@[simp] theorem endCatchUp_fixed (r : StraitId) (n : Nat) (s : State) : (endCatchUp r n s).fixed = s.fixed := by
  unfold endCatchUp
  dsimp only
  repeat' split
  all_goals simp

@[simp] theorem endCatchUps_fixed (r : StraitId) (s : State) : (endCatchUps r s).fixed = s.fixed := by
  unfold endCatchUps
  simp

@[simp] theorem sendHeld_fixed (r : StraitId) (h : HeldFrame) (s : State) : (sendHeld r h s).fixed = s.fixed := by
  unfold sendHeld
  repeat' split
  all_goals simp

@[simp] theorem flushHeld_fixed (r : StraitId) (s : State) : (flushHeld r s).fixed = s.fixed := by
  unfold flushHeld
  simp

@[simp] theorem flushGate_fixed (r : StraitId) (s : State) : (flushGate r s).fixed = s.fixed := by
  unfold flushGate
  simp

@[simp] theorem gateTick_fixed (s : State) : (gateTick s).fixed = s.fixed := by
  unfold gateTick
  simp

@[simp] theorem sendMode_fixed (r : StraitId) (s : State) : (sendMode r s).fixed = s.fixed := by
  unfold sendMode
  repeat' split
  all_goals simp

@[simp] theorem noteHops_fixed (r : StraitId) (l : List DiscReply) (s : State) : (noteHops r l s).fixed = s.fixed := by
  unfold noteHops
  simp

@[simp] theorem noteBreak_fixed (r : StraitId) (l : List DiscReply) (s : State) : (noteBreak r l s).fixed = s.fixed := by
  unfold noteBreak
  repeat' split
  all_goals simp

@[simp] theorem evaluate_fixed (r : StraitId) (s : State) : (evaluate r s).fixed = s.fixed := by
  unfold evaluate
  simp

@[simp] theorem sendDiscover_fixed (r : StraitId) (s : State) : (sendDiscover r s).fixed = s.fixed := by
  unfold sendDiscover
  simp

@[simp] theorem discoverRing_fixed (r : StraitId) (s : State) : (discoverRing r s).fixed = s.fixed := by
  unfold discoverRing
  repeat' split
  all_goals simp

@[simp] theorem expireInaug_fixed (r : StraitId) (s : State) : (expireInaug r s).fixed = s.fixed := by
  unfold expireInaug
  dsimp only
  repeat' split
  all_goals simp

@[simp] theorem doNetStatus_fixed (e : Outst) (s : State) : (doNetStatus e s).1.fixed = s.fixed := by
  unfold doNetStatus
  repeat' split
  all_goals simp

@[simp] theorem doNetCounters_fixed (e : Outst) (s : State) : (doNetCounters e s).1.fixed = s.fixed := by
  unfold doNetCounters
  repeat' split
  all_goals simp

@[simp] theorem doNetASend_fixed (q : RingId) (dma : List Byte) (e : Outst) (s : State) : (doNetASend q dma e s).1.fixed = s.fixed := by
  unfold doNetASend
  dsimp only
  repeat' split
  all_goals simp

@[simp] theorem expireA_fixed (r : StraitId) (a : ATxn) (s : State) : (expireA r a s).fixed = s.fixed := by
  unfold expireA
  simp

@[simp] theorem doNetARecv_fixed (e : Outst) (s : State) : (doNetARecv e s).1.fixed = s.fixed := by
  unfold doNetARecv
  repeat' split
  all_goals simp

@[simp] theorem doNetRawSend_fixed (dma : List Byte) (e : Outst) (s : State) : (doNetRawSend dma e s).1.fixed = s.fixed := by
  unfold doNetRawSend
  dsimp only
  repeat' split
  all_goals simp

@[simp] theorem doNetRawRecv_fixed (e : Outst) (s : State) : (doNetRawRecv e s).1.fixed = s.fixed := by
  unfold doNetRawRecv
  repeat' split
  all_goals simp

@[simp] theorem doNetInaugurate_fixed (q : RingId) (e : Outst) (s : State) : (doNetInaugurate q e s).1.fixed = s.fixed := by
  unfold doNetInaugurate
  dsimp only
  repeat' split
  all_goals simp

@[simp] theorem doNetStationInfo_fixed (q : RingId) (e : Outst) (s : State) : (doNetStationInfo q e s).1.fixed = s.fixed := by
  unfold doNetStationInfo
  dsimp only
  repeat' split
  all_goals simp

@[simp] theorem modTable_fixed (n : Fin 16) (f : Table → Table) (s : State) : (modTable n f s).fixed = s.fixed := by
  unfold modTable
  simp

@[simp] theorem loadTable_fixed (n : Fin 16) (k : Nat) (salt : W32) (offset at_ : Nat) (ways : List BucketWay) (s : State) : (loadTable n k salt offset at_ ways s).fixed = s.fixed := by
  unfold loadTable
  simp

@[simp] theorem raiseTable_fixed (n : Fin 16) (gen at_ : Nat) (ways : List BucketWay) (s : State) : (raiseTable n gen at_ ways s).fixed = s.fixed := by
  unfold raiseTable
  simp

@[simp] theorem unloadTable_fixed (n : Fin 16) (at_ : Nat) (s : State) : (unloadTable n at_ s).fixed = s.fixed := by
  unfold unloadTable
  simp

@[simp] theorem takeTable_fixed (i : MirrorItem) (s : State) : (takeTable i s).fixed = s.fixed := by
  unfold takeTable
  repeat' split
  all_goals simp

@[simp] theorem forwardTable_fixed (i : MirrorItem) (s : State) : (forwardTable i s).fixed = s.fixed := by
  unfold forwardTable
  repeat' split
  all_goals simp

theorem serveTable_fixed (q : RingId) (op : Nat) (plan : Outst → Nat → State → TblChange) (s : State) :
    (serveTable q op plan s).fixed = s.fixed := by
  unfold serveTable
  repeat' split
  · rfl
  · exact serve_fixed _ _ _ _ fun e s => rfl
  · exact serveMirrored_fixed _ _ _ _ _ _ fun e s => by simp

@[simp] theorem doTblInfo_fixed (e : Outst) (s : State) : (doTblInfo e s).1.fixed = s.fixed := by
  unfold doTblInfo
  repeat' split
  all_goals simp

@[simp] theorem repairTable_fixed (n : Fin 16) (s : State) : (repairTable n s).fixed = s.fixed := by
  unfold repairTable
  dsimp only
  repeat' split
  all_goals simp

@[simp] theorem freeWays_fixed (n : Fin 16) (s : State) : (freeWays n s).fixed = s.fixed := by
  unfold freeWays
  simp

@[simp] theorem sendState_fixed (i : StateItem) (s : State) : (sendState i s).fixed = s.fixed := by
  unfold sendState
  simp

@[simp] theorem sendBank_fixed (b : Fin 2) (s : State) : (sendBank b s).fixed = s.fixed := by
  unfold sendBank
  dsimp only
  repeat' split
  all_goals simp

@[simp] theorem sendConfig_fixed (s : State) : (sendConfig s).fixed = s.fixed := by
  unfold sendConfig
  simp

@[simp] theorem sendTables_fixed (s : State) : (sendTables s).fixed = s.fixed := by
  unfold sendTables
  simp

@[simp] theorem sendLines_fixed (is : List Nat) (s : State) : (sendLines is s).fixed = s.fixed := by
  unfold sendLines
  simp

@[simp] theorem joinTick_fixed (s : State) : (joinTick s).fixed = s.fixed := by
  unfold joinTick
  repeat' split
  all_goals simp

@[simp] theorem beginJoin_fixed (s : State) : (beginJoin s).fixed = s.fixed := by
  unfold beginJoin
  repeat' split
  all_goals simp

@[simp] theorem serveJoin_fixed (s : State) : (serveJoin s).fixed = s.fixed := by
  unfold serveJoin
  repeat' split
  all_goals simp

@[simp] theorem sendRings_fixed (s : State) : (sendRings s).fixed = s.fixed := by
  unfold sendRings
  simp

@[simp] theorem sendFinal_fixed (s : State) : (sendFinal s).fixed = s.fixed := by
  unfold sendFinal
  simp

@[simp] theorem noteStep_fixed (n : Nat) (s : State) : (noteStep n s).fixed = s.fixed := by
  unfold noteStep
  simp

@[simp] theorem enterJoining_fixed (s : State) : (enterJoining s).fixed = s.fixed := by
  unfold enterJoining
  simp

@[simp] theorem takeImage_fixed (bank : Nat) (active : Bool) (bs : List Byte) (s : State) : (takeImage bank active bs s).fixed = s.fixed := by
  unfold takeImage
  repeat' split
  all_goals simp

@[simp] theorem takeMap_fixed (bank : Nat) (bs : List Byte) (s : State) : (takeMap bank bs s).fixed = s.fixed := by
  unfold takeMap
  simp

@[simp] theorem takeTableItem_fixed (table k : Nat) (salt : W32) (offset gen : Nat) (ways : List BucketWay) (s : State) : (takeTableItem table k salt offset gen ways s).fixed = s.fixed := by
  unfold takeTableItem
  simp

@[simp] theorem takeAnchor_fixed (ct : Nat) (s : State) : (takeAnchor ct s).fixed = s.fixed := by
  unfold takeAnchor
  simp

@[simp] theorem takeForce_fixed (sym : W32) (value : List Byte) (at_ : Nat) (s : State) : (takeForce sym value at_ s).fixed = s.fixed := by
  unfold takeForce
  simp

@[simp] theorem placeLine_fixed (i : Nat) (bs : List Byte) (s : State) : (placeLine i bs s).fixed = s.fixed := by
  unfold placeLine
  simp

@[simp] theorem takeStation_fixed (r : StraitId) (n : Nat) (f : Station → Station) (s : State) : (takeStation r n f s).fixed = s.fixed := by
  unfold takeStation
  simp

@[simp] theorem takeItem_fixed (i : StateItem) (s : State) : (takeItem i s).fixed = s.fixed := by
  unfold takeItem
  repeat' split
  all_goals simp

@[simp] theorem takeStateCell_fixed (i : StateItem) (s : State) : (takeStateCell i s).fixed = s.fixed := by
  unfold takeStateCell
  repeat' split
  all_goals simp

@[simp] theorem mirroredWork_fixed (q : RingId) (c : PairCell) (e : Outst) (s : State) : (mirroredWork q c e s).1.fixed = s.fixed := by
  unfold mirroredWork
  dsimp only
  repeat' split
  all_goals simp

@[simp] theorem runMirrored_fixed (c : PairCell) (ct : Nat) (s : State) : (runMirrored c ct s).fixed = s.fixed := by
  unfold runMirrored
  dsimp only
  split
  · rfl
  · split
    · simp
    · split
      all_goals
        rename_i h
        have h1 := (congrArg (fun x => State.fixed (Prod.fst x)) h).symm.trans (mirroredWork_fixed ..)
        simp [h1]

@[simp] theorem flushCell_fixed (c : PairCell) (s : State) : (flushCell c s).fixed = s.fixed := by
  unfold flushCell
  repeat' split
  all_goals simp

@[simp] theorem flushMirrors_fixed (s : State) : (flushMirrors s).fixed = s.fixed := by
  unfold flushMirrors
  repeat' split
  all_goals simp

@[simp] theorem forgetCounts_fixed (s : State) : (forgetCounts s).fixed = s.fixed := by
  unfold forgetCounts
  simp

@[simp] theorem goAlone_fixed (rejoin : Bool) (s : State) : (goAlone rejoin s).fixed = s.fixed := by
  unfold goAlone
  simp

@[simp] theorem startClaim_fixed (s : State) : (startClaim s).fixed = s.fixed := by
  unfold startClaim
  simp

@[simp] theorem claimIf_fixed (s : State) : (claimIf s).fixed = s.fixed := by
  unfold claimIf
  repeat' split
  all_goals simp

@[simp] theorem tryClaim_fixed (s : State) : (tryClaim s).fixed = s.fixed := by
  unfold tryClaim
  repeat' split
  all_goals simp

@[simp] theorem checkInterlock_fixed (s : State) : (checkInterlock s).fixed = s.fixed := by
  unfold checkInterlock
  repeat' split
  all_goals simp

@[simp] theorem jumpClassA_fixed (s : State) : (jumpClassA s).fixed = s.fixed := by
  unfold jumpClassA
  simp

@[simp] theorem raiseFloors_fixed (s : State) : (raiseFloors s).fixed = s.fixed := by
  unfold raiseFloors
  simp

@[simp] theorem endUndecided_fixed (s : State) : (endUndecided s).fixed = s.fixed := by
  unfold endUndecided
  repeat' split
  all_goals simp

@[simp] theorem endInaugs_fixed (s : State) : (endInaugs s).fixed = s.fixed := by
  unfold endInaugs
  simp
  repeat' first | (simp; done) | split | (refine Eq.trans (foldl_fixed _ (fun s x => ?_) _ _) ?_)

@[simp] theorem startAsActive_fixed (s : State) : (startAsActive s).fixed = s.fixed := by
  unfold startAsActive
  repeat' split
  all_goals simp

@[simp] theorem takeOver_fixed (s : State) : (takeOver s).fixed = s.fixed := by
  unfold takeOver
  simp

@[simp] theorem activated_fixed (s : State) : (activated s).fixed = s.fixed := by
  unfold activated
  simp

@[simp] theorem becomeActive_fixed (s : State) : (becomeActive s).fixed = s.fixed := by
  unfold becomeActive
  simp

@[simp] theorem giveWay_fixed (s : State) : (giveWay s).fixed = s.fixed := by
  unfold giveWay
  repeat' split
  all_goals simp

@[simp] theorem bothToggle_fixed (s : State) : (bothToggle s).fixed = s.fixed := by
  unfold bothToggle
  repeat' split
  all_goals simp

@[simp] theorem proceed_fixed (s : State) : (proceed s).fixed = s.fixed := by
  unfold proceed
  repeat' split
  all_goals simp

@[simp] theorem trackHealth_fixed (s : State) : (trackHealth s).fixed = s.fixed := by
  unfold trackHealth
  repeat' split
  all_goals simp

@[simp] theorem endClassA_fixed (s : State) : (endClassA s).fixed = s.fixed := by
  unfold endClassA
  simp

@[simp] theorem refuseHeld_fixed (since : Nat) (s : State) : (refuseHeld since s).fixed = s.fixed := by
  unfold refuseHeld
  simp

@[simp] theorem giveUp_fixed (h : Handover) (s : State) : (giveUp h s).fixed = s.fixed := by
  unfold giveUp
  simp

@[simp] theorem tryHandOver_fixed (s : State) : (tryHandOver s).fixed = s.fixed := by
  unfold tryHandOver
  repeat' split
  all_goals simp

@[simp] theorem beginHandOver_fixed (desc : Option (RingId × Nat)) (s : State) : (beginHandOver desc s).fixed = s.fixed := by
  unfold beginHandOver
  simp

@[simp] theorem endHandOver_fixed (s : State) : (endHandOver s).fixed = s.fixed := by
  unfold endHandOver
  repeat' split
  all_goals simp

@[simp] theorem doPairStatus_fixed (e : Outst) (s : State) : (doPairStatus e s).1.fixed = s.fixed := by
  unfold doPairStatus
  repeat' split
  all_goals simp

@[simp] theorem doPairSwitch_fixed (q : RingId) (e : Outst) (s : State) : (doPairSwitch q e s).1.fixed = s.fixed := by
  unfold doPairSwitch
  repeat' split
  all_goals simp

@[simp] theorem doPairJoin_fixed (z0 : Outst) (s : State) : (doPairJoin z0 s).1.fixed = s.fixed := by
  unfold doPairJoin
  dsimp only
  repeat' split
  all_goals simp

@[simp] theorem detachPair_fixed (s : State) : (detachPair s).fixed = s.fixed := by
  unfold detachPair
  repeat' split
  all_goals simp

@[simp] theorem doPairDetach_fixed (z0 : Outst) (s : State) : (doPairDetach z0 s).1.fixed = s.fixed := by
  unfold doPairDetach
  dsimp only
  repeat' split
  all_goals simp

@[simp] theorem doPairRevertArm_fixed (z0 : Outst) (s : State) : (doPairRevertArm z0 s).1.fixed = s.fixed := by
  unfold doPairRevertArm
  simp

@[simp] theorem noteCell_fixed (seq : Nat) (s : State) : (noteCell seq s).fixed = s.fixed := by
  unfold noteCell
  simp

theorem takeCell_fixed (seq : Nat) (f : State → State) (hf : ∀ s, (f s).fixed = s.fixed) (s : State) :
    (takeCell seq f s).fixed = s.fixed := by
  unfold takeCell
  repeat' split
  all_goals simp [hf]

@[simp] theorem failLink_fixed (cause : Nat) (s : State) : (failLink cause s).fixed = s.fixed := by
  unfold failLink
  repeat' split
  all_goals simp

@[simp] theorem repeatCell_fixed (c : PairCell) (s : State) : (repeatCell c s).fixed = s.fixed := by
  unfold repeatCell
  simp

@[simp] theorem sendPreferred_fixed (s : State) : (sendPreferred s).fixed = s.fixed := by
  unfold sendPreferred
  repeat' split
  all_goals simp

@[simp] theorem pollPair_fixed (s : State) : (pollPair s).fixed = s.fixed := by
  unfold pollPair
  simp

@[simp] theorem noteDeparture_fixed (ct : Nat) (st : PairState) (s : State) : (noteDeparture ct st s).fixed = s.fixed := by
  unfold noteDeparture
  repeat' split
  all_goals simp

@[simp] theorem noteAlone_fixed (ct : Nat) (st : PairState) (s : State) : (noteAlone ct st s).fixed = s.fixed := by
  unfold noteAlone
  repeat' split
  all_goals simp

@[simp] theorem noteJoin_fixed (st : PairState) (s : State) : (noteJoin st s).fixed = s.fixed := by
  unfold noteJoin
  repeat' split
  all_goals simp

@[simp] theorem takeHeartbeat_fixed (ct : Nat) (st : PairState) (z2 : Bool) (mark : Nat) (down : List PortId) (s : State) : (takeHeartbeat ct st z2 mark down s).fixed = s.fixed := by
  unfold takeHeartbeat
  repeat' split
  all_goals simp

@[simp] theorem takeAccepted_fixed (r : StraitId) (a : AcceptedRec) (s : State) : (takeAccepted r a s).fixed = s.fixed := by
  unfold takeAccepted
  dsimp only
  repeat' split
  all_goals simp

@[simp] theorem takeRecognised_fixed (task ct : Nat) (s : State) : (takeRecognised task ct s).fixed = s.fixed := by
  unfold takeRecognised
  repeat' split
  all_goals simp

@[simp] theorem dropModes_fixed (s : State) : (dropModes s).fixed = s.fixed := by
  unfold dropModes
  simp

@[simp] theorem takeDecision_fixed (commit : Bool) (s : State) : (takeDecision commit s).fixed = s.fixed := by
  unfold takeDecision
  repeat' split
  all_goals simp

@[simp] theorem standbyApply_fixed (num : Byte) (x dT : Nat) (mapped : Option (W64 × W32)) (s : State) : (standbyApply num x dT mapped s).fixed = s.fixed := by
  unfold standbyApply
  repeat' split
  all_goals simp

@[simp] theorem takeMirroredImage_fixed (bank : Nat) (bs : List Byte) (s : State) : (takeMirroredImage bank bs s).fixed = s.fixed := by
  unfold takeMirroredImage
  repeat' split
  all_goals simp

@[simp] theorem takeMirroredForce_fixed (q : RingId) (sym : W32) (v : List Byte) (s : State) : (takeMirroredForce q sym v s).fixed = s.fixed := by
  unfold takeMirroredForce
  repeat' split
  all_goals simp

@[simp] theorem compareRetentive_fixed (task cycle : Nat) (crc : W32) (s : State) : (compareRetentive task cycle crc s).fixed = s.fixed := by
  unfold compareRetentive
  repeat' split
  all_goals simp

@[simp] theorem takeKey_fixed (page : Nat) (body : List Byte) (s : State) : (takeKey page body s).fixed = s.fixed := by
  unfold takeKey
  repeat' split
  all_goals simp

@[simp] theorem takePage_fixed (page : Nat) (body : List Byte) (s : State) : (takePage page body s).fixed = s.fixed := by
  unfold takePage
  simp

@[simp] theorem takeShared_fixed (off : Nat) (w : W32) (s : State) : (takeShared off w s).fixed = s.fixed := by
  unfold takeShared
  repeat' split
  all_goals simp

@[simp] theorem takeMirrored_fixed (i : MirrorItem) (s : State) : (takeMirrored i s).fixed = s.fixed := by
  unfold takeMirrored
  repeat' split
  all_goals simp

@[simp] theorem takeMirror_fixed (i : MirrorItem) (source : Option (RingId × Nat)) (s : State) : (takeMirror i source s).fixed = s.fixed := by
  unfold takeMirror
  repeat' split
  all_goals simp

@[simp] theorem cellAcked_fixed (c : PairCell) (ct : Nat) (s : State) : (cellAcked c ct s).fixed = s.fixed := by
  unfold cellAcked
  repeat' split
  all_goals simp

@[simp] theorem syncFrom_fixed (o : Int) (s : State) : (syncFrom o s).fixed = s.fixed := by
  unfold syncFrom
  repeat' split
  all_goals simp

@[simp] theorem noteDiscard_fixed (q : RingId) (n : Nat) (s : State) : (noteDiscard q n s).fixed = s.fixed := by
  unfold noteDiscard
  repeat' split
  all_goals simp

@[simp] theorem enableRing_fixed (q : RingId) (w : W32) (s : State) : (enableRing q w s).fixed = s.fixed := by
  unfold enableRing
  simp

@[simp] theorem abortWaiting_fixed (q : RingId) (s : State) : (abortWaiting q s).fixed = s.fixed := by
  unfold abortWaiting
  simp

@[simp] theorem disableRing_fixed (q : RingId) (w : W32) (s : State) : (disableRing q w s).fixed = s.fixed := by
  unfold disableRing
  repeat' split
  all_goals simp

@[simp] theorem resetRing_fixed (q : RingId) (w : W32) (s : State) : (resetRing q w s).fixed = s.fixed := by
  unfold resetRing
  simp

@[simp] theorem stopRing_fixed (q : RingId) (cause : Nat) (s : State) : (stopRing q cause s).fixed = s.fixed := by
  unfold stopRing
  repeat' split
  all_goals simp

@[simp] theorem dmaFault_fixed (q : RingId) (cause : Nat) (slot : Option Nat) (s : State) : (dmaFault q cause slot s).fixed = s.fixed := by
  unfold dmaFault
  repeat' split
  all_goals simp

@[simp] theorem writeSqTail_fixed (q : RingId) (w : W32) (s : State) : (writeSqTail q w s).fixed = s.fixed := by
  unfold writeSqTail
  simp

@[simp] theorem writeCqHead_fixed (q : RingId) (w : W32) (s : State) : (writeCqHead q w s).fixed = s.fixed := by
  unfold writeCqHead
  simp

@[simp] theorem doorbellWrite_fixed (off : Nat) (width : Width) (w : W32) (s : State) : (doorbellWrite off width w s).fixed = s.fixed := by
  unfold doorbellWrite
  repeat' split
  all_goals simp

@[simp] theorem enterService_fixed (q : RingId) (num : Nat) (s : State) : (enterService q num s).fixed = s.fixed := by
  unfold enterService
  simp

@[simp] theorem dispatch_fixed (q : RingId) (e : Outst) (s : State) : (dispatch q e s).fixed = s.fixed := by
  unfold dispatch
  repeat' split
  all_goals simp

@[simp] theorem fetchFrom_fixed (q : RingId) (bytes dma : List Byte) (s : State) : (fetchFrom q bytes dma s).fixed = s.fixed := by
  unfold fetchFrom
  simp

@[simp] theorem clearFence_fixed (q : RingId) (e : Outst) (s : State) : (clearFence q e s).fixed = s.fixed := by
  unfold clearFence
  simp

@[simp] theorem clearDead_fixed (q : RingId) (s : State) : (clearDead q s).fixed = s.fixed := by
  unfold clearDead
  simp

@[simp] theorem writeBack_fixed (r : RingPair) (e : Outst) (d : Done) (ct : Nat) (s : State) : (writeBack r e d ct s).fixed = s.fixed := by
  unfold writeBack
  repeat' split
  all_goals simp

@[simp] theorem sendRingVector_fixed (q : RingId) (s : State) : (sendRingVector q s).fixed = s.fixed := by
  unfold sendRingVector
  simp

@[simp] theorem moderate_fixed (q : RingId) (irq : Bool) (s : State) : (moderate q irq s).fixed = s.fixed := by
  unfold moderate
  simp

@[simp] theorem clearCauses_fixed (w : W32) (s : State) : (clearCauses w s).fixed = s.fixed := by
  unfold clearCauses
  simp

@[simp] theorem unmaskVector_fixed (v : Fin 64) (s : State) : (unmaskVector v s).fixed = s.fixed := by
  unfold unmaskVector
  simp

@[simp] theorem sendHeldAlarm_fixed (s : State) : (sendHeldAlarm s).fixed = s.fixed := by
  unfold sendHeldAlarm
  repeat' split
  all_goals simp

@[simp] theorem doRingStatus_fixed (e : Outst) (s : State) : (doRingStatus e s).1.fixed = s.fixed := by
  unfold doRingStatus
  repeat' split
  all_goals simp

@[simp] theorem doBulkAlloc_fixed (e : Outst) (s : State) : (doBulkAlloc e s).1.fixed = s.fixed := by
  unfold doBulkAlloc
  dsimp only
  repeat' split
  all_goals simp

@[simp] theorem doBulkFree_fixed (e : Outst) (s : State) : (doBulkFree e s).1.fixed = s.fixed := by
  unfold doBulkFree
  repeat' split
  all_goals simp

@[simp] theorem doBulkCopy_fixed (dma : List Byte) (e : Outst) (s : State) : (doBulkCopy dma e s).1.fixed = s.fixed := by
  unfold doBulkCopy
  dsimp only
  repeat' split
  all_goals simp

@[simp] theorem failPages_fixed (q : RingId) (num : Nat) (s : State) : (failPages q num s).fixed = s.fixed := by
  unfold failPages
  simp

@[simp] theorem chooseSlot_fixed (slot : Nat) (s : State) : (chooseSlot slot s).fixed = s.fixed := by
  unfold chooseSlot
  repeat' split
  all_goals simp

@[simp] theorem endPrgSave_fixed (q : RingId) (num slot : Nat) (active : Bool) (s : State) : (endPrgSave q num slot active s).fixed = s.fixed := by
  unfold endPrgSave
  dsimp only
  repeat' split
  all_goals simp

@[simp] theorem endFwuBlock_fixed (q : RingId) (num : Nat) (s : State) : (endFwuBlock q num s).fixed = s.fixed := by
  unfold endFwuBlock
  simp

@[simp] theorem pageEnded_fixed (r : PageReq) (good : Bool) (s : State) : (pageEnded r good s).fixed = s.fixed := by
  unfold pageEnded
  repeat' split
  all_goals simp

@[simp] theorem servePage_fixed (fails : Nat) (s : State) : (servePage fails s).fixed = s.fixed := by
  unfold servePage
  repeat' split
  all_goals simp

@[simp] theorem storePage_fixed (n : Nat) (s : State) : (storePage n s).2.fixed = s.fixed := by
  unfold storePage
  repeat' split
  all_goals simp

@[simp] theorem storePages_fixed (x0 : Nat) (x1 : Nat) (x2 : State) : (storePages x0 x1 x2).2.fixed = x2.fixed := by
  fun_induction storePages <;> simp_all +zetaDelta

@[simp] theorem checkReads_fixed (given : List Byte) (x0 : List (Fin 3)) (x1 : State) : (checkReads given x0 x1).2.fixed = x1.fixed := by
  fun_induction checkReads <;> simp_all +zetaDelta

@[simp] theorem doPstRead_fixed (e : Outst) (s : State) : (doPstRead e s).1.fixed = s.fixed := by
  unfold doPstRead
  dsimp only
  repeat' split
  all_goals simp

@[simp] theorem trailersOf_fixed (n : Nat) (s : State) : (trailersOf n s).2.fixed = s.fixed := by
  unfold trailersOf
  repeat' split
  all_goals simp

@[simp] theorem trailersFrom_fixed (x0 : Nat) (x1 : Nat) (x2 : State) : (trailersFrom x0 x1 x2).2.fixed = x2.fixed := by
  fun_induction trailersFrom <;> simp_all +zetaDelta

@[simp] theorem doPstInfo_fixed (e : Outst) (s : State) : (doPstInfo e s).1.fixed = s.fixed := by
  unfold doPstInfo
  dsimp only
  repeat' split
  all_goals simp

@[simp] theorem checkChange_fixed (r : Fin 3) (readToo : Bool) (read write : List Byte) (s : State) : (checkChange r readToo read write s).2.fixed = s.fixed := by
  unfold checkChange
  dsimp only
  repeat' split
  all_goals simp

@[simp] theorem doPstPwdSet_fixed (q : RingId) (dma : List Byte) (e : Outst) (s : State) : (doPstPwdSet q dma e s).1.fixed = s.fixed := by
  unfold doPstPwdSet
  dsimp only
  repeat' split
  all_goals simp

@[simp] theorem doPstRetSave_fixed (z0 : Outst) (s : State) : (doPstRetSave z0 s).1.fixed = s.fixed := by
  unfold doPstRetSave
  repeat' split
  all_goals simp

@[simp] theorem doPstRetInfo_fixed (z0 : Outst) (s : State) : (doPstRetInfo z0 s).1.fixed = s.fixed := by
  unfold doPstRetInfo
  repeat' split
  all_goals simp

@[simp] theorem rtcEvent_fixed (cls : Nat) (detail : W64) (s : State) : (rtcEvent cls detail s).fixed = s.fixed := by
  unfold rtcEvent
  repeat' split
  all_goals simp

@[simp] theorem fireAlarm_fixed (skipped : Bool) (s : State) : (fireAlarm skipped s).fixed = s.fixed := by
  unfold fireAlarm
  repeat' split
  all_goals simp

@[simp] theorem judgeAdjust_fixed (old : Calendar) (s : State) : (judgeAdjust old s).fixed = s.fixed := by
  unfold judgeAdjust
  simp

@[simp] theorem writeAlarmCtrl_fixed (w : W32) (s : State) : (writeAlarmCtrl w s).fixed = s.fixed := by
  unfold writeAlarmCtrl
  simp

@[simp] theorem clearValid_fixed (s : State) : (clearValid s).fixed = s.fixed := by
  unfold clearValid
  simp

@[simp] theorem secondPasses_fixed (s : State) : (secondPasses s).fixed = s.fixed := by
  unfold secondPasses
  simp

@[simp] theorem setCalendar_fixed (c : Calendar) (sync : Bool) (s : State) : (setCalendar c sync s).fixed = s.fixed := by
  unfold setCalendar
  repeat' split
  all_goals simp

@[simp] theorem accepted_fixed (dateToo : Bool) (s : State) : (accepted dateToo s).fixed = s.fixed := by
  unfold accepted
  simp

@[simp] theorem writeRtcDate_fixed (w : W32) (s : State) : (writeRtcDate w s).fixed = s.fixed := by
  unfold writeRtcDate
  simp

@[simp] theorem refuseTime_fixed (s : State) : (refuseTime s).fixed = s.fixed := by
  unfold refuseTime
  simp

@[simp] theorem writeRtcTime_fixed (w : W32) (s : State) : (writeRtcTime w s).fixed = s.fixed := by
  unfold writeRtcTime
  simp

@[simp] theorem writeHalt_fixed (halt : Bool) (s : State) : (writeHalt halt s).fixed = s.fixed := by
  unfold writeHalt
  repeat' split
  all_goals simp

@[simp] theorem applySync_fixed (t : Nat) (s : State) : (applySync t s).fixed = s.fixed := by
  unfold applySync
  repeat' split
  all_goals simp

@[simp] theorem compareSync_fixed (s : State) : (compareSync s).fixed = s.fixed := by
  unfold compareSync
  simp

@[simp] theorem unreadable_fixed (s : State) : (unreadable s).fixed = s.fixed := by
  unfold unreadable
  simp

@[simp] theorem syncRead_fixed (s : State) : (syncRead s).fixed = s.fixed := by
  unfold syncRead
  repeat' split
  all_goals simp

@[simp] theorem takeCorrection_fixed (temp : Int) (s : State) : (takeCorrection temp s).fixed = s.fixed := by
  unfold takeCorrection
  simp

@[simp] theorem rtcLoss_fixed (s : State) : (rtcLoss s).fixed = s.fixed := by
  unfold rtcLoss
  repeat' split
  all_goals simp

@[simp] theorem seedTime_fixed (ct : Nat) (source : BitVec 2) (q : Quality) (s : State) : (seedTime ct source q s).fixed = s.fixed := by
  unfold seedTime
  repeat' split
  all_goals simp

@[simp] theorem seedFromCalendar_fixed (s : State) : (seedFromCalendar s).fixed = s.fixed := by
  unfold seedFromCalendar
  repeat' split
  all_goals simp

@[simp] theorem assertReset_fixed (kind : Nat) (s : State) : (assertReset kind s).fixed = s.fixed := by
  unfold assertReset
  simp

@[simp] theorem noteKind_fixed (kind : Nat) (s : State) : (noteKind kind s).fixed = s.fixed := by
  unfold noteKind
  repeat' split
  all_goals simp

@[simp] theorem supplyReset_fixed (mv : W16) (s : State) : (supplyReset mv s).fixed = s.fixed := by
  unfold supplyReset
  repeat' split
  all_goals simp

@[simp] theorem readFuses_fixed (pairId agree : Bool) (s : State) : (readFuses pairId agree s).fixed = s.fixed := by
  simp [readFuses, State.fixed, State.modFuse, State.modSys]

@[simp] theorem restoreKey_fixed (s : State) : (restoreKey s).fixed = s.fixed := by
  unfold restoreKey
  simp

@[simp] theorem powerEvents_fixed (s : State) : (powerEvents s).fixed = s.fixed := by
  unfold powerEvents
  repeat' split
  all_goals simp

@[simp] theorem recoverAll_fixed (s : State) : (recoverAll s).fixed = s.fixed := by
  unfold recoverAll
  dsimp only
  repeat' first | (simp; done) | split | refine foldl_fixed _ (fun s x => ?_) _ _

@[simp] theorem failStep_fixed (n : Nat) (s : State) : (failStep n s).fixed = s.fixed := by
  unfold failStep
  repeat' split
  all_goals simp

@[simp] theorem loadFirmware_fixed (s : State) : (loadFirmware s).fixed = s.fixed := by
  unfold loadFirmware
  simp

@[simp] theorem restartRecord_fixed (s : State) : (restartRecord s).fixed = s.fixed := by
  unfold restartRecord
  simp

@[simp] theorem powerUp_fixed (pairId fusesAgree storeOk marchOk : Bool) (s : State) : (powerUp pairId fusesAgree storeOk marchOk s).fixed = s.fixed := by
  unfold powerUp
  repeat' split
  all_goals simp

@[simp] theorem releaseChip_fixed (s : State) : (releaseChip s).fixed = s.fixed := by
  unfold releaseChip
  repeat' split
  all_goals simp

@[simp] theorem laneResults_fixed (none_ : Bool) (laneParts : Vector Byte 3) (micros : W16) (s : State) : (laneResults none_ laneParts micros s).fixed = s.fixed := by
  unfold laneResults
  repeat' split
  all_goals simp

@[simp] theorem blockResults_fixed (failed : List (Nat × Nat)) (pattern : Option (Fin 778)) (delay : Nat) (s : State) : (blockResults failed pattern delay s).fixed = s.fixed := by
  unfold blockResults
  repeat' split
  all_goals simp

@[simp] theorem endSelfTest_fixed (millis : W16) (s : State) : (endSelfTest millis s).fixed = s.fixed := by
  unfold endSelfTest
  simp

@[simp] theorem startedEvent_fixed (how : Nat) (s : State) : (startedEvent how s).fixed = s.fixed := by
  unfold startedEvent
  simp

@[simp] theorem afterSelfTest_fixed (s : State) : (afterSelfTest s).fixed = s.fixed := by
  unfold afterSelfTest
  simp

@[simp] theorem failSelfTest_fixed (failed : List (Nat × Nat)) (s : State) : (failSelfTest failed s).fixed = s.fixed := by
  unfold failSelfTest
  repeat' split
  all_goals simp

@[simp] theorem requestRestart_fixed (kind : Nat) (s : State) : (requestRestart kind s).fixed = s.fixed := by
  unfold requestRestart
  simp

@[simp] theorem dueRestart_fixed (s : State) : (dueRestart s).fixed = s.fixed := by
  unfold dueRestart
  repeat' split
  all_goals simp

@[simp] theorem idle_fixed (s : State) : (idle s).fixed = s.fixed := by
  unfold idle
  simp

@[simp] theorem doSysRestart_fixed (z0 : Outst) (s : State) : (doSysRestart z0 s).1.fixed = s.fixed := by
  unfold doSysRestart
  repeat' split
  all_goals simp

@[simp] theorem writeSysCmd_fixed (w : W32) (s : State) : (writeSysCmd w s).fixed = s.fixed := by
  unfold writeSysCmd
  repeat' split
  all_goals simp

@[simp] theorem doStartInfo_fixed (z0 : Outst) (s : State) : (doStartInfo z0 s).1.fixed = s.fixed := by
  unfold doStartInfo
  simp

@[simp] theorem doFuseProgram_fixed (vpp : Bool) (e : Outst) (s : State) : (doFuseProgram vpp e s).1.fixed = s.fixed := by
  unfold doFuseProgram
  dsimp only
  split
  · rfl
  · rw [event_fixed]
    simp only [State.fixed, programFuse, State.modFuse]
    split <;> rfl

@[simp] theorem touchFwu_fixed (s : State) : (touchFwu s).fixed = s.fixed := by
  unfold touchFwu
  simp

theorem serveFwu_fixed (q : RingId) (op : Nat) (s : State) (f : Outst → State → State × Work)
    (hf : ∀ e s, (f e s).1.fixed = s.fixed) : (serveFwu q op s f).fixed = s.fixed :=
  serve_fixed q op s _ fun e s => (hf e _).trans (touchFwu_fixed s)

@[simp] theorem doFwuBegin_fixed (e : Outst) (s : State) : (doFwuBegin e s).1.fixed = s.fixed := by
  unfold doFwuBegin
  dsimp only
  repeat' split
  all_goals simp

@[simp] theorem queueBlock_fixed (q : RingId) (num : Nat) (i : Fin 2) (index : Nat) (bs : List Byte) (s : State) : (queueBlock q num i index bs s).fixed = s.fixed := by
  unfold queueBlock
  simp

@[simp] theorem doFwuBlock_fixed (q : RingId) (dma : List Byte) (e : Outst) (s : State) : (doFwuBlock q dma e s).1.fixed = s.fixed := by
  unfold doFwuBlock
  dsimp only
  repeat' split
  all_goals simp

@[simp] theorem closeTransfer_fixed (i : Fin 2) (f : FwSlot → FwSlot) (s : State) : (closeTransfer i f s).fixed = s.fixed := by
  unfold closeTransfer
  simp

@[simp] theorem doFwuVerify_fixed (z0 : Outst) (s : State) : (doFwuVerify z0 s).1.fixed = s.fixed := by
  unfold doFwuVerify
  dsimp only
  repeat' split
  all_goals simp

@[simp] theorem doFwuAbort_fixed (z0 : Outst) (s : State) : (doFwuAbort z0 s).1.fixed = s.fixed := by
  unfold doFwuAbort
  repeat' split
  all_goals simp

@[simp] theorem doFwuActivate_fixed (q : RingId) (e : Outst) (s : State) : (doFwuActivate q e s).1.fixed = s.fixed := by
  unfold doFwuActivate
  repeat' split
  all_goals simp

@[simp] theorem beginPause_fixed (i : Fin 2) (fallback : Bool) (s : State) : (beginPause i fallback s).fixed = s.fixed := by
  unfold beginPause
  repeat' split
  all_goals simp

@[simp] theorem beginTrial_fixed (i : Fin 2) (s : State) : (beginTrial i s).fixed = s.fixed := by
  unfold beginTrial
  simp

@[simp] theorem abandonActivation_fixed (i : Fin 2) (s : State) : (abandonActivation i s).fixed = s.fixed := by
  unfold abandonActivation
  simp

@[simp] theorem endFallback_fixed (i : Fin 2) (intact : Bool) (s : State) : (endFallback i intact s).fixed = s.fixed := by
  unfold endFallback
  repeat' split
  all_goals simp

@[simp] theorem pauseResult_fixed (i : Fin 2) (intact : Bool) (s : State) : (pauseResult i intact s).fixed = s.fixed := by
  unfold pauseResult
  repeat' split
  all_goals simp

@[simp] theorem endActivate_fixed (intact : Bool) (us : Nat) (s : State) : (endActivate intact us s).fixed = s.fixed := by
  unfold endActivate
  repeat' split
  all_goals simp

@[simp] theorem doFwuConfirm_fixed (z0 : Outst) (s : State) : (doFwuConfirm z0 s).1.fixed = s.fixed := by
  unfold doFwuConfirm
  repeat' split
  all_goals simp

@[simp] theorem confirmTrial_fixed (s : State) : (confirmTrial s).fixed = s.fixed := by
  unfold confirmTrial
  repeat' split
  all_goals simp

@[simp] theorem fallBack_fixed (s : State) : (fallBack s).fixed = s.fixed := by
  unfold fallBack
  simp

@[simp] theorem doFwuStatus_fixed (z0 : Outst) (s : State) : (doFwuStatus z0 s).1.fixed = s.fixed := by
  unfold doFwuStatus
  simp

@[simp] theorem skipSave_fixed (s : State) : (skipSave s).fixed = s.fixed := by
  unfold skipSave
  simp

@[simp] theorem writeSave_fixed (fails : Nat) (s : State) : (writeSave fails s).fixed = s.fixed := by
  unfold writeSave
  simp

@[simp] theorem doMtrRead_fixed (e : Outst) (s : State) : (doMtrRead e s).1.fixed = s.fixed := by
  unfold doMtrRead
  repeat' split
  all_goals simp

@[simp] theorem doMtrHarm_fixed (e : Outst) (s : State) : (doMtrHarm e s).1.fixed = s.fixed := by
  unfold doMtrHarm
  repeat' split
  all_goals simp

@[simp] theorem doMtrPreset_fixed (q : RingId) (dma : List Byte) (e : Outst) (s : State) : (doMtrPreset q dma e s).1.fixed = s.fixed := by
  unfold doMtrPreset
  dsimp only
  repeat' split
  all_goals simp

@[simp] theorem latchRead_fixed (off : Nat) (s : State) : (latchRead off s).fixed = s.fixed := by
  unfold latchRead
  repeat' split
  all_goals simp

@[simp] theorem holdWrite_fixed (off : Nat) (w : W32) (s : State) : (holdWrite off w s).fixed = s.fixed := by
  unfold holdWrite
  repeat' split
  all_goals simp

@[simp] theorem takeHeld_fixed (off : Nat) (s : State) : (takeHeld off s).2.fixed = s.fixed := by
  unfold takeHeld
  simp

@[simp] theorem writeBase_fixed (off : Nat) (w : W32) (s : State) : (writeBase off w s).fixed = s.fixed := by
  unfold writeBase
  repeat' split
  all_goals simp

@[simp] theorem writeAlarm_fixed (w : W32) (s : State) : (writeAlarm w s).fixed = s.fixed := by
  unfold writeAlarm
  repeat' split
  all_goals simp

@[simp] theorem pairEnabled_fixed (was : Bool) (s : State) : (pairEnabled was s).fixed = s.fixed := by
  unfold pairEnabled
  repeat' split
  all_goals simp

@[simp] theorem wdgEnabled_fixed (s : State) : (wdgEnabled s).fixed = s.fixed := by
  unfold wdgEnabled
  repeat' split
  all_goals simp

@[simp] theorem writeRwpReg_fixed (off : Nat) (w : W32) (s : State) : (writeRwpReg off w s).fixed = s.fixed := by
  unfold writeRwpReg
  repeat' split
  all_goals simp

@[simp] theorem writeRws_fixed (off : Nat) (w : W32) (s : State) : (writeRws off w s).fixed = s.fixed := by
  unfold writeRws
  repeat' split
  all_goals simp

@[simp] theorem writeRing_fixed (off : Nat) (w : W32) (s : State) : (writeRing off w s).fixed = s.fixed := by
  unfold writeRing
  repeat' split
  all_goals simp

@[simp] theorem writeMsix_fixed (off : Nat) (w : W32) (s : State) : (writeMsix off w s).fixed = s.fixed := by
  unfold writeMsix
  repeat' split
  all_goals simp

@[simp] theorem writeRw_fixed (off : Nat) (w : W32) (s : State) : (writeRw off w s).fixed = s.fixed := by
  unfold writeRw
  simp

@[simp] theorem regWrite_fixed (off : Nat) (w : W32) (s : State) : (regWrite off w s).fixed = s.fixed := by
  unfold regWrite
  repeat' split
  all_goals simp

@[simp] theorem countUncorr_fixed (l : LaneId) (s : State) : (countUncorr l s).fixed = s.fixed := by
  unfold countUncorr
  simp

@[simp] theorem countBufErr_fixed (r : StraitId) (s : State) : (countBufErr r s).fixed = s.fixed := by
  unfold countBufErr
  simp

@[simp] theorem dropFrame_fixed (r : StraitId) (b : NetBuffer) (s : State) : (dropFrame r b s).fixed = s.fixed := by
  unfold dropFrame
  repeat' split
  all_goals simp

@[simp] theorem spoilSnapshot_fixed (task cycle : Nat) (pts : List W32) (s : State) : (spoilSnapshot task cycle pts s).fixed = s.fixed := by
  unfold spoilSnapshot
  simp

@[simp] theorem spoilRecord_fixed (l : LaneId) (i : Nat) (s : State) : (spoilRecord l i s).fixed = s.fixed := by
  unfold spoilRecord
  repeat' split
  all_goals simp

@[simp] theorem spoilImage_fixed (id : W64) (s : State) : (spoilImage id s).fixed = s.fixed := by
  unfold spoilImage
  simp

@[simp] theorem poisonWay_fixed (n : Fin 16) (b w : Nat) (s : State) : (poisonWay n b w s).fixed = s.fixed := by
  unfold poisonWay
  repeat' split
  all_goals simp

@[simp] theorem spoilTrace_fixed (seq : W32) (s : State) : (spoilTrace seq s).fixed = s.fixed := by
  unfold spoilTrace
  simp

@[simp] theorem spoilBulk_fixed (off : Nat) (s : State) : (spoilBulk off s).fixed = s.fixed := by
  unfold spoilBulk
  repeat' split
  all_goals simp

@[simp] theorem escalate_fixed (p : DamagePlace) (s : State) : (escalate p s).fixed = s.fixed := by
  unfold escalate
  repeat' split
  all_goals simp

end Sys2Proof.Machine
end

