-- ==== Sys2Proof/Laws/Memory.lean ====
section
/-! SUPPORT. The byte memory: what a write makes each address read as, and that every operation keeps the canonical form. -/

namespace Sys2Proof.Machine

@[simp] theorem memGet_nil (a : Nat) : memGet a [] = Memory.blank := rfl

theorem memGet_cons (a x : Nat) (b : Byte) (r : Memory) : memGet a ((x, b) :: r) = if a = x then b else memGet a r := rfl

/-- Below every listed address a memory reads as blank. -/
theorem memGet_of_above {a : Nat} : ∀ {m : Memory}, memAbove a m = true → memGet a m = Memory.blank
  | [], _ => rfl
  | (x, b) :: r, h => by
    simp only [memAbove, List.all_cons, Bool.and_eq_true, decide_eq_true_eq] at h
    rw [memGet_cons, if_neg (by omega)]
    exact memGet_of_above h.2

theorem memAbove_mono {a c : Nat} (hac : a ≤ c) {m : Memory} (h : memAbove c m = true) : memAbove a m = true := by
  simp only [memAbove, List.all_eq_true, decide_eq_true_eq] at h ⊢
  exact fun x hx => Nat.lt_of_le_of_lt hac (h x hx)

theorem memCons_wf {a : Nat} {b : Byte} {r : Memory} (ha : memAbove a r = true) (hr : r.wf = true) : (memCons a b r).wf = true := by
  unfold memCons
  split
  · exact hr
  · rename_i hb
    simp [Memory.wf, ha, hr, hb]

theorem memGet_memCons {a : Nat} {b : Byte} {r : Memory} (ha : memAbove a r = true) (x : Nat) :
    memGet x (memCons a b r) = if x = a then b else memGet x r := by
  unfold memCons
  split
  · rename_i hb
    split
    · rename_i hx; subst hx; rw [memGet_of_above ha, hb]
    · rfl
  · rfl

theorem memAbove_memSet {a c : Nat} (b : Byte) (hc : c < a) : ∀ {m : Memory}, memAbove c m = true → memAbove c (memSet a b m) = true
  | [], _ => by
    unfold memSet memCons
    split <;> simp [memAbove, hc]
  | (x, y) :: r, h => by
    have h' := h
    simp only [memAbove, List.all_cons, Bool.and_eq_true, decide_eq_true_eq] at h'
    unfold memSet
    split
    · unfold memCons; split
      · exact h
      · simp only [memAbove, List.all_cons, Bool.and_eq_true, decide_eq_true_eq]; exact ⟨hc, h'.1, h'.2⟩
    · split
      · unfold memCons; split
        · exact h'.2
        · simp only [memAbove, List.all_cons, Bool.and_eq_true, decide_eq_true_eq]; exact ⟨hc, h'.2⟩
      · have := memAbove_memSet b hc (m := r) h'.2
        simp only [memAbove, List.all_cons, Bool.and_eq_true, decide_eq_true_eq] at this ⊢
        exact ⟨h'.1, this⟩

/-- A write keeps the canonical form. -/
theorem memSet_wf (a : Nat) (b : Byte) : ∀ {m : Memory}, m.wf = true → (memSet a b m).wf = true
  | [], _ => memCons_wf rfl rfl
  | (x, y) :: r, h => by
    have h' := h
    simp only [Memory.wf, Bool.and_eq_true] at h'
    unfold memSet
    split
    · rename_i hax
      refine memCons_wf ?_ h
      simp only [memAbove, List.all_cons, Bool.and_eq_true, decide_eq_true_eq]
      exact ⟨hax, by simpa [memAbove] using memAbove_mono (Nat.le_of_lt hax) h'.1.1⟩
    · split
      · rename_i _ hax; subst hax; exact memCons_wf h'.1.1 h'.2
      · simp only [Memory.wf, Bool.and_eq_true]
        exact ⟨⟨memAbove_memSet b (by omega) h'.1.1, h'.1.2⟩, memSet_wf a b h'.2⟩

/-- A write of one byte changes what its address reads as, and nothing else. -/
theorem memGet_memSet (a : Nat) (b : Byte) (x : Nat) : ∀ {m : Memory}, m.wf = true →
    memGet x (memSet a b m) = if x = a then b else memGet x m
  | [], _ => memGet_memCons rfl x
  | (y, c) :: r, h => by
    have h' := h
    simp only [Memory.wf, Bool.and_eq_true] at h'
    unfold memSet
    split
    · rename_i hax
      refine memGet_memCons ?_ x
      simp only [memAbove, List.all_cons, Bool.and_eq_true, decide_eq_true_eq]
      exact ⟨hax, by simpa [memAbove] using memAbove_mono (Nat.le_of_lt hax) h'.1.1⟩
    · split
      · rename_i _ hay; subst hay
        rw [memGet_memCons h'.1.1, memGet_cons]
        split <;> rfl
      · rename_i _ hay
        rw [memGet_cons, memGet_cons, memGet_memSet a b x h'.2]
        by_cases hxy : x = y
        · have : x ≠ a := by omega
          simp [hxy, this]; intro hh; exact absurd hh.symm hay
        · simp [hxy]

/-- A write of a list of bytes keeps the canonical form. -/
theorem memWrite_wf (bs : List Byte) : ∀ (a : Nat) {m : Memory}, m.wf = true → (memWrite m a bs).wf = true := by
  induction bs with
  | nil => exact fun _ _ h => h
  | cons b bs ih => exact fun a _ h => ih (a + 1) (memSet_wf a b h)

@[simp] theorem memRead_length (m : Memory) (n : Nat) : ∀ a : Nat, (memRead m a n).length = n := by
  induction n with
  | zero => exact fun _ => rfl
  | succ n ih => intro a; simp [memRead, ih]

/-- A read is of what each address reads as. -/
theorem memRead_getElem? (m : Memory) (n : Nat) : ∀ (a i : Nat), i < n → (memRead m a n)[i]? = some (memGet (a + i) m) := by
  induction n with
  | zero => exact fun _ _ h => absurd h (by omega)
  | succ n ih =>
    intro a i h
    cases i with
    | zero => simp [memRead]
    | succ i =>
      have := ih (a + 1) i (by omega)
      simp only [memRead, List.getElem?_cons_succ, this]
      congr 2; omega

end Sys2Proof.Machine
end

