-- ==== Sys2Proof/WellFormed.lean ====
section
/-! DEFINITION. The operands that the spec's widths and ranges allow, command by command. A command that fails its check is one that no
sender can form; `exec` is total all the same. -/

namespace Sys2Proof

/-- The bytes of an access. -/
def Width.bytes : Width → Nat
  | .byte => 1
  | .half => 2
  | .word => 4

/-- The offset of a register of BAR0: below 1 MiB and on a 4-byte boundary (R8, R46). -/
def regOk (off : Nat) : Bool := decide (off < 0x100000) && decide (off % 4 = 0)

/-- A chip time, or another value of 64 bits. -/
def wordOk (n : Nat) : Bool := decide (n < 18446744073709551616)

/-- An Ethernet frame without its FCS: 60 to 1,518 bytes, a VLAN tag included. -/
def frameOk (bs : List Byte) : Bool := decide (60 ≤ bs.length) && decide (bs.length ≤ 1518)

/-- The place exists: a scratchpad has 12 MiB (R33), the retentive shadow 32 KiB (R34), a bucket two ways (R146). -/
def DamagePlace.ok : DamagePlace → Bool
  | .scratchpad _ off => decide (off.toNat < 0xC00000)
  | .retentiveShadow off => decide (off.toNat < 0x8000)
  | .tableWay _ _ way => decide (way < 2)
  | .serviceMemory => true
  | .networkBuffer _ _ => true
  | .snapshot _ _ _ => true
  | .effectBuffer _ _ => true
  | .otherSram => true
  | .imageStore _ => true
  | .traceRecord _ => true
  | .bulk _ => true

/-- The operands of a command lie within the widths and ranges that the spec gives them. -/
def Instr.wellFormed (i : Instr) : Bool :=
  match i with
  | .pairReadLatch off => regOk off
  | .pairWriteHold off _ => regOk off
  | .registerWrite off width _ => decide (off < 0x100000) && decide (off % width.bytes = 0)
  | .rwsWrite off _ => regOk off
  | .laneFreqMeasure _ khz => decide (khz < 2097152)
  | .laneSupplyFault _ r => decide (r.mv < 65536)
  | .transferUncorrectable place failed => place.ok && decide (failed ≤ 4)
  | .sramScrub _ bad => bad.all DamagePlace.ok
  | .dramPatrolScrub found => found.bad.all DamagePlace.ok
  | .syncReceived _ m => decide (m.domain < 256)
  | .announceReceived _ m => decide (m.domain < 256)
  | .timSet _ => true
  | .traceDrain _ => true
  | .cmtRead _ _ => true
  | .cmtMark _ => true
  | .cmtResume _ => true
  | .cmtStatusRead _ => true
  | .bundleIssue _ _ _ => true
  | .aluAdd _ _ _ => true
  | .aluSub _ _ _ => true
  | .aluAnd _ _ _ => true
  | .aluOr _ _ _ => true
  | .aluXor _ _ _ => true
  | .aluShl _ _ _ => true
  | .aluShr _ _ _ => true
  | .aluSar _ _ _ => true
  | .aluMul _ _ _ => true
  | .aluEq _ _ _ => true
  | .aluNe _ _ _ => true
  | .aluLt _ _ _ => true
  | .aluLtu _ _ _ => true
  | .aluLe _ _ _ => true
  | .aluLeu _ _ _ => true
  | .aluMin _ _ _ => true
  | .aluMax _ _ _ => true
  | .aluPass _ _ _ => true
  | .bitLd _ _ _ => true
  | .bitAnd _ _ _ => true
  | .bitOr _ _ _ => true
  | .bitXor _ _ _ => true
  | .bitAndn _ _ _ => true
  | .bitOrn _ _ _ => true
  | .bitOpen _ _ _ => true
  | .bitClose _ _ _ => true
  | .bitSt _ _ _ => true
  | .bitSet _ _ _ => true
  | .bitRst _ _ _ => true
  | .bitInv _ _ _ => true
  | .bitLdv _ _ _ => true
  | .tmrTon _ _ _ => true
  | .tmrTof _ _ _ => true
  | .tmrTp _ _ _ => true
  | .tmrTacc _ _ _ => true
  | .tmrTrst _ _ _ => true
  | .edgRise _ _ _ => true
  | .edgFall _ _ _ => true
  | .blkMove _ _ _ => true
  | .blkFill _ _ _ => true
  | .blkCmp _ _ _ => true
  | .blkScan _ _ _ => true
  | .tblLookup _ _ _ _ => true
  | .tblLookupDone _ _ _ => true
  | .imgRd _ _ _ => true
  | .imgWr _ _ _ => true
  | .lsLd _ _ _ _ => true
  | .lsSt _ _ _ _ => true
  | .brAbs _ _ _ => true
  | .brRel _ _ _ => true
  | .brCall _ _ _ => true
  | .brRet _ _ _ => true
  | .tskEnd _ _ => true
  | .tblLoad _ _ => true
  | .tblUpdate _ _ => true
  | .tblUnload _ => true
  | .tblInfo _ => true
  | .taskRelease _ => true
  | .eventTaskRelease _ => true
  | .snapshotDelivery _ => true
  | .snapshotCopyDone _ => true
  | .run _ => true
  | .stop _ => true
  | .taskTrigger _ => true
  | .taskStatus _ => true
  | .varRead _ _ => true
  | .varWrite _ _ => true
  | .forceSet _ _ => true
  | .forceClear _ => true
  | .forceList _ => true
  | .forceClearAll _ => true
  | .budgetOverrun _ _ => true
  | .errorTaskOverrun _ _ => true
  | .laneDeadline _ => true
  | .prgLoad _ _ => true
  | .prgMapLoad _ _ => true
  | .prgSwitchStage _ => true
  | .prgRelease _ => true
  | .prgStatus _ => true
  | .prgSave _ => true
  | .prgKeySet _ _ => true
  | .recordCopyArrival _ _ _ => true
  | .laneSelfTestDone _ part _ => decide (part.toNat ≤ 6)
  | .resyncFinalCopy _ _ => true
  | .resyncStarved _ => true
  | .laneStatus _ => true
  | .laneRetest _ => true
  | .laneExclude _ => true
  | .laneRejoin _ => true
  | .votInject _ _ => true
  | .portLinkChange _ _ speed _ => speed == 100 || speed == 1000
  | .frameReceive _ _ bytes => frameOk bytes
  | .gateOpen _ => true
  | .netStatus _ => true
  | .netASend _ _ => true
  | .netARecv _ => true
  | .netInaugurate _ => true
  | .netStationInfo _ => true
  | .netCounters _ => true
  | .netRawSend _ _ => true
  | .netRawRecv _ => true
  | .backboneFrameReceive _ bytes => frameOk bytes
  | .gateClose _ => true
  | .narrowsHeartbeat _ ct _ _ _ => wordOk ct
  | .narrowsMirror _ _ _ => true
  | .narrowsEdges _ changes => changes.all fun c => decide (c.point < 128) && wordOk c.ct
  | .narrowsAccepted _ _ due _ _ => wordOk due
  | .narrowsRecognised _ task ct => decide (task < 256) && wordOk ct
  | .narrowsState _ _ => true
  | .relinquish _ => true
  | .revertReq _ => true
  | .roleDecision _ _ => true
  | .narrowsDelayMeasure _ => true
  | .narrowsLinkUp feats _ => feats.length == 8
  | .ilkTestPulse _ => true
  | .joinFinalCopy _ => true
  | .pairStatus _ => true
  | .pairSwitch _ => true
  | .pairJoin _ => true
  | .pairDetach _ => true
  | .pairRevertArm _ => true
  | .narrowsCellAck _ ct => wordOk ct
  | .hifReset _ => true
  | .dmaTimeout _ _ => true
  | .dmaError _ _ _ => true
  | .ringEnable _ _ => true
  | .ringDisable _ _ => true
  | .ringReset _ _ => true
  | .sqTailDoorbell _ _ => true
  | .cqHeadDoorbell _ _ => true
  | .descriptorFetch bytes _ => bytes.length == 64
  | .completionPost _ => true
  | .coalTimer _ => true
  | .irqCauseClear _ => true
  | .msixUnmask _ => true
  | .nop _ => true
  | .timeRead _ => true
  | .moduleInfo _ => true
  | .ringStatus _ => true
  | .bulkAlloc _ => true
  | .bulkFree _ => true
  | .bulkCopy _ _ => true
  | .pcieLinkUp width rate => (width == 1 || width == 2 || width == 4) && (rate == 1 || rate == 2 || rate == 3)
  | .pciePowerStateChange _ => true
  | .pcieUncorrectableError _ => true
  | .txnOpen _ => true
  | .txnStage _ _ => true
  | .txnCheck _ => true
  | .txnApply _ => true
  | .txnAbandon _ => true
  | .txnStatus _ => true
  | .txnRead _ => true
  | .configSave _ => true
  | .barrierRefresh _ => true
  | .barrierEcho _ _ => true
  | .barrierFault cause => cause != 0
  | .fieldInputChange _ _ => true
  | .pulsedSample _ _ => true
  | .debounceExpiry _ => true
  | .wireBreakSet _ => true
  | .wireBreakClear _ => true
  | .thermalShutdown _ => true
  | .thermalRestart _ => true
  | .latchOffRelease _ => true
  | .readbackDiscrepancy _ => true
  | .groupOverload _ _ => true
  | .sagLevel1 _ _ => true
  | .sagLevel2 _ _ => true
  | .sagRestore _ _ => true
  | .meterSample x => x.toList.all fun v => decide (v.natAbs ≤ 1073741824)
  | .streamLost _ => true
  | .streamRestored _ => true
  | .zcLost _ => true
  | .pqValueRefresh _ => true
  | .energySave _ _ => true
  | .mtrRead _ => true
  | .mtrHarm _ => true
  | .mtrPreset _ _ => true
  | .pageWrite _ => true
  | .trailerScan _ => true
  | .backoffEnd _ => true
  | .powerFailWarning _ => true
  | .pstRead _ => true
  | .pstInfo _ => true
  | .pstPwdSet _ _ => true
  | .pstRetSave _ => true
  | .pstRetInfo _ => true
  | .evrRecordWrite _ _ _ => true
  | .evrWriteRepeat _ _ => true
  | .evrRead _ => true
  | .evrStatusRead _ => true
  | .rtcSubRead _ => true
  | .rtcDateRead _ => true
  | .rtcTimeRead _ => true
  | .rtcFreezeTimeout _ => true
  | .rtcDateWrite _ => true
  | .rtcTimeWrite _ => true
  | .rtcHalt _ => true
  | .rtcAlarmArm _ => true
  | .rtcCompensation temp => decide (-32768 ≤ temp) && decide (temp ≤ 32767)
  | .vbatCheck _ => true
  | .wdgService _ => true
  | .supplyReset _ => true
  | .overTemperature _ _ => true
  | .powerUpRelease _ _ _ _ => true
  | .builtInSelfTest failed _ _ _ => failed.blocks.all fun p => decide (1 ≤ p.1) && decide (p.1 ≤ 7)
  | .sysRestart _ => true
  | .sysCmdRestart _ => true
  | .sysStartInfo _ => true
  | .fuseProgram _ _ => true
  | .fwuBegin _ => true
  | .fwuBlock _ _ => true
  | .fwuVerify _ => true
  | .fwuActivate _ => true
  | .servicePauseEnd _ => true
  | .fwuConfirm _ => true
  | .fwuAbort _ => true
  | .fwuStatusRead _ => true
  | .announceReceiptTimeout _ => true
  | .pdelayMessageReceived _ _ => true
  | .ptpMessageTransmit _ _ => true
  | .outputCurrentLimit _ _ => true
  | .readbackDiscrepancyClear _ => true
  | .syncReceiptTimeout => true
  | .holdoverExpiry => true
  | .chipTimeSeed => true
  | .chipTimeSave => true
  | .refclkFaultSet => true
  | .refclkFaultClear => true
  | .traceLossRecord => true
  | .traceFreeze => true
  | .tableWayFree => true
  | .eventRecognised => true
  | .cutOff => true
  | .outputInstant => true
  | .forceInstant => true
  | .autonomousStart => true
  | .stopComplete => true
  | .varReadCapture => true
  | .varWriteTimeout => true
  | .switchCommit => true
  | .switchInstant => true
  | .oneLaneHourly => true
  | .oneLaneExpired => true
  | .oneLaneAllowanceSave => true
  | .streamSilence => true
  | .dueInstant => true
  | .aResponseTimeout => true
  | .discoverRound => true
  | .inaugurationTimeout => true
  | .catchUpRepeat => true
  | .standbyFrameCheck => true
  | .heartbeatSend => true
  | .cellRepeat => true
  | .narrowsSilence => true
  | .narrowsLockLoss => true
  | .ilkInToggling => true
  | .ilkInStopped => true
  | .claimBackoffEnd => true
  | .claimComplete => true
  | .ilkPulseMissing => true
  | .pairStartTimeout => true
  | .joinTimeout => true
  | .activeAloneEntry => true
  | .standbyDetach => true
  | .revertHoldOff => true
  | .retentiveCrcMirror => true
  | .ilkTestPulseReceived => true
  | .revertWaitTimeout => true
  | .revertRateWindowExpiry => true
  | .fenceClear => true
  | .txnDecision => true
  | .txnApplyInstant => true
  | .txnIdleTimeout => true
  | .fieldSafeTimeout => true
  | .fieldEdgeReport => true
  | .fieldOutputCommand => true
  | .fieldOutputApply => true
  | .measurementIntervalEnd => true
  | .rwpRecordWrite => true
  | .pageRefresh => true
  | .warningRearm => true
  | .rtcSecond => true
  | .rtcPhaseStep => true
  | .rtcSync => true
  | .vbatLost => true
  | .oscStop => true
  | .watchdogStart => true
  | .wdgExpiry => true
  | .restartStampExpiry => true
  | .vinPresent => true
  | .vinAbsent => true
  | .externalReset => true
  | .servicePauseStart => true
  | .firmwareConfirmed => true
  | .firmwareTrialTimeout => true
  | .fwuIdleTimeout => true

end Sys2Proof
end

