-- ==== Sys2Proof/Tests/Slice0.lean ====
section
/-! SUPPORT. Tests of one command each, ill-formed terms for each check of WellFormed, and for each statement of Obligations states and operands that meet the hypotheses of its clauses, at the values where clauses meet. -/

set_option maxRecDepth 20000

namespace Sys2Proof.Tests

open Sys2Proof.Machine

/-! ## Small states -/

/-- The state after reset. -/
def base : State := State.reset

/-- A descriptor with an opcode, a buffer length and its PARAM bytes from byte 24 up. -/
def theDesc (op len : Nat) (par : List Byte) : Outst :=
  { num := 0, slot := 0,
    desc := { opcode := BitVec.ofNat 8 op, flags := 0, tag := 0, len := len, deadline := 0, buf := 0, param := fitTo 40 par },
    fetchCt := 0, bound := none, admitted := true, fenced := false, waiting := false, ended := none, doneCt := none }

/-- A state in which ring pair 0 has that descriptor ready for work. -/
def serving (op len : Nat) (par : List Byte) (s : State) : State :=
  s.modHif fun h => { h with rings := vmod h.rings 0 fun r => { r with outst := [theDesc op len par] }, svc := [(0, 0)] }

/-- The descriptor is the one the command serves, with the authority it needs. -/
abbrev Served (op len : Nat) (par : List Byte) (s : State) : Prop :=
  readyDesc 0 op (serving op len par s) = some (theDesc op len par) ∧ withoutAuthority (serving op len par s) (theDesc op len par) = false

/-- Device time and chip time at a number of ns. -/
def atNs (n : Nat) (s : State) : State := s.modClk fun c => { c with now := n, ct := n, opNs := n }

/-- Ring pair 0 enabled with sixteen slots each. -/
def ringOn (s : State) : State := modRing 0 (fun r => { r with enable := true, sqLog2 := 4, cqLog2 := 4 }) s

/-- The self-test has ended and the link is up. -/
def booted (s : State) : State :=
  (s.modSys fun y => { y with step := 7, selfTestEnded := true, inReset := false, vinPresent := true }).modHif fun h =>
    { h with linkUp := true, bme := true }

/-- A run state. -/
def inRun (r : RunState) (s : State) : State := s.modSys fun y => { y with run := r }

/-- A pair member in a pair state. -/
def paired (p : PairState) (s : State) : State :=
  (s.modRwp fun r => { r with pairCfg := 1 }).modPair fun x => { x with state := p, up := true }

/-- An open transaction of ring pair 0 in a phase. -/
def inTxn (p : TxnPhase) (s : State) : State := s.modTxn fun t => { t with phase := p, owner := 0 }

/-- The trace with some records staged and kept. -/
def traced (stage recs : Nat) (s : State) : State :=
  let r : TraceRec := { ct := 0, typ := 5, flags := 0, source := 0, seq := 0, body := [] }
  s.modCmt fun c => { c with enable := true, head := 2, stage := List.replicate stage r, recs := List.replicate recs r }

/-- An event waits in the recorder's queue. -/
def eventWaits (s : State) : State :=
  s.modEvr fun e =>
    { e with
      ready := true,
      queue := [{ cls := 0x0401, source := 0xFFFF, ct := 0, base := 0, flags := 0, opSeconds := 0, pcycles := 0, detail := 0, traceSeq := 0, arrived := 0 }] }

/-- The store is ready. -/
def stored (s : State) : State := s.modPst fun p => { p with ready := true }

/-- A point of the meter is on, in DC mode. -/
def metered (s : State) : State := s.modMtr fun m => { m with begun := true, points := vmod m.points 0 fun p => { p with cfg := 0x10001 } }

/-- The watchdog runs. -/
def guarded (s : State) : State := s.modWdg fun w => { w with running := true, start := false, len := 100000 }

/-- A channel of the field unit with a mode. -/
def channel (mode : Nat) (s : State) : State := modChan 0 (fun c => { c with cfg := { c.cfg with mode := mode } }) s

/-- A lane in a state. -/
def laneIn (l : LaneId) (x : LaneState) (s : State) : State := modLane l (fun y => { y with state := x }) s

/-- All three lanes in service, the voter in a mode. -/
def voting (mode : Nat) (s : State) : State :=
  (laneIn 0 .inService (laneIn 1 .inService (laneIn 2 .inService s))).modVot fun v => { v with mode := mode }

/-- A record of task 1. -/
def record (value : W64) : EffRec := { cycle := 0, value := value, target := 5, task := 1, kind := 1, index := 0, digest := 0 }

/-- Records of task 1 at the heads of the three queues. -/
def queued (a b c : W64) (s : State) : State :=
  modLane 0 (fun x => { x with queue := [record a] }) (modLane 1 (fun x => { x with queue := [record b] })
    (modLane 2 (fun x => { x with queue := [record c] }) s))

/-- The bytes of a program image: one bundle with TSK_END and one symbol. The header, its CRC and the SHA-384 digest were computed outside
the model. -/
def imageBytes : List Byte :=
  ([78, 86, 80, 71, 1, 0, 1, 0, 0, 0, 0, 0, 16, 0, 0, 0, 1, 0, 0, 0, 0, 0, 0, 0, 0, 0, 0, 0, 1, 0, 0, 0] ++
    [0, 0, 0, 0, 160, 0, 0, 0, 0, 0, 0, 0, 0, 0, 0, 0, 0, 0, 0, 0, 0, 0, 0, 0, 0, 0, 0, 0, 25, 220, 96, 206] ++
    [72, 3, 0, 4, 0, 0, 0, 4, 0, 0, 0, 4, 0, 0, 0, 4, 1, 0, 0, 0, 1, 255, 0, 0, 0, 0, 0, 0, 0, 0, 0, 0] ++
    [0, 0, 0, 0, 0, 0, 0, 0, 0, 0, 0, 0, 0, 0, 0, 0, 214, 83, 144, 198, 151, 47, 56, 17, 179, 20, 59, 2, 51, 167, 110, 25] ++
    [158, 192, 230, 4, 158, 103, 144, 159, 195, 73, 40, 185, 179, 181, 193, 219, 93, 99, 139, 26, 156, 11, 217, 74, 177, 173, 206, 200, 104, 233, 218, 240] : List Nat).map fun n => BitVec.ofNat 8 n

/-- The image those bytes hold. -/
def image : Image := imageOf imageBytes

/-- A periodic task with a period of 1 ms. -/
def task1 : TaskEntry :=
  { task := 1, kind := .periodic, priority := 5, engine := 0, entry := 0, period := 1000, phase := 0, offset := 500, budget := 100,
    errorTask := none, eventSrc := 0, maxEffects := 2, eventArg := 0, cause := 0, xout := 0, xsize := 0, tbl := true, xin := [] }

/-- The image is active and the schedule has that task. -/
def loaded (s : State) : State :=
  (modBank 0 (fun _ => { state := .active, image := some image, map := none }) s).modTsk fun k =>
    { k with sched := some { align := 1, imageId := 1, aFrames := 0, edges := 0, tasks := [task1] } }

/-- A release of the task. -/
def release1 : Release :=
  { task := 1, cycle := 0, ct := 0, entry := task1, err := none, outs := [], snap := [(5, { value := 7, quality := 0 })], forces := [],
    tables := [], xsel := [], lanes := Vector.replicate 3 true, delivered := Vector.replicate 3 true, ready := Vector.replicate 3 true,
    ended := Vector.replicate 3 false, causes := 0, causeCt := 0, stations := [], version := none, effects := [], set := .collecting, instant := 500000,
    lead := 0, resp := 0, late := false, cut := false, image := [], sent := [], done := false }

/-- A release of the task holds engine 0 of lane 0. -/
def atWork (r : Release) (s : State) : State :=
  modLane 0 (fun x => { x with run := vmod x.run 0 fun _ => some 1, snaps := [(1, r.snap)] }) ((loaded s).modTsk fun k => { k with rels := [r] })

/-- The same, with another context of task 1. -/
def withCtx (f : Ctx → Ctx) (s : State) : State := modCtx 0 1 f s

/-- A release of the task holds engine 0 of lane 0, between two bundles (`atBoundary`). -/
abbrev AtBundle (s : State) : Prop :=
  running s 0 0 = some release1 ∧ (runningEntry s 0 release1).task < 256 ∧ release1.task < 256 ∧
    (engineCtx s 0 release1).usedCycles < (runningEntry s 0 release1).budget ∧ (engineCtx s 0 release1).blk = none ∧
    (engineCtx s 0 release1).started = [] ∧ (engineCtx s 0 release1).resv = [] ∧ (engineCtx s 0 release1).ending = false ∧
    (engineCtx s 0 release1).timerWb = [] ∧ (engineCtx s 0 release1).branch = none ∧ release1.entry.engine = 0

/-- A Strait frame of station 1 of ring 0 to the domain. -/
def frame1 (src dst hops : Nat) : Strait :=
  { typ := 1, west := false, sender := false, hops := hops, stream := 0, gen := 1, aEpoch := 0, mEpoch := 0, seq := 1, src := src, dst := dst,
    time := 0, payload := [] }

/-- Its bytes. -/
def frameBytes (src dst hops : Nat) : List Byte := Strait.bytes base 0 0 0 (frame1 src dst hops)

/-- Ring 0 is in use. -/
def ringUsed (s : State) : State :=
  modStrait 0 (fun x => { x with active := true }) ((booted s).modNet fun n =>
    { n with ports := vmod n.ports 0 fun x => { x with up := true, speed := 1000, full := true } })

/-- Ring 0 has a schedule and two stations. -/
def ringRun (s : State) : State :=
  modStrait 0 (fun x =>
    { x with
      count := 2,
      sched := some { vid := 0, period := 1000, inPhase := 0, writer := none, autoInaug := false, pairLink := 0, stations := [] } }) (ringUsed s)

/-- The next state of an outcome. -/
def nextOf : Host.Outcome State Fault Refusal → State
  | .next t => t
  | _ => base

/-! ## Ill-formed terms -/

/-- Each check of WellFormed refuses a term, at the first value outside its range. -/
theorem test_ill_formed :
    ([
      Instr.pairReadLatch 0x100000,
      Instr.pairWriteHold 6 0,
      Instr.registerWrite 0x8002 .word 0,
      Instr.registerWrite 0x100000 .byte 0,
      Instr.rwsWrite 2 0,
      Instr.laneFreqMeasure 0 2097152,
      Instr.laneSupplyFault 0 ⟨65536, 2001⟩,
      Instr.transferUncorrectable .otherSram 5,
      Instr.transferUncorrectable (.scratchpad 0 0xC00000) 4,
      Instr.sramScrub [] [.retentiveShadow 0x8000],
      Instr.dramPatrolScrub ⟨0, [.tableWay 0 0 2]⟩,
      Instr.laneSelfTestDone 0 7 0,
      Instr.syncReceived 0 ⟨256, 0⟩,
      Instr.announceReceived 0 ⟨256, announceMsg base 0⟩,
      Instr.portLinkChange 0 true 10 true,
      Instr.frameReceive 0 false (List.replicate 59 0),
      Instr.frameReceive 0 false (List.replicate 1519 0),
      Instr.backboneFrameReceive 8 [],
      Instr.narrowsHeartbeat 0 (2 ^ 64) .waiting false ⟨0, []⟩,
      Instr.narrowsAccepted 0 0 (2 ^ 64) 0 0,
      Instr.narrowsRecognised 0 256 0,
      Instr.narrowsLinkUp [] ⟨0, 0⟩,
      Instr.narrowsCellAck 0 (2 ^ 64),
      Instr.descriptorFetch (List.replicate 63 0) [],
      Instr.pcieLinkUp 3 1,
      Instr.pcieLinkUp 1 4,
      Instr.barrierFault 0,
      Instr.meterSample (Vector.replicate 16 1073741825),
      Instr.rtcCompensation 32768,
      Instr.builtInSelfTest ⟨[(8, 0)], Vector.replicate 3 0, none⟩ 0 0 0,
      Instr.narrowsEdges 0 [{ point := 128, quality := 0, value := 0, ct := 0 }]] : List Instr).all (fun i => !i.wellFormed) = true := by decide

/-- The values at the ends of the ranges are well formed. -/
theorem test_well_formed :
    ([
      Instr.registerWrite 0xFFFFC .word 0, .laneSupplyFault 0 ⟨65535, 0⟩, .transferUncorrectable (.scratchpad 0 0xBFFFFF) 4, .resyncFinalCopy 0 0,
      .frameReceive 0 false (List.replicate 60 0), .descriptorFetch (List.replicate 64 0) [], .pcieLinkUp 4 3, .rtcCompensation (-32768),
      .nop 31, .oscStop] : List Instr).all (fun i => i.wellFormed) = true := by decide

/-! ## Commands -/

/-- The answer to the first question, and the question that follows it (the table of chapter 16). -/
theorem test_watchdog_answer :
    tokenOf 0x1D2B = 0xE274 ∧ nextQuestion 0x1D2B = 0xBA95 := by decide

/-- CRC-32C of "123456789", from the CRC catalogue. -/
theorem test_crc32c :
    crc32c [0x31, 0x32, 0x33, 0x34, 0x35, 0x36, 0x37, 0x38, 0x39] = 0xE3069283#32 := by decide

/-- The first bytes of SHA-384 of "abc" (FIPS 180-4). -/
theorem test_sha384 :
    (sha384 [0x61, 0x62, 0x63]).take 4 = [0xCB, 0x00, 0x75, 0x3F] := by decide

/-- An image computed outside the model is accepted, and refused for reason 3 with another byte of its digest. -/
theorem test_image_checked :
    checkImage none imageBytes = .ok image ∧ (checkImage none (imageBytes.set 159 0) matches .error (3, _)) = true := by decide

/-- A public key that is no point of the curve verifies nothing. -/
theorem test_key_not_a_point :
    p384Verify (4 :: List.replicate 96 1) [] [] = false := by decide

/-- 2100 is no leap year, 2400 begins again at 2000 (R554, R555). -/
theorem test_calendar_leap :
    ({ year := 2100, month := 2, day := 28, hour := 23, min := 59, sec := 59 } : Calendar).next = { year := 2100, month := 3, day := 1, hour := 0, min := 0, sec := 0 } ∧ ({ year := 2399, month := 12, day := 31, hour := 23, min := 59, sec := 59 } : Calendar).next = { year := 2000, month := 1, day := 1, hour := 0, min := 0, sec := 0 } := by decide

/-- RING_ENABLE with sizes 16 and 4,096 enables; with size 8 it sets CAUSE 1 (R411). -/
theorem test_ring_enable :
    ((nextOf (exec (.ringEnable 0 0x04C00000) base)).hif.rings.get 0).enable = true ∧
      ((nextOf (exec (.ringEnable 0 0x03C00000) base)).hif.rings.get 0).cause = 1 := by decide

/-- A doorbell with the size of the ring stops it with CAUSE 2 (R413). -/
theorem test_doorbell_beyond :
    ((nextOf (exec (.sqTailDoorbell 0 ⟨.word, 16⟩) (ringOn base))).hif.rings.get 0).cause = 2 ∧
      ((nextOf (exec (.sqTailDoorbell 0 ⟨.word, 15⟩) (ringOn base))).hif.rings.get 0).sqTail = 15 := by decide

/-- A write of one byte changes nothing (R9). -/
theorem test_byte_write :
    (nextOf (exec (.registerWrite 0x80000 .byte 1) base)).cmt.enable = base.cmt.enable ∧
      (nextOf (exec (.registerWrite 0x80000 .word 0) base)).cmt.enable = false := by decide

/-- TXN_OPEN counts the transaction and answers its number (R432). -/
theorem test_txn_open :
    (nextOf (exec (.txnOpen 0) (serving 0x10 0 [] base))).txn.num = 1 ∧ (nextOf (exec (.txnOpen 0) (serving 0x10 0 [] base))).txn.phase = .opened := by decide

/-- TIM_SET with no program running steps chip time (R63). -/
theorem test_tim_set :
    (nextOf (exec (.timSet 1) base)).clk.ct = 4294967296 := by decide

/-- ALU_ADD wraps modulo 2^64 (R129). -/
theorem test_alu_add_wraps :
    ((ctxOf (nextOf (exec (.aluAdd 0 0 2) (withCtx (fun c => { c with aluA := 0xFFFFFFFFFFFFFFFF }) (atWork release1 base)))) 0 1).aluRes.readAt 1) = 1 := by decide

/-- ALU_SAR takes its count from B[5:0] and fills with bit 63 of A (R129). -/
theorem test_alu_sar :
    ((ctxOf (nextOf (exec (.aluSar 0 0 0x44) (withCtx (fun c => { c with aluA := 0x8000000000000000 }) (atWork release1 base)))) 0 1).aluRes.readAt 1) = 0xF800000000000000 := by decide

/-- BIT_OPEN with 6 ends the release with a fault, its record of kind 3 and code 0x13 (R133, R267). -/
theorem test_bit_open :
    ((nextOf (exec (.bitOpen 0 0 6) (atWork release1 base))).lanes.get 0).buffer.map (fun r => (r.kind, r.value)) = [(3, 0x13)] := by decide

/-- LS_ST of two bytes writes the low bytes of LS_DATA, and no others (R168). -/
theorem test_store_low_bytes :
    dataNat ((nextOf (exec (.lsSt 0 0 1 4) (withCtx (fun c => { c with lsData := 0x123456 }) (atWork release1 base)))).lanes.get 0).mem 0 8 = 0x345600000000 := by decide

/-- BR_CALL takes effect after its delay bundle and keeps the index behind it (R111). -/
theorem test_branch_delay :
    ((ctxOf (nextOf (exec (.brCall 0 0 9) (atWork release1 base))) 0 1).delay,
      (ctxOf (nextOf (exec (.brCall 0 0 9) (atWork release1 base))) 0 1).link) = (some 9, 2) := by decide

/-- IMG_RD of an input in the snapshot is readable two cycles on (R165). -/
theorem test_image_read :
    ((ctxOf (nextOf (exec (.imgRd 0 0 5) (atWork release1 base))) 0 1).imgVal.readAt 2) = 7 := by decide

/-- An over-temperature holds the chip in reset (R654). -/
theorem test_over_temperature :
    (nextOf (exec (.overTemperature true 0) (booted base))).sys.inReset = true ∧
      (nextOf (exec (.overTemperature true 0) (booted base))).sys.hotStop = true := by decide

/-- FUSE_PROGRAM without the programming supply is BAD_STATE (R609). -/
theorem test_fuse_once :
    ((nextOf (exec (.fuseProgram 0 false) (serving 0x87 0 [] base))).hif.rings.get 0).outst.map (fun e => e.ended.map fun d => d.status) = [some 0x07] := by decide

/-- A sag below 12 V switches the outputs of its group off (R468). -/
theorem test_sag_two :
    ((nextOf (exec (.sagLevel2 0 ⟨11999,
      50⟩) (modChan 0 (fun c => { c with on := true, cmd := true }) (channel 3 base)))).fio.chans.get 0).on = false := by decide

/-- Energy goes to IMPORT and SEL, and one below zero to EXPORT (R493). -/
theorem test_energy :
    ((pointOf (addEnergy 0 5 base) 0).imp, (pointOf (addEnergy 0 5 base) 0).exp, (pointOf (addEnergy 0 5 base) 0).sel) = (5, 0, 5) ∧
      ((pointOf (addEnergy 0 (-5) base) 0).imp, (pointOf (addEnergy 0 (-5) base) 0).exp, (pointOf (addEnergy 0 (-5) base) 0).sel) = (0, 5, -5) := by decide

/-- A claim that has toggled for less than 100 µs stays a claim (R371). -/
theorem test_claim :
    (nextOf (exec .claimComplete (atNs 99999 ((paired .claiming base).modPair fun p => { p with toggling := true })))).pair.state = .claiming := by decide

/-- A page reads as written (R511). -/
theorem test_page :
    peekPage (writePage 5 [7] 0 0 0 base).2 5 = some (fitTo 256 [7]) := by decide

/-- The table gives no command bits, so no word spells one. -/
theorem test_no_words :
    decodeTableWord 32 0 = none := by decide

/-- A step takes the front command off the queue and runs it. -/
theorem test_front :
    (nextOf (step ((base.withFront (.timSet 1)).withFront (.registerWrite 0x80000 .word 0)))).pending = [.timSet 1] ∧
      (nextOf (step (base.withFront (.timSet 1)))).clk.ct = 4294967296 := by decide

/-! ## States and operands that meet the hypotheses of the statements -/

/-- Clause by clause, the hypotheses of `Obligations.StepRunsTheFrontCommand`. -/
theorem test_witness_StepRunsTheFrontCommand :
    ((base.withFront .fenceClear).pending = [.fenceClear]) ∧
    (base.pending = []) :=
  by and_intros <;> decide

/-- Clause by clause, the hypotheses of `Obligations.RingPairSetUp`. -/
theorem test_witness_RingPairSetUp :
    ((ringPair base 0).enable = false) ∧
    ((ringPair base 0).outst = []) ∧
    ((ringPair base 0).sqBase.toNat % 4096 = 0) ∧
    (((0x04400000#32).extractLsb' 24 4).toNat = 4) ∧
    (((0x0CC00000#32).extractLsb' 20 4).toNat = 12) ∧
    (¬ (((0x0DD00000#32).extractLsb' 24 4).toNat ≤ 12)) ∧
    (¬ (4 ≤ ((0x03300000#32).extractLsb' 20 4).toNat)) ∧
    ((ringPair (ringOn base) 0).enable = true ∧ (ringPair (ringOn base) 0).outst = []) ∧
    ((ringPair (serving 1 0 [] base) 0).enable = false ∧ (ringPair (serving 1 0 [] base) 0).outst ≠ []) ∧
    (txnOwner base 0 = false) ∧
    (onFetchPath 0x2D = false) :=
  by and_intros <;> decide

/-- Clause by clause, the hypotheses of `Obligations.DoorbellsAndFetch`. -/
theorem test_witness_DoorbellsAndFetch :
    ((ringPair base 0).enable = false) ∧
    ((ringPair (ringOn base) 0).enable = true ∧ (ringPair (ringOn base) 0).stopped = false ∧ 15 < 2 ^ (ringPair (ringOn base) 0).sqLog2.toNat ∧
      2 ^ (ringPair (ringOn base) 0).sqLog2.toNat ≤ 16) ∧
    (((0#32).extractLsb' 0 12).toNat = 0 ∧ (0 + 16 - (ringPair (ringOn base) 0).cqHead.toNat) % 16 ≤ (ringPair (ringOn base) 0).used) ∧
    ((ringPair (ringOn base) 0).used < (1 + 16 - (ringPair (ringOn base) 0).cqHead.toNat) % 16) ∧
    ((ringPair base 0).stopped = false ∧ descAt base 0 none = none) ∧
    ((ringPair (serving 1 0 [] base) 0).stopped = false ∧ descAt (serving 1 0 [] base) 0 (some 0) = some (theDesc 1 0 [])) ∧
    ((let s := base.modHif fun h => { h with dmaTimeout := 100 }; 99999 < s.hif.dmaTimeout.toNat * 1000 ∧ s.hif.dmaTimeout.toNat * 1000 ≤ 100000)) ∧
    (mayFetch (booted (modRing 0 (fun r => { r with sqTail := 1 }) (ringOn base))) = true ∧
      nextRing (booted (modRing 0 (fun r => { r with sqTail := 1 }) (ringOn base))) = some 0) ∧
    (assignedOps.contains 0 = false ∧ badField base (theDesc 0 0 []).desc = some 0) ∧
    (assignedOps.contains 1 = true ∧ 8 ≤ (8#8).toNat ∧ ¬ 8 ≤ (7#8).toNat) ∧
    (4 % 8 ≠ 0) ∧
    (badField base (theDesc 0x22 0 []).desc = none ∧ safeTalkOps.contains 0x22 = false ∧ startingOps.contains 0x22 = false ∧
      (inRun .safeTalk base).sys.run = .safeTalk ∧ (inRun .starting base).sys.run = .starting) ∧
    ((paired .standbySynced base).sys.run = .stopped ∧ (theDesc 0x22 0 []).desc.authority = true ∧
      hasAuthority (paired .standbySynced base) = false ∧ badField (paired .standbySynced base) (theDesc 0x22 0 []).desc = none) ∧
    (base.sys.run = .stopped ∧ hasAuthority base = true ∧ (theDesc 0x22 0 []).desc.deadline = 0) ∧
    (((readyDesc 0 0x22 (serving 0x22 0 [] (paired .standbySynced base))).map fun e => e.desc.authority) = some true ∧
      hasAuthority (serving 0x22 0 [] (paired .standbySynced base)) = false) :=
  by and_intros <;> decide

/-- Clause by clause, the hypotheses of `Obligations.FenceAndCompletion`. -/
theorem test_witness_FenceAndCompletion :
    ((∀ q : RingId, (ringPair base q).cleared = none ∧ ∀ e ∈ (ringPair base q).dead, e.fenced = false)) ∧
    ((theDesc 0x10 0 []).ended = none ∧ onFetchPath (theDesc 0x10 0 []).desc.opcode.toNat = false) ∧
    ((let s := booted (modRing 0 (fun r => { r with outst := [{ theDesc 1 0 [] with ended := some (doneOk []), doneCt := some 5 }], used := 15 }) (ringOn base)); (ringPair s 0).stopped = false ∧ hostReachable s = true ∧ (ringPair s 0).used < 2 ^ (ringPair s 0).cqLog2.toNat ∧ (ringPair s 0).outst ≠ [])) ∧
    ((let e := { theDesc 0x10 0 [] with fenced := true }; let s := modRing 31 (fun r => { r with outst := [e] }) base;
      ∀ p : RingId, (∀ x ∈ (ringPair s p).dead, x.fenced = false) ∧ (ringPair s p).cleared = if p = 31 then some e else none)) :=
  by and_intros <;> decide

/-- Clause by clause, the hypotheses of `Obligations.EndpointAndInterrupts`. -/
theorem test_witness_EndpointAndInterrupts :
    (base.hif.cause.getLsbD 9 = false ∧ (base.modHif fun h => { h with cause := 0x200 }).hif.cause.getLsbD 9 = true) ∧
    ((base.hif.msix.get 41).masked = true ∧
      ((base.modHif fun h => { h with msix := vmod h.msix 41 fun e => { e with masked := false, pending := true } }).hif.msix.get 41).masked = false) ∧
    ((base.hif.msix.get 0).pending = false ∧
      ((base.modHif fun h => { h with msix := vmod h.msix 41 fun e => { e with pending := true } }).hif.msix.get 41).pending = true) ∧
    ((let s := atNs 5000 (modRing 0 (fun r => { r with unsent := 1, coalUs := 5 }) base); 0 < (ringPair s 0).unsent ∧
      (ringPair s 0).firstUnsentAt + (ringPair s 0).coalUs.toNat * 1000 ≤ s.clk.now)) ∧
    (base.sys.inReset = false ∧ base.rtc.vecDue = false) :=
  by and_intros <;> decide

/-- Clause by clause, the hypotheses of `Obligations.HostReadsAndBulk`. -/
theorem test_witness_HostReadsAndBulk :
    (Served 1 0 [] base) ∧
    (Served 2 0 [] base) ∧
    (Served 3 0 [] base) ∧
    (Served 4 0 [31] base ∧ (theDesc 4 0 [31]).desc.par 24 1 = 31) ∧
    (Served 5 0 [0, 0x10] base ∧ bulkPlace base ((theDesc 5 0 [0, 0x10]).desc.par 24 8) = some 0) ∧
    (Served 5 0 [0, 0, 0, 0, 0, 0, 1] base ∧ bulkPlace (serving 5 0 [0,
      0, 0, 0, 0, 0, 1] base) ((theDesc 5 0 [0, 0, 0, 0, 0, 0, 1]).desc.par 24 8) = none) ∧
    ((let s := base.modHif fun h => { h with bulk := [{ offset := 0, size := 4096 }] }; Served 6 0 [] s ∧
      (s.hif.bulk.find? fun b => b.offset == 0) = some { offset := 0, size := 4096 } ∧
      bulkInUse (serving 6 0 [] s) { offset := 0, size := 4096 } = false)) ∧
    (Served 6 0 [] base ∧ (base.hif.bulk.find? fun b => b.offset == 0) = none) ∧
    ((let s := modRing 1 (fun r => { r with outst := [{ theDesc 0x50 8 [] with desc := { (theDesc 0x50 8 []).desc with flags := 4 } }] }) (base.modHif fun h => { h with bulk := [{ offset := 0, size := 4096 }] }); Served 6 0 [] s ∧ (s.hif.bulk.find? fun b => b.offset == 0) = some { offset := 0, size := 4096 } ∧ bulkInUse (serving 6 0 [] s) { offset := 0, size := 4096 } = true)) :=
  by and_intros <;> decide

/-- Clause by clause, the hypotheses of `Obligations.TransactionStaging`. -/
theorem test_witness_TransactionStaging :
    (Served 0x10 0 [] base ∧ base.txn.phase = .none) ∧
    ((inTxn .applying base).txn.phase ≠ .none) ∧
    (Served 0x11 0 [] base ∧ ownsTxn base 0 = false) ∧
    (Served 0x11 0 [3, 3] (inTxn .opened base) ∧ ownsTxn (inTxn .opened base) 0 = true ∧ (theDesc 0x11 0 [3, 3]).desc.par 24 1 = 3 ∧
      (theDesc 0x11 0 [3, 3]).desc.par 25 1 = 3) ∧
    (stagedBytes [{ kind := 5, ring := 0, bytes := [] }] [] ≤ 2097152) ∧
    (rwsOffsets.contains 0x400C = true ∧ base.sys.run ≠ .safeTalk ∧ hasAuthority base = true) ∧
    ((inTxn .opened base).txn.phase = .opened ∧ stagedBytes (inTxn .opened base).txn.objs (inTxn .opened base).txn.rws + 8 ≤ 2097152) ∧
    ((inTxn .committed base).txn.phase = .committed) :=
  by and_intros <;> decide

/-- Clause by clause, the hypotheses of `Obligations.TransactionCheckAndApply`. -/
theorem test_witness_TransactionCheckAndApply :
    (Served 0x12 0 [] base ∧ ownsTxn base 0 = false) ∧
    (Served 0x12 0 [] (inTxn .opened base) ∧ ownsTxn (inTxn .opened base) 0 = true ∧ checkTxn (inTxn .opened base) 0 = none) ∧
    ((let s := inTxn .opened (base.modTxn fun t => { t with rws := [(0x4008, 0xFFFFFFFF)] }); ownsTxn s 0 = true ∧ (checkTxn s 0).isSome = true)) ∧
    ((let s := inTxn .checked base; Served 0x13 0 [0, 0, 0, 0, 0, 0, 0, 0, 0, 0x2D, 0x31, 1] s ∧ s.txn.phase = .checked ∧ s.txn.owner = 0 ∧
      ringsBusy s = false ∧ namedInstant s 0 0 20000000 = some 20000000 ∧ applyRefusal s 0 20000000 = none ∧ (applyRefusal s 0 0).isSome = true)) ∧
    ((let s := atNs 5 ((inTxn .applying base).modTxn fun t => { t with dT := 5 }); s.txn.phase = .applying ∧ s.txn.dT ≤ s.clk.ct ∧
      hasAuthority s = true ∧ missingUnit s = none)) ∧
    ((let s := atNs 5 ((inTxn .applying base).modTxn fun t => { t with dT := 5, required := [.lane 2] }); mirrors s = false ∧
      missingUnit s = some (1, 2, 0))) ∧
    (base.txn.phase ≠ .applying ∧ base.txn.phase ≠ .committed ∧ base.clk.ct < ((inTxn .applying base).modTxn fun t => { t with dT := 5 }).txn.dT) ∧
    ((let s := atNs 5 ((inTxn .committed base).modTxn fun t => { t with x := 5 }); s.txn.phase = .committed ∧ s.txn.x ≤ s.clk.ct ∧ s.prg.sw = none)) ∧
    (base.txn.apply = none) :=
  by and_intros <;> decide

/-- Clause by clause, the hypotheses of `Obligations.TransactionEnds`. -/
theorem test_witness_TransactionEnds :
    (Served 0x14 0 [] base ∧ base.txn.phase = .none) ∧
    (Served 0x14 0 [] (inTxn .committed base) ∧ (inTxn .committed base).txn.owner = 0) ∧
    (Served 0x14 0 [] (inTxn .checked base) ∧ (inTxn .checked base).txn.phase = .checked ∧ (inTxn .checked base).txn.apply = none) ∧
    ((let s := atNs 600000000000 (inTxn .opened base); s.txn.phase = .opened ∧ s.txn.apply = none ∧ s.txn.lastOpAt + 600000000000 ≤ s.clk.now)) ∧
    ((atNs 599999999999 base).clk.now < base.txn.lastOpAt + 600000000000) ∧
    (Served 0x15 0 [] base) ∧
    (Served 0x16 0 [] base) ∧
    (Served 0x16 0 [1] base ∧ (theDesc 0x16 0 [1]).desc.par 24 1 = 1) ∧
    (base.txn.saveDue = none) ∧
    ((base.modTxn fun t => { t with saveDue := some 0 }).txn.saveDue.isSome = true ∧ (appliedEntries base).flatten.length ≤ 983040) :=
  by and_intros <;> decide

/-- Clause by clause, the hypotheses of `Obligations.RegisterWrites`. -/
theorem test_witness_RegisterWrites :
    (rwsOffsets.contains 0x1000 = false ∧ rwpOffsets.contains 0x1000 = false ∧ ¬ (0x7040 ≤ 0x1000)) ∧
    (1 ≤ (100#32).toNat % 256 ∧ (100#32).toNat % 256 ≤ 100 ∧ (256#32).toNat % 256 = 0 ∧ 100 < (101#32).toNat % 256) :=
  by and_intros <;> decide

/-- Clause by clause, the hypotheses of `Obligations.RegisterValues`. -/
theorem test_witness_RegisterValues :
    ((ringPair base 0).enable = false ∧ (ringPair (ringOn base) 0).enable = true) ∧
    (pairLows.contains 0x4000 = true ∧ pairLows.contains 0x4004 = false) ∧
    (rwsOffsets.contains 0x400C = true ∧ rwsOffsets.contains 0x80004 = true ∧ assoc? 0x400C base.bar.shadow = none) ∧
    (rwpOffsets.contains 0x4020 = true ∧ pairMember base = false ∧ base.pst.rwpBad = false ∧ assoc? 0x4020 base.bar.shadow = none) ∧
    ((inTxn .opened base).txn.phase = .opened ∧ stagedBytes (inTxn .opened base).txn.objs (inTxn .opened base).txn.rws + 8 ≤ 2097152 ∧
      hasAuthority base = true) ∧
    (0x20000 ≤ 0x20000 ∧ 16 ≤ 0x1FFF0 % 0x1000) :=
  by and_intros <;> decide

/-- Clause by clause, the hypotheses of `Obligations.TraceWriter`. -/
theorem test_witness_TraceWriter :
    (traceTypeOn (traced 0 0 base) 5 = true ∧ (traced 0 0 base).cmt.silent = false ∧ (traced 0 0 base).cmt.stage.length < 8192) ∧
    (((traced 0 0 base).modCmt fun c => { c with frozen := true }).cmt.silent = true) ∧
    ((traced 1 0 base).cmt.stage ≠ [] ∧ (traced 1 0 base).cmt.full = false ∧
      (traced 1 0 base).cmt.recs.length < (traced 1 0 base).part.trace * 1048576 / 32) ∧
    ((let s := (traced 1 2 base); { s with part := { s.part with trace := 0 } }.part.trace * 1048576 / 32 ≤ s.cmt.recs.length ∧
      s.cmt.stopFull = false ∧ (s.modCmt fun c => { c with stopFull := true }).cmt.stopFull = true)) ∧
    ((let s := (traced 0 0 base).modCmt fun c => { c with dropCount := 1 }; 0 < s.cmt.dropCount ∧ s.cmt.silent = false ∧ s.cmt.enable = true)) ∧
    (base.cmt.dropCount = 0) ∧
    ((base.modCmt fun c => { c with post := some 0 }).cmt.post = some 0 ∧ base.cmt.post ≠ some 0) :=
  by and_intros <;> decide

/-- Clause by clause, the hypotheses of `Obligations.TraceDescriptors`. -/
theorem test_witness_TraceDescriptors :
    (Served 0x68 0 [] base ∧ base.cmt.all = []) ∧
    ((traced 0 2 base).cmt.all ≠ [] ∧ serialDiff 0 (traced 0 2 base).cmt.head < 0 ∧ (traced 0 2 base).cmt.from_ 0 2 ≠ [] ∧
      0 ≤ serialDiff 2 (traced 0 2 base).cmt.head) ∧
    (Served 0x69 0 [] (traced 0 0 base) ∧ (traced 0 0 base).cmt.enable = true) ∧
    (Served 0x6A 0 [] base ∧ base.cmt.frozen = false ∧ base.cmt.full = false) ∧
    ((let s := (traced 0 0 base).modCmt fun c => { c with frozen := true, stopCount := 1 }; Served 0x6A 0 [] s ∧ s.cmt.frozen = true ∧
      s.cmt.full = false ∧ s.cmt.enable = true ∧ 0 < s.cmt.stopCount)) ∧
    (Served 0x6B 0 [] base) ∧
    (classRecorded 0x0401 = true) ∧
    (classRecorded 0x0000 = false) ∧
    ((eventWaits base).evr.full = false ∧ (eventWaits base).evr.fault = false ∧ (eventWaits base).evr.queue.length < 256) ∧
    ((base.modEvr fun e => { e with full := true }).evr.full = true ∧ (base.modEvr fun e => { e with fault := true }).evr.fault = true) ∧
    ((let s := (eventWaits base).modEvr fun e => { e with queue := e.queue.flatMap fun i => List.replicate 256 i }; s.evr.full = false ∧
      s.evr.fault = false ∧ 256 ≤ s.evr.queue.length)) ∧
    (∀ x ∈ (eventWaits base).evr.queue, x.arrived ≠ 1) :=
  by and_intros <;> decide

/-- Clause by clause, the hypotheses of `Obligations.Recorder`. -/
theorem test_witness_Recorder :
    (mayRecord (eventWaits base) = true ∧ (eventWaits base).evr.queue ≠ [] ∧ (eventWaits base).evr.retryAt = none) ∧
    ((let s := (eventWaits base).modEvr fun e => { e with retryAt := some 0 }; mayRecord s = true ∧ 0 ≤ s.clk.now)) ∧
    ((writeSlot 0 [] 0 (eventWaits base)).1 = true ∧ (writeSlot 0 [] 2 (eventWaits base)).1 = false) ∧
    (base.evr.tries < 3 ∧ 3 ≤ (base.modEvr fun e => { e with tries := 3 }).evr.tries) ∧
    (Served 0x60 64 [0xFF, 0x7F] base ∧ (theDesc 0x60 64 [0xFF, 0x7F]).desc.par 24 4 ≤ 32767) ∧
    (Served 0x61 0 [] base) ∧
    ((readPages 57343 1 (base.modPst fun p => { p with pages := [{ num := 57343, c0 := { (pstPage base 57343).c0 with bad := true }, c1 := { (pstPage base 57343).c1 with bad := true } }] })).1 = none ∧ (readPages 57343 1 base).1.isSome = true) :=
  by and_intros <;> decide

/-- Clause by clause, the hypotheses of `Obligations.ChipTime`. -/
theorem test_witness_ChipTime :
    (inCycles (inRun .running base) = true ∧ inCycles base = false ∧ base.tim.seeded = false) ∧
    ((let s := (inRun .running base).modTim fun t => { t with seeded := true, slavePort := some 3 }; s.tim.seeded = true ∧
      s.tim.slavePort = some 3 ∧ inCycles s = true)) ∧
    (1000000 < ((1000001 : Int)).natAbs ∧ ¬ 1000000 < ((-1000000 : Int)).natAbs) ∧
    ((let s : State := { (base.modSys fun y => { y with step := 5, inReset := false }).modRtc fun r => { r with valid := true } with rws := { base.rws with timCtrl := 0 } }; s.sys.step = 5 ∧ s.sys.inReset = false ∧ s.rtc.valid = true ∧ rtcTicks s = 0 ∧ s.tim.grandmaster = false ∧ timRole s = 0)) ∧
    ((base.modSys fun y => { y with step := 5 }).rtc.valid = false ∧ base.sys.step ≠ 5) ∧
    ((let s := atNs 60000000000 ((base.modTim fun t => { t with seeded := true }).modSys fun y => { y with inReset := false, vinPresent := true });
      s.tim.seeded = true ∧ s.sys.vinPresent = true ∧ s.sys.inReset = false ∧ s.tim.savedAt + 60000000000 ≤ s.clk.now)) ∧
    ((atNs 59999999999 base).clk.now < base.tim.savedAt + 60000000000) ∧
    ((let s := atNs 1000000 base; rtcTicks s ≠ 0)) ∧
    (base.tim.slavePort ≠ some 9 ∧ 1 ≠ ptpDomain base) :=
  by and_intros <;> decide

/-- Clause by clause, the hypotheses of `Obligations.TimeQuality`. -/
theorem test_witness_TimeQuality :
    ((let s := atNs 3000000000 (base.modTim fun t => { t with quality := .locked }); s.tim.quality = .locked ∧ s.tim.grandmaster = false ∧
      s.tim.lastSyncAt + 3 * syncInterval s ≤ s.clk.now ∧ s.tim.slavePort = none)) ∧
    ((base.modTim fun t => { t with quality := .locked, slavePort := some 9 }).tim.slavePort = some 9) ∧
    (base.tim.quality ≠ .locked ∧ base.tim.quality ≠ .holdover) ∧
    ((let s := atNs 60000000000 (base.modTim fun t => { t with quality := .holdover });
      s.tim.holdoverAt + s.rws.timHoldover.toNat % 4096 * 1000000000 ≤ s.clk.now)) ∧
    (base.tim.refFault = false) ∧
    ((let s := atNs 1000000000 (base.modTim fun t => { t with refFault := true, refBadSince := some 0 }); s.tim.refFault = true ∧
      s.tim.refBadSince = some 0 ∧ 0 + 1000000000 ≤ s.clk.now)) ∧
    ((let s := atNs 60000000000 (booted base); s.sys.vinPresent = true ∧ s.rtc.vbatAt + 60000000000 ≤ s.clk.now ∧ s.sys.inReset = false)) ∧
    (2200 ≤ (2200#16).toNat ∧ (2199#16).toNat < 2200) ∧
    (base.tim.quality = .free ∧ Quality.free ≠ .locked) :=
  by and_intros <;> decide

/-- Clause by clause, the hypotheses of `Obligations.PortMessages`. -/
theorem test_witness_PortMessages :
    ((let s := ({ base with rws := { base.rws with timPortEn := 1 } } : State).modTim fun t => { t with grandmaster := true, ports := vmod t.ports 0 fun x => { x with asCapable := true } }; portEnabled s 0 = true ∧ (s.tim.ports.get 0).asCapable = true ∧ s.tim.seeded = false ∧ s.tim.quality ≠ .locked ∧ sendsTime s 0 = true ∧ ((s.tim.ports.get 0).syncSentAt + syncInterval s ≤ (atNs 1000000000 s).clk.now) ∧ (s.tim.ports.get 0).announceSentAt + 1000000000 ≤ (atNs 1000000000 s).clk.now)) ∧
    (portEnabled ({ base with rws := { base.rws with timPortEn := 0 } } : State) 9 = false ∧ (base.tim.ports.get 9).announce = none) ∧
    ((let s := base.modTim fun t => { t with quality := .locked, slavePort := some 0 }; s.tim.quality = .locked ∧ s.tim.slavePort = some 0 ∧
      s.rwp.taiUtc ≠ (38#16).setWidth 32)) ∧
    ((let s : State := { base with rws := { base.rws with timPortEn := 1 } }; portEnabled s 0 = true ∧ portClosed s 0 = false ∧
      1000000000 ≤ (atNs 1000000000 s).clk.now ∧ (s.tim.ports.get 0).pdelaySentAt = 0)) ∧
    ((let s := atNs 3000000000 (base.modTim fun t => { t with ports := vmod t.ports 9 fun x => { x with announce := some (announceMsg base 0) } });
      (s.tim.ports.get 9).announce.isSome = true ∧ (s.tim.ports.get 9).announceAt + 3000000000 ≤ s.clk.now)) ∧
    ((let s := modStrait 0 (fun x => { x with closed := true }) (inRun .running <| ringRun ({ base with rws := { base.rws with timPortEn := 1 } } : State)); portEnabled s 0 = true ∧ portClosed s 0 = true)) ∧
    ((base.tim.ports.get 0).asCapable = false ∧ 1 ≠ ptpDomain base) :=
  by and_intros <;> decide

/-- Clause by clause, the hypotheses of `Obligations.Calendar`. -/
theorem test_witness_Calendar :
    ((let s := atNs 1000000000 base; s.rtc.halt = false ∧ s.rtc.secAt + 32768 ≤ (crystalTick s : Int) ∧ s.rtc.cal.last = false ∧ s.rtc.arm = false)) ∧
    ((crystalTick (atNs 999999999 base) : Int) < base.rtc.secAt + 32768) ∧
    ((({ year := 2399, month := 12, day := 31, hour := 23, min := 59, sec := 59 } : Calendar).last = true)) ∧
    (chipUp (booted base) = true ∧ chipUp (base.modSys fun y => { y with vinPresent := false }) = false) ∧
    ((2#32).getLsbD 0 = false ∧ (1#32).getLsbD 0 = true) ∧
    ((let s := base.modRtc fun r => { r with valid := true }; s.rtc.valid = true ∧ alarmKey s ≤ s.rtc.cal.key)) ∧
    ((Calendar.ofWords base.rtc.cal.dateWord 0).valid = true ∧ (Calendar.ofWords base.rtc.cal.dateWord 0xFFFFFFFF).valid = false) ∧
    ((base.modRtc fun r => { r with halt := true }).rtc.halt = true ∧ base.rtc.halt = false ∧ base.rtc.arm = false) ∧
    ((let s := base.modRtc fun r => { r with halt := true }; s.rtc.halt = true ∧ chipUp (s.modSys fun y => { y with vinPresent := false }) = false ∧
      s.rtc.arm = false)) ∧
    ((base.modSys fun y => { y with vinPresent := false }).sys.vinPresent = false ∧ (booted base).sys.vinPresent = true) :=
  by and_intros <;> decide

/-- Clause by clause, the hypotheses of `Obligations.RealTimeClock`. -/
theorem test_witness_RealTimeClock :
    ((base.modRtc fun x => { x with frozen := vmod x.frozen 0 fun _ => some (rtcCopy base) }).rtc.frozen.get 0 = some (rtcCopy base) ∧
      base.rtc.frozen.get 1 = none) ∧
    ((rtcCopy base).since + 100000000 ≤ (atNs 100000000 base).clk.now ∧ (atNs 99999999 base).clk.now < (rtcCopy base).since + 100000000) ∧
    (base.rtc.syncTo = none ∧ syncDue base = false) ∧
    ((let s := atNs 60000000000 ((booted base).modTim fun t => { t with quality := .locked });
      syncDue (s.modRwp fun r => { r with rtcSync := 2 }) = true)) ∧
    ((atNs 60000000000 base).rtc.compAt + 60000000000 ≤ (atNs 60000000000 base).clk.now) ∧
    (((-551 : Int)) < -550 ∧ (1500 : Int) < 1501 ∧ (-550 : Int) ≤ 1500) ∧
    (base.rtc.setAt ≠ (crystalTick base : Int) ∧ 10000000 ≤ accNow (base.modRtc fun r => { r with acc := 10000000 }) ∧ -10000000 < accNow base ∧
      accNow base < 10000000) ∧
    ((let s := atNs 1000000000 (base.modRtc fun r => { r with syncTo := some 0 }); s.rtc.syncTo = some 0 ∧ 0 * 1000000000 ≤ chipUtcNs s) ∧
      (let s := base.modRtc fun r => { r with syncTo := some 9 }; chipUtcNs s < 9 * 1000000000)) ∧
    (chipUp (booted base) = true) :=
  by and_intros <;> decide

/-- Clause by clause, the hypotheses of `Obligations.StorageReadsAsWritten`. -/
theorem test_witness_StorageReadsAsWritten :
    ((let s := base.modHif fun h => { h with bulk := [{ offset := 0, size := 4096 }] }; Served 7 4096 [] s ∧ inBulk s 0 4096 = true ∧
      inBulk s 0 4104 = false)) ∧
    ((theDesc 7 0 [0, 0, 0, 0, 0, 0, 0, 0, 1]).desc.par 32 1 = 1 ∧ (theDesc 7 0 []).desc.par 32 1 = 0) ∧
    (pageWrites base (pstPage base 0) < 10000000000) ∧
    (10000000000 ≤ pageWrites (writePage 0 [] 0 0 0 (base.modPst fun p => { p with pages := [{ num := 0, c0 := { (pstPage (writePage 0 [] 0 0 0 base).2 0).c0 with writes := 10000000000 }, c1 := (pstPage (writePage 0 [] 0 0 0 base).2 0).c1 }] })).2 (pstPage (base.modPst fun p => { p with pages := [{ num := 0, c0 := { (pstPage (writePage 0 [] 0 0 0 base).2 0).c0 with writes := 10000000000 }, c1 := (pstPage (writePage 0 [] 0 0 0 base).2 0).c1 }] }) 0)) ∧
    (Memory.wf [(3, 1), (4, 2)] = true ∧ Memory.wf [(4, 1), (3, 2)] = false ∧ Memory.wf [(3, 0)] = false) :=
  by and_intros <;> decide

/-- Clause by clause, the hypotheses of `Obligations.StoreWrites`. -/
theorem test_witness_StoreWrites :
    ((let r : PageReq := { row := 4, page := 3, body := [], use_ := .nothing }; let s := (stored base).modPst fun p => { p with queue := [r] };
      s.pst.ready = true ∧ nextPage s.pst.queue = some r)) ∧
    ((base.modPst fun p => { p with ready := false }).pst.ready = false) ∧
    ((let s := (stored base).modRwp fun r => { r with changed := true }; s.pst.ready = true ∧ s.rwp.changed = true ∧ s.pst.rwpBad = false ∧
      nextRec s = some 0)) ∧
    (base.rwp.changed = false) ∧
    ((let s := atNs 86400000000000 ((booted base).modTim fun t => { t with quality := .seeded }); firmwareRuns s = true ∧ qualityKnown s = true ∧
      s.pst.scanAt + 86400000000000 ≤ s.clk.now)) ∧
    ((atNs 86399999999999 base).clk.now < base.pst.scanAt + 86400000000000) ∧
    ((let s := atNs 10000000 ((booted (writePage 5 [] 0 0 0 base).2).modPst fun p => { p with refresh := [5] }); firmwareRuns s = true ∧
      s.pst.refreshAt + 10000000 ≤ s.clk.now ∧ s.pst.refresh = [5] ∧ (peekPage s 5).isSome = true)) ∧
    (base.pst.refresh = []) :=
  by and_intros <;> decide

/-- Clause by clause, the hypotheses of `Obligations.RetentiveAndPasswords`. -/
theorem test_witness_RetentiveAndPasswords :
    ((stored (booted base)).sys.warned = false ∧ (stored (booted base)).sys.inReset = false ∧ (stored (booted base)).pst.ready = true) ∧
    ((base.modSys fun y => { y with warned := true }).sys.warned = true) ∧
    ((let s := atNs 5 (base.modPst fun p => { p with pwd := vmod p.pwd 2 fun x => { x with until_ := some 5, fails := 7 } });
      (s.pst.pwd.get 2).until_ = some 5 ∧ 5 ≤ s.clk.opNs ∧ 7 ≤ (s.pst.pwd.get 2).fails ∧ (base.pst.pwd.get 2).fails < 7)) ∧
    (Served 0x52 0 [2] base ∧ (theDesc 0x52 0 [2]).desc.par 24 1 = 2 ∧
      (checkChange 2 true (List.replicate 16 0) (List.replicate 16 0) base).1 = true) ∧
    ((checkChange 2 false [] (List.replicate 16 0) (base.modPst fun p => { p with pwd := vmod p.pwd 2 fun x => { x with write := List.replicate 16 1 } })).1 = false) ∧
    ((let s := base.modPst fun p => { p with pwd := vmod p.pwd 2 fun x => { x with until_ := some 1 } }; (s.pst.pwd.get 2).until_ = some 1 ∧
      s.clk.opNs < 1)) :=
  by and_intros <;> decide

/-- Clause by clause, the hypotheses of `Obligations.StoreReads`. -/
theorem test_witness_StoreReads :
    (Served 0x50 8 [] base ∧ 0 < (theDesc 0x50 8 []).desc.len ∧ (theDesc 0x50 8 []).desc.par 24 4 + 8 ≤ 16777216) ∧
    ((checkReads (List.replicate 16 0) (regionsRead 0 0) base).1 = true) ∧
    ((storePages 0 1 (base.modPst fun p => { p with pages := [{ num := 0, c0 := { (pstPage base 0).c0 with bad := true }, c1 := { (pstPage base 0).c1 with bad := true } }] })).1 = none) ∧
    ((storePages 5 1 (writePage 5 [] 0 0 0 base).2).1.isSome = true) ∧
    ((checkReads (List.replicate 16 0) [0] (base.modPst fun p => { p with pwd := vmod p.pwd 0 fun x => { x with read := List.replicate 16 1 } })).1 = false) ∧
    (Served 0x51 64 [0, 0, 0, 0, 1] base ∧ (theDesc 0x51 64 [0,
      0, 0, 0, 1]).desc.par 24 4 + (theDesc 0x51 64 [0, 0, 0, 0, 1]).desc.par 28 4 ≤ 65536 ∧
      64 * (theDesc 0x51 64 [0, 0, 0, 0, 1]).desc.par 28 4 ≤ 64 ∧ 56 < 64 * (theDesc 0x51 64 [0, 0, 0, 0, 1]).desc.par 28 4) ∧
    (Served 0x53 0 [] base ∧ hasRetentive base = false) ∧
    (Served 0x54 0 [] base ∧ committedGroup base 1 = none) ∧
    ((committedGroup (base.modPst fun p => { p with journal := vmod (vmod p.journal 0 fun j => { j with state := 2, group := 1 }) 2 fun j => { j with state := 2, group := 1 } }) 1).isSome = true) ∧
    ((let s := modBank 0 (fun _ => { state := .active, image := some { image with syms := image.syms.map fun y => { y with retentive := true } }, map := none }) base; Served 0x53 0 [] s ∧ hasRetentive (serving 0x53 0 [] s) = true)) :=
  by and_intros <;> decide

/-- Clause by clause, the hypotheses of `Obligations.Metering`. -/
theorem test_witness_Metering :
    ((let s := atNs 62500 (booted base); s.clk.ct / 62500 ≠ s.mtr.sample ∧ 6 ≤ s.sys.step ∧ s.sys.inReset = false)) ∧
    ((atNs 62499 base).clk.ct / 62500 = base.mtr.sample) ∧
    ((pointOf base 7).on = false) ∧
    ((let s := metered base; (pointOf s 0).mode = 1 ∧ (pointOf s 0).cfg.getLsbD 4 = false ∧ (s.rwp.mtrPhase.get 0).extractLsb' 0 9 = 0 ∧
      s.mtr.begun = true)) ∧
    ((let s := atNs 100000000 (booted (metered base)); s.clk.ct / 100000000 ≠ s.mtr.boundary ∧ s.sys.inReset = false ∧ s.mtr.begun = true)) ∧
    ((atNs 100000000 (booted base)).mtr.begun = false) ∧
    ((atNs 99999999 base).clk.ct / 100000000 = base.mtr.boundary) ∧
    ((let s := modPoint 0 (fun p => { p with lostSeen := true }) base; (pointOf s 0).lostSeen = true ∧ (pointOf base 0).lostSeen = false)) ∧
    ((let s := modPoint 0 (fun p => { p with n := 1600 }) (metered base); (pointOf s 0).lostSeen = false ∧ (pointOf s 0).vLost = false ∧
      (pointOf s 0).iLost = false ∧ (pointOf s 0).sumP.natAbs * 16 < (pointOf s 0).noloadW * (pointOf s 0).n * mjUnit)) :=
  by and_intros <;> decide

/-- Clause by clause, the hypotheses of `Obligations.MeterSupervision`. -/
theorem test_witness_MeterSupervision :
    ((let s := modPoint 0 (fun p => { p with vLost := true }) base; (pointOf s 0).lost false = true ∧ (pointOf base 0).lost true = false)) ∧
    ((let s := (modPoint 0 (fun p => { p with cfg := 3 }) base).modMtr fun m => { m with sample := 1600 }; (pointOf s 0).ac = true ∧
      (pointOf s 0).zcLost = false ∧ (pointOf s 0).awaitAt + ((pointOf s 0).limit &&& 0xFFFF#32).toNat * 16 ≤ s.mtr.sample)) ∧
    ((pointOf base 0).ac = false) ∧
    ((let s := (modPoint 1 (fun p => { p with cfg := 3, hist := List.replicate (pqSpan (pointOf (modPoint 1 (fun p => { p with cfg := 3 }) base) 1)) 0 }) base).modMtr fun m => { m with sample := 16000 }; (pointOf s 1).on = true ∧ pqSpan (pointOf s 1) ≤ (pointOf s 1).hist.length ∧ (pointOf s 1).refreshAt + pqSpan (pointOf s 1) / 2 ≤ s.mtr.sample)) ∧
    ((let s : State := { modPoint 0 (fun p => { p with cfg := 3, limit := 0xE60064 }) base with rws := { base.rws with mtrPqCfg := 0x5A } };
      (pointOf s 0).sag = none ∧ (pointOf s 0).vLost = false ∧ (0 : Int) * 100 < (s.rws.mtrPqCfg.extractLsb' 0 8).toNat * (pointOf s 0).unom)) ∧
    ((base.rws.mtrPqCfg.extractLsb' 0 8).toNat * (pointOf base 0).unom ≤ (0 : Int) * 100) :=
  by and_intros <;> decide

/-- Clause by clause, the hypotheses of `Obligations.MeterSaveAndReads`. -/
theorem test_witness_MeterSaveAndReads :
    ((let s := atNs 1000000000 (stored (booted (metered base))); s.mtr.begun = true ∧ s.clk.ct / 1000000000 ≠ s.mtr.savedSec ∧
      s.sys.inReset = false ∧ firmwareRuns s = true ∧ s.pst.ready = true)) ∧
    (base.mtr.begun = false) ∧
    (Served 0x90 504 [] base ∧ 504 < 512) ∧
    (Served 0x90 512 [] base) ∧
    (Served 0x91 520 [7] base ∧ (theDesc 0x91 520 [7]).desc.par 24 1 = 7) ∧
    ((checkPwd 2 true (List.replicate 16 0) (base.modPst fun p => { p with pwd := vmod p.pwd 2 fun x => { x with write := List.replicate 16 1 } })).1 = false) ∧
    (Served 0x92 0 [7] base ∧ (theDesc 0x92 0 [7]).desc.par 24 1 = 7 ∧ (checkPwd 2 true (List.replicate 16 0) base).1 = true) :=
  by and_intros <;> decide

/-- Clause by clause, the hypotheses of `Obligations.FirmwareTransfer`. -/
theorem test_witness_FirmwareTransfer :
    ((let s := base.modFwu fun u => { u with transfer := some 1 }; Served 0x70 0 [] s ∧ s.fwu.transfer.isSome = true)) ∧
    (Served 0x70 0 [] base ∧ base.fwu.transfer = none ∧ trialRuns base = false ∧ targetSlot base = some 1 ∧
      (checkPwd 1 true (List.replicate 16 0) (touchFwu base)).1 = true) ∧
    ((checkPwd 1 true (List.replicate 16 0) (base.modPst fun p => { p with pwd := vmod p.pwd 1 fun x => { x with write := List.replicate 16 1 } })).1 = false) ∧
    ((let s := base.modFwu fun u => { u with transfer := some 1, next := 1 }; Served 0x71 0 [] s ∧
      (crc32c []).toNat = (theDesc 0x71 0 []).desc.par 28 4 ∧ (theDesc 0x71 0 []).desc.par 24 4 + 1 = s.fwu.next)) ∧
    ((crc32c []).toNat ≠ (theDesc 0x71 0 [0, 0, 0, 0, 1]).desc.par 28 4) ∧
    ((let s := modSlot 1 (fun x => { x with total := 65536 }) (base.modFwu fun u => { u with transfer := some 1 });
      (theDesc 0x71 0 []).desc.par 24 4 = s.fwu.next ∧ 0 < blocksOf (min maxImage (fwSlot s 1).total))) ∧
    (Served 0x72 0 [] (base.modFwu fun u => { u with transfer := some 1 })) ∧
    (Served 0x75 0 [] (base.modFwu fun u => { u with transfer := some 1 })) ∧
    ((let s := atNs 600000000000 (base.modFwu fun u => { u with transfer := some 1 }); s.fwu.transfer = some 1 ∧
      s.fwu.lastOpAt + 600000000000 ≤ s.clk.now)) ∧
    ((atNs 599999999999 base).clk.now < base.fwu.lastOpAt + 600000000000) ∧
    (Served 0x76 0 [] base) :=
  by and_intros <;> decide

/-- Clause by clause, the hypotheses of `Obligations.FirmwareActivation`. -/
theorem test_witness_FirmwareActivation :
    (Served 0x73 0 [2] base ∧ 2 ≤ (theDesc 0x73 0 [2]).desc.par 24 1) ∧
    ((let s := modSlot 1 (fun x => { x with state := .verified, good := true }) base; Served 0x73 0 [1] s ∧ (theDesc 0x73 0 [1]).desc.par 24 1 = 1 ∧
      activateBarred (serving 0x73 0 [1] s) = false ∧ activatable s 1 = true ∧ s.sys.run ≠ .safeTalk ∧ pairMember s = false)) ∧
    ((let s := base.modFwu fun u => { u with activating := some ((0, 0), 1) }; s.fwu.activating = some ((0, 0), 1) ∧ s.fwu.pausing = false)) ∧
    (base.fwu.activating = none) ∧
    ((base.modFwu fun u => { u with pauseSlot := some 1 }).fwu.pauseSlot = some 1) ∧
    (base.fwu.fallback = false) ∧
    (Served 0x74 0 [] (base.modFwu fun u => { u with trialAt := some 0 }) ∧
      (base.modFwu fun u => { u with trialAt := some 0 }).fwu.trialAt.isSome = true) ∧
    (mayConfirm base = false) ∧
    ((let s := atNs 2000000000 (guarded ((booted base).modFwu fun u => { u with trialAt := some 0, goodSince := some 0, hostConfirm := true }));
      mayConfirm (atNs 20000000000 s) = true)) ∧
    ((let s := atNs 60000000000 ((modSlot 1 (fun x => { x with state := .previous, good := true }) base).modFwu fun u => { u with trialAt := some 0 }); s.fwu.trialAt = some 0 ∧ s.fwu.pausing = false ∧ 0 + 60000000000 ≤ s.clk.now ∧ fallbackSlot s (otherSlot s.fwu.running) = true)) ∧
    ((atNs 59999999999 base).clk.now < 0 + 60000000000) :=
  by and_intros <;> decide

/-- Clause by clause, the hypotheses of `Obligations.ResetAndPowerUp`. -/
theorem test_witness_ResetAndPowerUp :
    ((booted base).sys.inReset = false) ∧
    ((base.modSys fun y => { y with inReset := true }).sys.inReset = true) ∧
    ((booted base).sys.vinPresent = true ∧ (base.modSys fun y => { y with vinPresent := false }).sys.vinPresent = false) ∧
    ((let s := base.modSys fun y => { y with vinPresent := true, inReset := true }; s.sys.vinPresent = true ∧ s.sys.hotStop = false ∧
      s.sys.inReset = true)) ∧
    ((base.modSys fun y => { y with hotStop := true }).sys.hotStop = true) ∧
    ((let s := base.modSys fun y => { y with step := 6, inReset := false }; s.sys.step = 6 ∧ s.sys.inReset = false ∧ s.fuse.fault = false ∧
      [((1 : Nat), (2 : Nat))] ≠ [])) ∧
    (base.sys.step ≠ 6) ∧
    ((let s := base.modSys fun y => { y with step := 6, inReset := false }; s.fuse.fault = false ∧
      bistFailures [] (Vector.replicate 3 0) none = [] ∧ bistFailures [] (Vector.ofFn fun i => if i = 2 then 1 else 0) none ≠ [])) ∧
    (base.sys.nextKind = 1 ∨ base.sys.nextKind ≠ 1) :=
  by and_intros <;> decide

/-- Clause by clause, the hypotheses of `Obligations.RestartsFusesAndScrubs`. -/
theorem test_witness_RestartsFusesAndScrubs :
    (Served 0x86 0 [] base ∧ base.sys.restart = none) ∧
    ((let s := base.modSys fun y => { y with restart := some { kind := 5, at_ := 0 } }; Served 0x86 0 [] s ∧ s.sys.restart.isSome = true ∧
      0 ≤ s.clk.now ∧ restartHeld s = false)) ∧
    (restartHeld (inTxn .committed base) = true) ∧
    ((base.modSys fun y => { y with safeCause := 9 }).sys.safeCause = 9 ∧ base.sys.restart = none) ∧
    (base.sys.safeCause ≠ 9) ∧
    (Served 0x85 0 [] base) ∧
    (Served 0x87 0 [] base ∧ fuseFree base 0 = true ∧ base.sys.run = .stopped) ∧
    ((inRun .running base).sys.run ≠ .stopped ∧ (inRun .running base).sys.run ≠ .safeTalk) ∧
    (fuseFree ({ base with fuse := { base.fuse with ident := some 0 } } : State) 0 = false) ∧
    (base.fuse.wdg = none) ∧
    ((let s := atNs 43200000000000 (booted base); firmwareRuns s = true ∧ s.mem.scrubAt + 1000000000 ≤ s.clk.now ∧ s.sys.inReset = false ∧
      s.mem.patrolAt + 43200000000000 ≤ s.clk.now)) :=
  by and_intros <;> decide

/-- Clause by clause, the hypotheses of `Obligations.Watchdog`. -/
theorem test_witness_Watchdog :
    ((let s := booted base; s.wdg.running = false ∧ s.sys.inReset = false ∧ (fuseWdg s).hw = false)) ∧
    ((let s := { booted base with fuse := { base.fuse with wdg := some { hw := true, opening := 0, n := 0 } } }; (fuseWdg s).hw = true)) ∧
    ((let s := (booted base).modRwp fun r => { r with wdgCfg := 0x10000 }; s.rwp.wdgCfg.getLsbD 16 = true ∧ s.sys.selfTestEnded = true)) ∧
    ((guarded base).wdg.running = true) ∧
    ((let s := atNs 90000000 (guarded base); wdgOpening s ≤ wdgElapsed s ∧ wdgElapsed s < s.wdg.len)) ∧
    ((let s := (guarded base).modWdg fun w => { w with question := 0 }; (tokenOf 0).setWidth 32 = 0x5A3C#32 ∧
      s.wdg.question = (0x5A3C#32).extractLsb' 16 16 ∧ (0x5A3C#32).extractLsb' 0 16 = tokenOf s.wdg.question ∧
      (0#32).extractLsb' 0 16 ≠ tokenOf s.wdg.question)) ∧
    (wdgElapsed (guarded base) < wdgOpening (guarded base)) ∧
    ((let s := atNs 200000000 (guarded base); s.wdg.len ≤ wdgElapsed s ∧ wdgOpening s ≤ wdgElapsed s)) ∧
    ((base.wdg.step1.any fun x => x.1 == none && decide (base.clk.now < x.2 + 10000000000)) = false) ∧
    ((let s := base.modWdg fun w => { w with step1 := [(none, 0)] };
      (s.wdg.step1.any fun x => x.1 == none && decide (s.clk.now < x.2 + 10000000000)) = true ∧ s.sys.run ≠ .safeTalk ∧
      (liveStamps s).length < (fuseWdg s).n.toNat)) ∧
    ((let s := base.modWdg fun w => { w with stamps := List.replicate 7 0 }; (fuseWdg s).n.toNat ≤ (liveStamps s).length)) :=
  by and_intros <;> decide

/-- Clause by clause, the hypotheses of `Obligations.FieldInputsAndTimeouts`. -/
theorem test_witness_FieldInputsAndTimeouts :
    ((chanOf (channel 4 base) 0).cfg.mode = 4) ∧
    ((chanOf (channel 1 base) 0).cfg.input = true ∧ (chanOf (channel 1 base) 0).cfg.pulsed = false) ∧
    ((chanOf base 0).cfg.mode ≠ 4 ∧ (chanOf base 0).cfg.input = false) ∧
    ((let s := modChan 0 (fun c => { c with cfg := { c.cfg with pulsed := true, wireBreak := true } }) (channel 1 base);
      (chanOf s 0).cfg.pulsed = true ∧ (chanOf s 0).cfg.input = true ∧ (chanOf s 0).cfg.wireBreak = true ∧ (chanOf s 0).state = false)) ∧
    ((let s := atNs 100000 (modChan 0 (fun c => { c with raw := true, cfg := { c.cfg with debounce := 100 } }) (channel 1 base));
      (chanOf s 0).raw ≠ (chanOf s 0).state ∧ (chanOf s 0).rawSince + (chanOf s 0).cfg.debounce * 1000 ≤ s.clk.now)) ∧
    ((let s := atNs 99999 (modChan 0 (fun c => { c with cfg := { c.cfg with debounce := 100 } }) base);
      s.clk.now < (chanOf s 0).rawSince + (chanOf s 0).cfg.debounce * 1000 ∧ (chanOf s 0).raw = false)) ∧
    ((chanOf (modChan 0 (fun c => { c with state := true }) base) 0).state = true) ∧
    ((chanOf (modChan 0 (fun c => { c with diag := 1 }) base) 0).has 0 = true) ∧
    (base.fio.edges = []) ∧
    ((let e : FieldEdge := { chan := 0, rise := true, stamp := 0, took := 0 };
      let s := base.modFio fun x => { x with edges := [e], reported := List.replicate 63 0 }; s.fio.edges = [e] ∧
      (lastReports (rollEdges (s.modFio fun x => { x with edges := [] }))).length < 64)) ∧
    ((let e : FieldEdge := { chan := 0, rise := true, stamp := 0, took := 0 };
      let s := base.modFio fun x => { x with edges := [e], reported := List.replicate 64 0 }; s.fio.edges = [e] ∧
      64 ≤ (lastReports (rollEdges (s.modFio fun x => { x with edges := [] }))).length)) ∧
    ((let s := atNs 300000 base; s.fio.faulted = false ∧ s.fio.echoAt + 300000 ≤ s.clk.now)) ∧
    ((atNs 299999 base).clk.now < base.fio.echoAt + 300000) ∧
    ((let s := atNs 1000000000 (base.modFio fun x => { x with safe := false }); s.fio.safe = false ∧
      s.fio.lastValid + s.fio.timeout * 1000000 ≤ s.clk.now)) ∧
    (base.fio.safe = true) ∧
    ((chanOf (channel 3 base) 0).cfg.output = true) ∧
    ((let s := modChan 0 (fun c => { c with cfg := { c.cfg with wireBreak := true } }) (channel 1 base); (chanOf s 0).cfg.wireBreak = true ∧
      (chanOf s 0).cfg.input = true ∧ (chanOf s 0).state = false ∧ 10000 ≤ 10000 ∧ 9999 < 10000)) :=
  by and_intros <;> decide

/-- Clause by clause, the hypotheses of `Obligations.BarrierAndReadback`. -/
theorem test_witness_BarrierAndReadback :
    ((let s := atNs 100000 (booted base); s.fio.refreshAt + 100000 ≤ s.clk.now ∧ s.sys.inReset = false ∧ 6 ≤ s.sys.step)) ∧
    ((atNs 99999 base).clk.now < base.fio.refreshAt + 100000) ∧
    (nextCommand base = none) ∧
    (firstCommand base.fio.commands = none) ∧
    ((let s := base.modFio fun x => { x with commands := [{ instant := 5, states := [(0, true)] }] };
      firstCommand s.fio.commands = some { instant := 5, states := [(0, true)] } ∧ s.clk.ct < 5 ∧ 5 ≤ (atNs 5 s).clk.ct ∧ s.fio.applied < 5 ∧
      5 ≤ (s.modFio fun x => { x with applied := 5 }).fio.applied)) ∧
    ((chanOf (modChan 0 (fun c => { c with cmd := true }) base) 0).cmd = true) ∧
    ((let s := atNs 1000000 (modChan 0 (fun c => { c with cmd := true, on := true, diag := 2 }) (channel 4 base)); (chanOf s 0).comparable = true ∧
      (chanOf s 0).comparedSince + 1000000 ≤ s.clk.now ∧ (chanOf s 0).readback = false)) ∧
    ((let s := atNs 1000000 (modChan 0 (fun c => { c with readback := true, diag := 4 }) (channel 4 base)); (chanOf s 0).comparable = true ∧
      (chanOf s 0).comparedSince + 1000000 ≤ s.clk.now ∧ (chanOf s 0).cmd = false ∧ (chanOf s 0).readback = true ∧ (chanOf s 0).cfg.wiredOr = false)) ∧
    ((let s := atNs 1000000 (modChan 0 (fun c => { c with diag := 6 }) (channel 4 base)); (chanOf s 0).cmd = (chanOf s 0).readback ∧
      (chanOf s 0).diag &&& 6 ≠ 0 ∧ max (chanOf s 0).readbackAt (chanOf s 0).cmdAt + 1000000 ≤ s.clk.now)) ∧
    ((let c : Fio → Fio := fun x => { x with commands := [{ instant := 5, states := [(0, true)] }] }; let s := atNs 5 (base.modFio c);
      firstCommand s.fio.commands = some { instant := 5, states := [(0, true)] } ∧ 5 ≤ s.clk.ct ∧ s.fio.applied < 5)) ∧
    ((let r := { release1 with cut := true, instant := 1000, image := [(0x0F000005, { value := 1, quality := 0 })] };
      let s := (inRun .running (atWork r base)).modFio fun x => { x with safe := false }; nextCommand s = some (1, 1000, r.image) ∧
      commandsOutputs s = true ∧ s.fio.faulted = false ∧ s.fio.safe = false ∧ s.clk.ct + 1000 ≤ 1000)) ∧
    ((let r := { release1 with cut := true, instant := 999, image := [(0x0F000005, { value := 1, quality := 0 })] };
      let s := inRun .running (atWork r base); nextCommand s = some (1, 999, r.image) ∧ commandsOutputs s = true ∧ s.fio.faulted = false ∧
      999 < s.clk.ct + 1000)) ∧
    ((let r := { release1 with cut := true, instant := 999, image := [(0x0F000005, { value := 1, quality := 0 })] }; let s := atWork r base;
      nextCommand s = some (1, 999, r.image) ∧ commandsOutputs s = false)) :=
  by and_intros <;> decide

/-- Clause by clause, the hypotheses of `Obligations.OutputProtection`. -/
theorem test_witness_OutputProtection :
    ((chanOf (channel 3 base) 0).cfg.output = true) ∧
    ((8#8) &&& (chanOf base 0).diag ≠ 8#8) ∧
    ((0#8) &&& (chanOf base 0).diag = 0#8) ∧
    ((let s := modChan 0 (fun c => { c with on := true, diag := 0x30 }) (channel 3 base); (chanOf s 0).cfg.output = true ∧ (chanOf s 0).on = true ∧
      (chanOf s 0).has 4 = true ∧ (chanOf s 0).has 5 = true)) ∧
    ((let s := atNs 1000000 (modChan 0 (fun c => { c with diag := 0x20 }) (channel 3 base)); (chanOf s 0).has 5 = true ∧ (chanOf s 0).cmd = false ∧
      (chanOf s 0).cmdAt + 1000000 ≤ s.clk.now)) ∧
    ((base.fio.groups.get 3).overload = false ∧ 2200 < (2201#16).toNat ∧ (2200#16).toNat ≤ 2200) ∧
    ((base.fio.groups.get 3).sag1 = false ∧ (base.fio.groups.get 3).sag2 = false ∧ (17999#16).toNat < 18000 ∧ 18000 ≤ (18000#16).toNat ∧
      (11999#16).toNat < 12000) ∧
    (((base.modFio fun x => { x with groups := vmod x.groups 3 fun g => { g with sag1 := true } }).fio.groups.get 3).sag1 = true) ∧
    (1000 ≤ 1000 ∧ 999 < 1000 ∧ 50 ≤ 50 ∧ 49 < 50 ∧ 10000 ≤ 10000 ∧ 9999 < 10000 ∧ 100000 ≤ 100000) :=
  by and_intros <;> decide

/-- Clause by clause, the hypotheses of `Obligations.VotingAndFaults`. -/
theorem test_witness_VotingAndFaults :
    ((base.lanes.get 0).buffer = []) ∧
    ((let s := modLane 0 (fun x => { x with buffer := [record 1] }) base; (s.lanes.get 0).buffer = [record 1] ∧ (s.lanes.get 0).state ≠ .inService)) ∧
    (((voting 0 base).lanes.get 0).state = .inService) ∧
    ((let s := queued 1 1 2 (voting 0 base); s.vot.mode = 0 ∧ lanesIn s = [0, 1, 2] ∧ headOf s 1 0 = some (record 1) ∧
      headOf s 1 1 = some (record 1) ∧ headOf s 1 2 = some (record 2) ∧ record 1 ≠ record 2)) ∧
    (headOf (queued 1 2 3 (voting 0 base)) 1 2 = some (record 3)) ∧
    ((let s := laneIn 2 .failed (queued 1 2 3 (voting 1 base)); s.vot.mode = 1 ∧ lanesIn s = [0, 1] ∧ headOf s 1 0 = some (record 1) ∧
      headOf s 1 1 = some (record 2))) ∧
    (960000 ≤ 960000 ∧ 1040000 < 1040001) ∧
    ((let s := atNs 10000 base; (s.lanes.get 0).freqAt + 10000 ≤ s.clk.now ∧
      ¬ (((atNs 9999 base).lanes.get 0).freqAt + 10000 ≤ (atNs 9999 base).clk.now))) ∧
    (759 < 760 ∧ 840 < 841 ∧ 2000 < 2001 ∧ 1040000 ≤ 1040000) ∧
    ((let s := modLane 0 (fun x => { x with buffer := [record 1] }) (voting 0 base); (s.lanes.get 0).buffer = [record 1] ∧
      (s.lanes.get 0).state = .inService)) ∧
    ((let s := atNs 10000000 (atWork release1 base);
      s.tsk.rels.find? (fun r => overdue s r 0 && decide (laneDeadline r 0 ≤ s.clk.ct)) = some release1)) ∧
    (base.tsk.rels = []) :=
  by and_intros <;> decide

/-- Clause by clause, the hypotheses of `Obligations.LaneRecovery`. -/
theorem test_witness_LaneRecovery :
    (((voting 0 base).lanes.get 0).state ≠ .selfTest ∧ (base.lanes.get 0).state = .selfTest ∧ (base.lanes.get 0).verdict = none) ∧
    (sourceLane base = none) ∧
    ((let s := atNs 10000000000 (modLane 2 (fun x => { x with resyncNs := 10000000000 }) (laneIn 2 .resync (voting 1 base)));
      (s.lanes.get 2).state = .resync ∧ 10000000000 ≤ resyncElapsed s 2)) ∧
    (resyncElapsed base 0 < 10000000000) ∧
    ((let s := atNs 3600000000000 (base.modVot fun v => { v with mode := 2, singleLeft := 0 }); s.vot.mode = 2 ∧
      s.vot.hourAt + 3600000000000 ≤ s.clk.opNs ∧ singleLeft s = 0 ∧ s.vot.savedAt + 60000000000 ≤ s.clk.opNs)) ∧
    (base.vot.mode ≠ 2) ∧
    (((laneIn 2 .selfTest base).lanes.get 2).state = .selfTest ∧ ((laneIn 2 .selfTest base).lanes.get 2).verdict = none) ∧
    ((let s := atNs 5 (booted (modLane 2 (fun x => { x with step := 3 }) (laneIn 2 .resync (voting 1 base)))); sourceLane s = some 0 ∧
      (s.lanes.get 2).state = .resync ∧ (s.lanes.get 2).step = 3 ∧ (s.lanes.get 2).finalDone = false ∧ s.fwu.pausing = false ∧ storeIntact s = true ∧
      windowFits s (finalCopyNs s (s.lanes.get 2).dirty.count) = true)) :=
  by and_intros <;> decide

/-- Clause by clause, the hypotheses of `Obligations.LaneDescriptors`. -/
theorem test_witness_LaneDescriptors :
    (Served 0x80 208 [] base) ∧
    (Served 0x84 0 [1] (inRun .running base)) ∧
    (Served 0x84 0 [1] base) ∧
    (Served 0x81 0 [2] base ∧ (theDesc 0x81 0 [2]).desc.par 24 1 = 2 ∧ base.vot.mode = 3) ∧
    (Served 0x81 0 [2] (laneIn 2 .failed (voting 1 base)) ∧ (laneIn 2 .failed (voting 1 base)).vot.mode ≠ 3 ∧
      ((laneIn 2 .failed (voting 1 base)).lanes.get 2).state = .failed) ∧
    (Served 0x82 0 [2] (voting 0 base) ∧ (voting 0 base).vot.mode = 0 ∧ base.vot.mode ≠ 0) ∧
    (Served 0x83 0 [2] (laneIn 2 .hostOut (voting 1 base)) ∧ ((laneIn 2 .hostOut (voting 1 base)).lanes.get 2).state = .hostOut ∧
      (sourceLane (laneIn 2 .hostOut (voting 1 base))).isSome = true) ∧
    (((voting 0 base).lanes.get 2).state = .inService) :=
  by and_intros <;> decide

/-- Clause by clause, the hypotheses of `Obligations.RingFrames`. -/
theorem test_witness_RingFrames :
    (portUp base 0 = false) ∧
    (portUp (ringUsed base) 0 = true ∧ portRing 0 = some 0 ∧ portRing 9 = none) ∧
    (portUp (base.modNet fun n => { n with ports := vmod n.ports 9 fun x => { x with up := true } }) 9 = true) ∧
    ((let s := ringUsed base; s.sys.selfTestEnded = true ∧ noFirmware s = false ∧ (ringOf s 0).active = true)) ∧
    (isStrait (frameBytes 0x8000 1 0) = true ∧ (straitOf (frameBytes 0x8000 1 0)).src = domainAddr 0 ∧
      (straitOf (frameBytes 0x8000 1 0)).sender = senderBit (base.modSys fun y => { y with pairId := false })) ∧
    ((straitOf (frameBytes 1 0x8000 511)).src ≠ domainAddr 0 ∧ 512 ≤ (straitOf (frameBytes 1 0x8000 511)).hops + 1 ∧
      (straitOf (frameBytes 1 0x8000 510)).hops + 1 < 512) ∧
    ((straitOf (frameBytes 1 2 0)).dst ≠ domainAddr 0) ∧
    (straitVersion (frameBytes 1 0x8000 0) = 1 ∧ 0 < (straitOf (frameBytes 1 0x8000 0)).typ ∧ (straitOf (frameBytes 1 0x8000 0)).typ ≤ 13 ∧
      (straitOf (frameBytes 1 0x8000 0)).dst = domainAddr 0 ∧ (straitOf (frameBytes 1 0x8000 0)).crc 1 ≠ carriedCrc (frameBytes 1 0x8000 0)) ∧
    (0 < serialDiff (BitVec.ofNat 32 0) 0xFFFFFFFF ∧ serialDiff 5 5 = 0 ∧ serialDiff 4 5 < 0) ∧
    ((8 : PortId).val = 8 ∧ (7 : PortId).val < 8) ∧
    ((let s := modRing 0 (fun r => { r with outst := [{ theDesc 0x47 60 [8] with waiting := true }] }) base;
      waitingDesc 0x47 (fun d => d.par 24 1 == 8) s = some (0, { theDesc 0x47 60 [8] with waiting := true }) ∧ rdBe (List.replicate 12 0 ++ [8, 0] ++
      List.replicate 30 0) 12 2 = 0x0800 ∧ 16 + (List.replicate 12 (0 : Nat) ++ [8, 0] ++ List.replicate 30 0).length ≤ 60 ∧ 60 < 16 + 45)) ∧
    (portUp (base.modNet fun n => { n with ports := vmod n.ports 0 fun x => { x with up := false, speed := 0, full := false } }) 0 = portUp base 0) ∧
    (straitVersion [] ≠ 1) :=
  by and_intros <;> decide

/-- Clause by clause, the hypotheses of `Obligations.RingCycle`. -/
theorem test_witness_RingCycle :
    ((let s := modStrait 0 (fun x => { x with closed := true }) (ringRun base); gateShut s 0 s.clk.ct = false ∧
      originates (flushGate 0 s) 0 = true)) ∧
    (originates (flushGate 0 base) 0 = false) ∧
    ((let s := (inRun .running (ringRun base)).modTsk fun k => { k with anchor := 13000 }; gateShut s 0 s.clk.ct = true)) ∧
    (base.fwu.pausing = false ∧ (base.modFwu fun u => { u with pauseSlot := some 1 }).fwu.pausing = true) ∧
    ((let s := atNs 100000000 (inRun .running (ringRun base)); (ringOf s 0).active = true ∧ (ringOf s 0).count ≠ 0 ∧
      (ringOf s 0).sched.isSome = true ∧ runsProgram s = true ∧ dueCt s 0 (ringOf s 0).cycle ≤ s.clk.ct ∧ synced s = false)) ∧
    ((let s := modStrait 0 (fun x => { x with cycle := 1000 }) (ringRun base); s.clk.ct < dueCt s 0 (ringOf s 0).cycle)) ∧
    ((let s := modStation 0 255 (fun y => { y with misses := 2 }) base; (stationOf s 0 255).misses = 2 ∧ (stationOf s 0 255).dropped = false ∧
      (stationOf s 0 255).lagging = false)) ∧
    ((stationOf base 0 255).misses < 2) :=
  by and_intros <;> decide

/-- Clause by clause, the hypotheses of `Obligations.NetworkDescriptors`. -/
theorem test_witness_NetworkDescriptors :
    (Served 0x40 128 [3] base) ∧
    (Served 0x40 136 [3] base ∧ (theDesc 0x40 136 [3]).desc.par 24 1 = 3) ∧
    (Served 0x45 32 [3] base) ∧
    (Served 0x42 16 [3] base ∧ (theDesc 0x42 16 [3]).desc.par 24 1 ≤ 3 ∧ 3 < (theDesc 0x42 16 [4]).desc.par 24 1) ∧
    (Served 0x43 0 [] base) ∧
    (Served 0x43 0 [] (ringRun base) ∧ (ringOf (ringRun base) 0).inaugBy = none ∧ (ringOf (ringRun base) 0).inaug = 0) ∧
    (Served 0x44 64 [0, 2] (ringRun base) ∧ (ringOf (ringRun base) 0).count ≤ (theDesc 0x44 64 [0, 2]).desc.par 25 1 ∧
      (theDesc 0x44 64 [0, 1]).desc.par 25 1 < (ringOf (ringRun base) 0).count) :=
  by and_intros <;> decide

/-- Clause by clause, the hypotheses of `Obligations.RequestsAndCutOffs`. -/
theorem test_witness_RequestsAndCutOffs :
    (Served 0x41 8 [0, 1, 0, 0x80, 1] (ringRun base) ∧ (let d := (theDesc 0x41 8 [0, 1, 0, 0x80, 1]).desc; requestOp (d.par 27 1) = true ∧
      1 ≤ d.par 28 2 ∧ d.par 28 2 ≤ 16384 ∧ roundUp (d.par 28 2) 8 + d.par 32 4 ≤ d.len ∧ d.par 25 1 < (ringOf (ringRun base) 0).count ∧
      d.deadline = 0)) ∧
    (originates base 0 = false ∧ originates (ringRun base) 0 = true ∧ (ringOf (ringRun base) 0).sched.isSome = true ∧
      (ringOf (ringRun base) 0).count ≠ 0) ∧
    ((ringOf (ringRun base) 0).count ≤ 2) ∧
    ((meetsDeadline (ringRun base) 0 1 1 0 0 1).isSome = true) ∧
    (Served 0x46 64 [8, 0, 0, 0, 60] base ∧ (let d := (theDesc 0x46 64 [8, 0, 0, 0, 60]).desc; d.par 24 1 = 8 ∧ 60 ≤ d.par 28 2 ∧
      d.par 28 2 ≤ 1514 ∧ roundUp (d.par 28 2) 8 ≤ d.len) ∧ portUp base 8 = false) ∧
    (Served 0x47 16 [9] base) ∧
    ((let s := base.modNet fun n => { n with ports := vmod n.ports 8 fun x => { x with up := true } }; portUp s 8 = true)) ∧
    (commandsOutputs base = false) ∧
    (base.tsk.rels = [] ∧ base.tsk.tails = []) ∧
    ((let s := atWork release1 (atNs 500000 base); release1 ∈ s.tsk.rels ∧ release1.cut = false ∧ release1.instant ≤ s.clk.ct + release1.lead)) :=
  by and_intros <;> decide

/-- Clause by clause, the hypotheses of `Obligations.NarrowsCells`. -/
theorem test_witness_NarrowsCells :
    (sendsCells base = false ∧ sendsCells (booted (paired .waiting base)) = true) ∧
    ((base.modPair fun p => { p with rxSeen := [3] }).pair.rxSeen.contains 3 = true ∧ base.pair.rxSeen.contains 3 = false) ∧
    ((base.pair.unacked.find? fun c => c.seq == 3) = none) ∧
    ((let c : PairCell := { seq := 3, msg := .relinquish, sentAt := 0, tries := 2, desc := none, data := [] };
      let s := atNs 25000 (base.modPair fun p => { p with unacked := [c] }); (s.pair.unacked.find? fun c => c.seq == 3) = some c ∧
      overdueCells s = [c] ∧ c.tries < 3)) ∧
    (unprepared (.txnApply 0 0 0 none) base = false) ∧
    ((let s := (booted (paired .standbySynced base)); sendsCells s = true ∧ s.pair.rxSeen.contains 3 = false ∧
      unprepared (.txnApply 0 0 0 (some (1, 1))) s = true)) :=
  by and_intros <;> decide

/-- Clause by clause, the hypotheses of `Obligations.NarrowsLink`. -/
theorem test_witness_NarrowsLink :
    ((let c : PairCell := { seq := 3, msg := .relinquish, sentAt := 0, tries := 2, desc := none, data := [] };
      let s := atNs 25000 (base.modPair fun p => { p with unacked := [c] }); (s.pair.unacked.find? fun c => c.seq == 3) = some c ∧
      overdueCells s = [c] ∧ c.tries < 3)) ∧
    (overdueCells base = []) ∧
    ((let s := atNs 20000 (booted (paired .waiting base)); s.pair.sentAt + 2000 ≤ s.clk.now ∧ s.pair.up = true ∧ s.pair.cellAt + 20000 ≤ s.clk.now)) ∧
    ((atNs 1999 base).clk.now < base.pair.sentAt + 2000 ∧ (atNs 19999 base).clk.now < base.pair.cellAt + 20000) ∧
    (pairMember base = false ∧ pairMember (paired .waiting base) = true) ∧
    (20001 / 2 ≤ 10000 ∧ 10000 < 20002 / 2) ∧
    (linkReady base = false) ∧
    ((let s := atNs 100000000 ((booted (paired .waiting base)).modPair fun p => { p with up := false, cellAt := 99980000 }); linkReady s = true)) ∧
    (mirrors base = false) ∧
    ((let s := atNs 1000000000 (paired .activeSynced base); mirrors s = true ∧ s.pair.crcAt + 1000000000 ≤ s.clk.now ∧ quiet s = true ∧
      hasRetentive s = false ∧ pairMember s = true ∧ hasAuthority s = true ∧ s.pair.frameCheckAt + 100000000 ≤ s.clk.now)) ∧
    (hasAuthority (paired .standbySynced base) = false) ∧
    ((let s := atNs 1000000 base; s.pair.delayAt + 1000000 ≤ s.clk.now ∧ (atNs 999999 base).clk.now < base.pair.delayAt + 1000000)) ∧
    ((let s := modRun 1 (fun x => { x with cycle := some 0 }) (modBank 0 (fun _ => ⟨.active,
      some { image with syms := image.syms.map fun y => { y with retentive := true } },
      none⟩) (loaded (atNs 1000000000 (paired .activeSynced base)))); latestRelease s = some (1, 0) ∧ mirrors s = true ∧
      s.pair.crcAt + 1000000000 ≤ s.clk.now ∧ quiet s = true ∧ hasRetentive s = true)) :=
  by and_intros <;> decide

/-- Clause by clause, the hypotheses of `Obligations.PairClaims`. -/
theorem test_witness_PairClaims :
    ((let s := atNs 50000 ((paired .waiting base).modPair fun p => { p with ilkIn := true }); s.pair.ilkIn = true ∧ pairMember s = true ∧
      s.pair.ilkRunAt + 50000 ≤ s.clk.now)) ∧
    ((paired .waiting base).pair.ilkIn = false) ∧
    ((atNs 49999 base).clk.now < base.pair.ilkRunAt + 50000) ∧
    ((let s := atNs 100000 ((paired .claiming base).modPair fun p => { p with toggling := true }); s.pair.state = .claiming ∧
      s.pair.toggling = true ∧ s.pair.toggleSince + 100000 ≤ s.clk.now ∧ s.pair.ilkIn = false ∧ s.pair.ilkOffAt + 50000 ≤ s.clk.now)) ∧
    (base.pair.state ≠ .claiming ∧ base.pair.backoff = none) ∧
    ((let s := atNs 7 (base.modPair fun p => { p with backoff := some 7 }); s.pair.backoff = some 7 ∧ 7 ≤ s.clk.now)) ∧
    ((let s := atNs 10000000000 (paired .waiting base); pairMember s = true ∧ s.pair.toggling = false ∧
      s.pair.pulseSentAt + 10000000000 ≤ s.clk.now)) ∧
    ((let s := atNs 11000000000 ((paired .activeAlone base).modPair fun p => { p with toggling := true }); s.pair.toggling = true ∧
      max s.pair.pulseSeenAt s.pair.toggleSince + 11000000000 ≤ s.clk.now)) ∧
    ((let s := atNs 2000000000 ((booted (paired .waiting base)).modPair fun p => { p with up := false }); sendsCells s = true ∧
      s.pair.state = .waiting ∧ s.pair.up = false ∧ s.pair.startAt + 2000000000 ≤ s.clk.now ∧ claimOpen s = true ∧
      claimOpen (s.modPair fun p => { p with ilkIn := true }) = false)) ∧
    ((paired .waiting base).pair.up = true) :=
  by and_intros <;> decide

/-- Clause by clause, the hypotheses of `Obligations.PairChanges`. -/
theorem test_witness_PairChanges :
    ((let s := atNs 100000 ((paired .activeSynced base).modPair fun p => { p with failed := true }); s.pair.state = .activeSynced ∧
      pairMember s = true ∧ s.pair.failed = true ∧ s.pair.failedAt + 100000 ≤ s.clk.now)) ∧
    (base.pair.state ≠ .activeSynced) ∧
    ((let s := atNs 100000 ((paired .standbySynced base).modPair fun p => { p with failed := true, ilkIn := true }); s.pair.state = .standbySynced ∧
      s.pair.ilkIn = true ∧ s.pair.failed = true ∧ s.pair.failedAt + 100000 ≤ s.clk.now)) ∧
    (base.pair.joinStep ≠ 3) ∧
    (quiet (atWork release1 base) = false) ∧
    ((let s := atNs 120000000000 ((paired .standbyJoining base).modPair fun p => { p with joinStep := 1 }); pairMember s = true ∧
      s.pair.joinAt + 120000000000 ≤ s.clk.now ∧ s.pair.state = .standbyJoining ∧ s.pair.joinStep ≠ 0)) ∧
    ((atNs 119999999999 base).clk.now < base.pair.joinAt + 120000000000) ∧
    ((let s : State := { (((voting 0 base).modTim fun t => { t with quality := .locked }).modRwp fun r => { r with pairCfg := 5 }).modPair fun p => { p with state := .standbySynced, healthySince := some 0 } with sys := { base.sys with pairId := false } }; pairMember s = true ∧ preferred s = true ∧ s.rwp.pairCfg.getLsbD 2 = true ∧ s.pair.revertOff = false ∧ healthy s = true ∧ s.pair.healthySince = some 0 ∧ 0 + holdOffNs s ≤ s.clk.now ∧ (lastHour s s.pair.reverts).length < 2 ∧ 2 ≤ (lastHour s [0, 0]).length)) ∧
    ((let s := (paired .activeAlone base).modPair fun p => { p with joinStep := 3 }; pairMember s = true ∧ s.pair.state = .activeAlone ∧
      s.pair.joinStep = 3 ∧ s.pair.up = true ∧ quiet (s.modPair fun p => { p with dirty := p.lines.count }) = true ∧
      nextPeriodic (s.modPair fun p => { p with dirty := p.lines.count }) = none)) :=
  by and_intros <;> decide

/-- Clause by clause, the hypotheses of `Obligations.PairDescriptors`. -/
theorem test_witness_PairDescriptors :
    (Served 0xA0 56 [] base) ∧
    (Served 0xA0 64 [] base) ∧
    ((let s := (paired .activeSynced base); Served 0xA1 0 [] s ∧ mirrors s = true ∧ s.pair.handover = none)) ∧
    (Served 0xA1 0 [] base ∧ mirrors base = false ∧ hasAuthority base = true) ∧
    (Served 0xA1 0 [] (paired .standbySynced base) ∧ hasAuthority (paired .standbySynced base) = false) ∧
    (Served 0xA2 0 [] base ∧ pairMember base = false) ∧
    (Served 0xA2 0 [] (paired .standbyDetached base) ∧ (paired .standbyDetached base).pair.state = .standbyDetached) ∧
    (Served 0xA2 0 [] (paired .activeSynced base)) ∧
    (Served 0xA3 0 [] base) ∧
    (Served 0xA3 0 [] (paired .activeSynced base)) ∧
    (Served 0xA3 0 [] (paired .standbySynced base)) ∧
    (Served 0xA3 0 [] (paired .waiting base) ∧ pairMember (paired .waiting base) = true) ∧
    (Served 0xA4 0 [] base) :=
  by and_intros <;> decide

/-- Clause by clause, the hypotheses of `Obligations.Programs`. -/
theorem test_witness_Programs :
    (Served 0x20 160 [1] base ∧ mirrors base = false ∧ checkImage base.prg.key (bufRead (theDesc 0x20 160 [1]).desc imageBytes base) = .ok image ∧
      (theDesc 0x20 160 [1]).desc.par 24 1 = 1) ∧
    ((bankOf base 1).state = .empty ∧ resyncing base = false ∧ (bankOf (loaded base) 0).state ≠ .empty ∧ resyncing (laneIn 0 .resync base) = true) ∧
    (Served 0x24 0 [] base) ∧
    (Served 0x25 0 [1, 1] base ∧ bankImage base 1 = none ∧ (theDesc 0x25 0 [1, 1]).desc.par 25 1 ≤ 1) ∧
    ((let s := loaded base; bankImage s 0 = some image ∧ image.damaged = false ∧ (checkPwd 0 true (List.replicate 16 0) s).1 = true)) ∧
    ((checkPwd 0 true (List.replicate 16 0) (base.modPst fun p => { p with pwd := vmod p.pwd 0 fun x => { x with write := List.replicate 16 1 } })).1 = false) ∧
    (Served 0x26 104 [] base ∧ base.prg.key = none) ∧
    ((base.modPrg fun p => { p with key := some [] }).prg.key.isSome = true) ∧
    (2 ∈ lanesIn (voting 0 base)) :=
  by and_intros <;> decide

/-- Clause by clause, the hypotheses of `Obligations.SwitchOfAProgram`. -/
theorem test_witness_SwitchOfAProgram :
    ((let m : List Byte := ([1, 0, 0, 0, 0, 0,
      0, 0, 1, 0, 0, 0, 0, 0, 0, 0, 1, 0, 0, 0,
      0, 0, 0, 0, 0, 0, 0, 0, 0, 0, 0, 0, 0, 0,
      0, 0, 0, 0, 0, 0, 0, 0, 0, 0, 0, 0, 0, 0, 0, 0, 0, 0, 0, 0, 0, 0, 0, 0, 0, 0, 255, 113, 143, 235] : List Nat).map fun n => BitVec.ofNat 8 n;
      (checkMap (modBank 1 (fun _ => ⟨.loaded, some image, none⟩) (loaded base)) m matches .ok (_, 1)) = true)) ∧
    (Served 0x21 0 [] base ∧ checkMap base [] = .error 0x10) ∧
    (Served 0x22 0 [] base ∧ ownsTxn base 0 = false) ∧
    (Served 0x22 0 [1] (inTxn .opened base) ∧ ownsTxn (inTxn .opened base) 0 = true ∧ (theDesc 0x22 0 [1]).desc.par 24 1 = 1 ∧
      (theDesc 0x22 0 [1]).desc.par 25 1 ≤ 1 ∧ namedInstant base 0 0 0 = some 0) ∧
    (Served 0x23 0 [1] base ∧ bankHeld base 1 = true ∧ bankHeld (modBank 1 (fun x => { x with state := .retained }) base) 1 = false) ∧
    (base.prg.sw = none) ∧
    ((let w : SwitchRun := { bank := 1, x := 100, w := 100, done := false }; let s := base.modPrg fun p => { p with sw := some w };
      s.prg.sw = some w ∧ w.done = false ∧ w.x ≤ s.clk.ct + w.w)) ∧
    ((let w : SwitchRun := { bank := 1, x := 100, w := 100, done := true }; let s := base.modPrg fun p => { p with sw := some w }; s.clk.ct < w.x ∧
      w.x ≤ (atNs 100 s).clk.ct)) ∧
    ((bankOf (loaded base) 0).state = .active) :=
  by and_intros <;> decide

/-- Clause by clause, the hypotheses of `Obligations.RunAndStop`. -/
theorem test_witness_RunAndStop :
    (Served 0x28 0 [] (inRun .running base) ∧ (inRun .running base).sys.run ≠ .stopped) ∧
    (Served 0x28 0 [] base ∧ base.sys.run = .stopped ∧ (startHost base).1 ≠ .ok 0) ∧
    (activeImage (loaded base) = some image ∧ ((loaded base).tsk.sched.map fun k => k.imageId) = some image.id) ∧
    (Served 0x29 0 [] base ∧ runsProgram base = false ∧ mirrors base = false) ∧
    (Served 0x29 0 [] (inRun .running base) ∧ runsProgram (inRun .running base) = true ∧ base.tsk.stopAt = none) ∧
    ((let s := base.modTsk fun k => { k with stopAt := some 0, stopper := some (0, 0) }; s.tsk.stopAt = some 0 ∧ stopOver s 0 = true ∧
      s.tsk.stopper = some (0, 0))) ∧
    (base.sys.run ≠ .starting) ∧
    ((let s := inRun .starting (loaded base); s.sys.run = .starting ∧ (activeImage s).isSome = true ∧ s.tsk.sched.isSome = true ∧
      ringsReady s = true ∧ ringsReady (modStrait 0 (fun x => { x with inaugAt := 1 }) (ringUsed s)) = false)) ∧
    ((dueInstants base).min? = none) ∧
    ((let r := { release1 with cut := true, instant := 0 }; (dueInstants (atWork r base)).min? = some 0)) ∧
    (running base 0 0 = none) ∧
    ((let s := withCtx (fun c => { c with cyc := 100 }) (atWork release1 base); running s 0 0 = some release1 ∧ (ctxOf s 0 1).inErr = false ∧
      release1.entry.budget ≤ (ctxOf s 0 1).usedCycles)) ∧
    ((let x := { task1 with task := 2, kind := .error }; let r := { release1 with err := some x };
      let s := modCtx 0 2 (fun c => { c with cyc := 100 }) (withCtx (fun c => { c with inErr := true }) (atWork r base)); running s 0 0 = some r ∧
      (ctxOf s 0 1).inErr = true ∧ x.budget ≤ (ctxOf s 0 2).usedCycles)) :=
  by and_intros <;> decide

/-- Clause by clause, the hypotheses of `Obligations.TaskReleases`. -/
theorem test_witness_TaskReleases :
    (mayRelease base = false) ∧
    ((let s := inRun .running (loaded base); mayRelease s = true ∧ duePeriodic s = [(0, task1)])) ∧
    ((let s := inRun .running base; mayRelease s = true ∧ duePeriodic s = [])) ∧
    ((let t := { task1 with kind := .event, eventSrc := 5 };
      let s := inRun .running ((modRun 1 (fun x => { x with due := some 0 }) (loaded base)).modTsk fun k => { k with sched := k.sched.map fun y => { y with tasks := [t] } }); mayRelease s = true ∧ dueEvents s = [(0, t)] ∧ (taskRun s 1).triggers = [] ∧ taskEntry s 1 = some t ∧ t.kind = .event ∧ t.eventSrc = 5)) ∧
    (base.tsk.raw = []) ∧
    ((let s := inRun .running ((loaded base).modTsk fun k => { k with raw := [{ task := 1, stamp := 0, trigger := none }] });
      taskEntry s 1 = some task1 ∧ runsProgram s = true ∧ pairMember s = false ∧ s.pair.state ≠ .standbySynced)) ∧
    ((let r := { release1 with delivered := Vector.replicate 3 false }; let s := atWork r base;
      firstRel (s.tsk.rels.filter fun r => r.lanes.get 0 && !r.delivered.get 0 && decide (r.ct + stagger 0 ≤ s.clk.ct)) = some r)) ∧
    ((let r := { release1 with ready := Vector.replicate 3 false }; let s := atWork r base;
      firstRel (s.tsk.rels.filter fun r => r.lanes.get 0 && r.delivered.get 0 && !r.ready.get 0) = some r)) ∧
    (base.tsk.rels = []) :=
  by and_intros <;> decide

/-- Clause by clause, the hypotheses of `Obligations.VariablesAndTaskStatus`. -/
theorem test_witness_VariablesAndTaskStatus :
    (Served 0x30 0 [0] base ∧ (theDesc 0x30 0 [0]).desc.par 24 1 < 1) ∧
    (Served 0x30 0 [65] base ∧ 64 < (theDesc 0x30 0 [65]).desc.par 24 1) ∧
    (Served 0x30 256 [64] base ∧ roundUp (4 * (theDesc 0x30 256 [64]).desc.par 24 1) 8 ≤ 256) ∧
    (Served 0x31 0 [1] base ∧ mirrors base = false ∧ (parseWrites base (List.replicate 16 0) 1 0 0 matches .error _) = true) ∧
    ((parseWrites (loaded base) [1, 0, 0, 0, 1, 0, 0, 0, 1, 0, 0, 0, 0, 0, 0, 0] 1 0 0 matches .ok _) = true) ∧
    (base.tsk.writes = []) ∧
    (Served 0x2A 0 [1] (inRun .running base) ∧ (theDesc 0x2A 0 [1]).desc.par 24 1 = 1) ∧
    (Served 0x2B 0 [255, 2] base ∧ 256 < (theDesc 0x2B 0 [255, 2]).desc.par 24 1 + (theDesc 0x2B 0 [255, 2]).desc.par 25 1) ∧
    (Served 0x2B 0 [255, 1] base ∧ base.tsk.sched = none ∧ (theDesc 0x2B 0 [255, 1]).desc.par 24 1 + (theDesc 0x2B 0 [255, 1]).desc.par 25 1 ≤ 256 ∧
      (theDesc 0x2B 0 [255, 1]).desc.par 25 1 ≠ 0) ∧
    ((let w : VarWrite := { ring := 31, num := 0, p := 0, items := [], overridden := 0, ct := 0 };
      let s := atNs 10000000000 (base.modTsk fun k => { k with writes := [w] }); s.tsk.writes = [w] ∧
      max w.p (s.tsk.floor.get w.ring) + 10000000000 ≤ s.clk.ct)) ∧
    ((let t := { task1 with kind := .event, eventSrc := 5 };
      let s := inRun .running ((loaded base).modTsk fun k => { k with sched := k.sched.map fun y => { y with tasks := [t] } });
      taskEntry s 1 = some t ∧ t.kind = .event ∧ t.eventSrc = 5 ∧ runsProgram s = true ∧ mirrors s = false)) :=
  by and_intros <;> decide

/-- Clause by clause, the hypotheses of `Obligations.Forces`. -/
theorem test_witness_Forces :
    (Served 0x34 0 [1, 0, 0, 0, 1] base ∧ 1 ≤ (theDesc 0x34 0 [1, 0, 0, 0, 1]).desc.par 28 2 ∧
      (theDesc 0x34 0 [1, 0, 0, 0, 1]).desc.par 28 2 ≤ 4096 ∧ (forceCheck base 1 [1]).isSome = true ∧ forceCheck (loaded base) 1 [1] = none) ∧
    (Served 0x35 0 [] base ∧ (base.tsk.planned.any fun f => f.sym == 1) = false) ∧
    (((base.modTsk fun k => { k with planned := [{ sym := 1, value := [1], at_ := 0, place := 0 }] }).tsk.planned.any fun f => f.sym == 1) = true) ∧
    (Served 0x37 0 [] base) ∧
    (Served 0x36 0 [] base ∧ base.tsk.forces = []) :=
  by and_intros <;> decide

/-- Clause by clause, the hypotheses of `Obligations.Tables`. -/
theorem test_witness_Tables :
    (Served 0x2C 0 [15, 10] base ∧ mirrors base = false ∧
      (planLoad (theDesc 0x2C 0 [15, 10]).desc [] 0 ({ base with part := { base.part with tables := 1 } } : State) matches .ok _) = true) ∧
    ((planLoad (theDesc 0x2C 0 [15, 9]).desc [] 0 base matches .error _) = true) ∧
    (Served 0x2D 0 [15] base ∧ (planUpdate (theDesc 0x2D 0 [15]).desc [] 0 base matches .error _) = true) ∧
    ((planUpdate (theDesc 0x2D 0 [15]).desc [] 0 (loadTable 15 10 0 0 0 [] base) matches .ok _) = true) ∧
    (Served 0x2E 0 [15] base ∧ (base.tbl.get 15).loaded = false ∧ ((loadTable 15 10 0 0 0 [] base).tbl.get 15).loaded = true) ∧
    (mirrors (paired .activeSynced (loadTable 15 10 0 0 0 [] base)) = true) ∧
    (Served 0x2F 0 [16] base) ∧
    (Served 0x2F 0 [15] base ∧ (theDesc 0x2F 0 [15]).desc.par 24 1 = 15) :=
  by and_intros <;> decide

/-- Clause by clause, the hypotheses of `Obligations.AluOperations`. -/
theorem test_witness_AluOperations :
    (running base 0 0 = none) ∧
    ((let s :=  (atWork release1 base); AtBundle s)) ∧
    (((0 : W64) - 1).toInt < 0 ∧ (0 : W64).toNat < ((0 : W64) - 1).toNat) :=
  by and_intros <;> decide

/-- Clause by clause, the hypotheses of `Obligations.BitOperations`. -/
theorem test_witness_BitOperations :
    (1 ≤ (1#64).toNat ∧ (5#64).toNat ≤ 5 ∧ (0#64).toNat < 1 ∧ 5 < (6#64).toNat) ∧
    ((let s := withCtx (fun c => { c with stack := List.replicate 16 (true, 1) }) (atWork release1 base); AtBundle s ∧
      16 ≤ (engineCtx s 0 release1).stack.length)) ∧
    ((let s := withCtx (fun c => { c with stack := List.replicate 15 (true, 1) }) (atWork release1 base); AtBundle s ∧
      (engineCtx s 0 release1).stack.length < 16)) ∧
    ((let s :=  (atWork release1 base); AtBundle s ∧ (engineCtx s 0 release1).stack = [])) :=
  by and_intros <;> decide

/-- Clause by clause, the hypotheses of `Obligations.TimersAndEdges`. -/
theorem test_witness_TimersAndEdges :
    ((let s := withCtx (fun c => { c with tmrInst := 0x3FFFF0, tmrPreset := 5 }) (atWork release1 base); AtBundle s ∧
      (engineCtx s 0 release1).tmrInst.toNat % 0x400000 % 16 = 0 ∧
      (timerCall 0x190 0 5 true (timerAt (s.lanes.get 0).mem 0x3FFFF0) matches .ok _) = true)) :=
  by decide

/-- Clause by clause, the hypotheses of `Obligations.LoadsAndStores`. -/
theorem test_witness_LoadsAndStores :
    ((let s := withCtx (fun c => { c with lsBase := 0x3FFFF8 }) (atWork release1 base); AtBundle s ∧
      ((engineCtx s 0 release1).lsBase + 0).toNat + 8 ≤ dataSize ∧ ((engineCtx s 0 release1).lsBase + 0).toNat % 8 = 0 ∧
      dataSize < ((engineCtx s 0 release1).lsBase + 1).toNat + 8 ∧ ((engineCtx s 0 release1).lsBase + 1).toNat + 4 ≤ dataSize ∧
      ((engineCtx s 0 release1).lsBase + 1).toNat % 4 ≠ 0)) ∧
    ((let s :=  (atWork release1 base); AtBundle s ∧ (runningEntry s 0 release1).tbl = true ∧
      (((engineCtx s 0 release1).slots.get 3).readAt (engineCtx s 0 release1).cyc).1 ≠ 1 ∧
      (lookup s.tbl release1.tables (engineCtx s 0 release1).tblSel.toNat 0).2.2 = none)) ∧
    ((let s :=  (atWork release1 base); AtBundle s ∧ assoc? ((5#64).setWidth 32) (envOf s 0 release1).snap = some { value := 7, quality := 0 })) ∧
    ((let r := { release1 with outs := [{ point := 0, out := true, task := 1, substitute := false, width := 1, subst := 0, symbol := 0 }] };
      let s := atWork r base; running s 0 0 = some r ∧ (r.outs.any fun o => o.point == (engineCtx s 0 r).imgPt.setWidth 32) = true ∧
      (ctxOf s 0 r.task).effects < r.entry.maxEffects ∧ (engineCtx s 0 r).lastWr = none)) :=
  by and_intros <;> decide

/-- Clause by clause, the hypotheses of `Obligations.BlocksAndBranches`. -/
theorem test_witness_BlocksAndBranches :
    ((let s :=  (atWork release1 base); AtBundle s ∧ (engineCtx s 0 release1).delay = none)) ∧
    ((let s := withCtx (fun c => { c with delay := some 3 }) (atWork release1 base); AtBundle s ∧ (engineCtx s 0 release1).delay.isSome = true)) ∧
    (running base 2 3 = none) ∧
    ((let s := withCtx (fun c => { c with blkSize := 8 }) (atWork release1 base); AtBundle s ∧ (engineCtx s 0 release1).blkSize = 8 ∧
      (engineCtx s 0 release1).blkSrc.toNat % (engineCtx s 0 release1).blkSize.toNat = 0 ∧
      (engineCtx s 0 release1).blkDst.toNat % (engineCtx s 0 release1).blkSize.toNat = 0 ∧ (engineCtx s 0 release1).blkCnt = 0)) :=
  by and_intros <;> decide

/-- A next state that `Obligations.EveryCommandCompletesAndKeepsTheIdentity` speaks of. -/
theorem test_witness_EveryCommandCompletesAndKeepsTheIdentity : (∃ t, exec .fenceClear base = .next t) ∧ ∃ t, step base = .next t :=
  ⟨⟨_, rfl⟩, ⟨_, rfl⟩⟩

end Sys2Proof.Tests
end

/-! # The function units of an engine: the ALU, the bit unit, loads and stores, the image and the tables

Every unit row is a bundle of one move (`unit_ok`). A unit that is no timer, block or branch unit ends within its cycle, and what it
leaves in the context is an accumulator or a result: `unit_results` says this once, and a row's proof names its unit's trigger alone. -/

namespace Sys2Proof.Machine

/-! ## Results and the working copy -/

/-- The context `c` with the accumulator, the bracket stack and the results of `d`. -/
def Ctx.withResults (c d : Ctx) : Ctx :=
  { c with
    aluRes := d.aluRes, acc := d.acc, stack := d.stack, bitAcc := d.bitAcc, bitDepth := d.bitDepth, lsRes := d.lsRes,
    imgVal := d.imgVal, imgQual := d.imgQual, slots := d.slots }

/-- The working copy `g` with the results of `d`, the scratchpad `m` and the written lines `w`. -/
def Eng.withResults (g : Eng) (d : Ctx) (m : Memory) (w : List Nat) : Eng :=
  { g with ctx := g.ctx.withResults d, mem := m, wrote := w }

/-- A result is readable when its latency has passed (R93). -/
theorem ResultPort.readAt_push (p : ResultPort) (t n : Nat) (v : W64) : (p.push t n v).readAt (t + n) = v := by
  simp [ResultPort.readAt, ResultPort.push, List.filter_append]

/-- Before the next cycle a port shows what it showed when the result was pushed (R93). -/
theorem ResultPort.readAt_push_now (p : ResultPort) (t : Nat) {n : Nat} (hn : 0 < n) (v : W64) :
    (p.push t n v).readAt t = p.readAt t := by
  have hpend : (p.push t n v).pend.filter (fun x => x.1 ≤ t) = [] := by
    simp [ResultPort.push, List.filter_append, hn]
  rw [ResultPort.readAt, hpend]
  rfl

/-- A trigger port whose unit is no timer (2), block (4) or branch unit (8): its operation ends within its cycle (R107, R127). -/
abbrev endsAtOnce (p : Nat) : Prop := isTrigger p = true ∧ unitOf p ≠ 2 ∧ unitOf p ≠ 4 ∧ unitOf p ≠ 8

/-- Only a timer and a block unit reserve data ports past the cycle of their trigger (R127). -/
theorem dataPorts_now (t : Nat) {p : Nat} (hp : endsAtOnce p) :
    dataPorts t p = [] ∨ dataPorts t p = [(t, 1, 0)] ∨ dataPorts t p = [(t, 1, 1)] ∨ dataPorts t p = [(t, 0, 1)] := by
  obtain ⟨-, h2, h4, -⟩ := hp
  have timer : ¬ (0x190 ≤ p ∧ p ≤ 0x194) := fun h => h2 (by rw [unitOf, if_neg (by omega), if_neg (by omega), if_pos (by omega)])
  have block : p ≠ 0x210 ∧ p ≠ 0x211 ∧ p ≠ 0x212 ∧ p ≠ 0x213 := by
    refine ⟨?_, ?_, ?_, ?_⟩ <;> rintro rfl <;> exact h4 rfl
  unfold dataPorts
  simp only [timer, block, if_false]
  split_ifs <;> simp

/-- One read and one write in a cycle are within the data ports (R127). -/
theorem dataPorts_fit (t k : Nat) {p : Nat} (hp : endsAtOnce p) : portsExceeded (dataPorts t p) k = false := by
  rcases dataPorts_now t hp with h | h | h | h <;> rw [h]
  · rfl
  all_goals by_cases hk : t = k <;> simp [portsExceeded, hk]

/-- No reservation of such a unit outlives the cycle. -/
theorem dataPorts_over (t : Nat) {p : Nat} (hp : endsAtOnce p) : (dataPorts t p).filter (fun x => t < x.1) = [] := by
  rcases dataPorts_now t hp with h | h | h | h <;> simp [h]

/-- A cycle without a timer's write-back moves the context on and touches nothing else of the working copy. -/
theorem endCycle_of_noTimer {g : Eng} (h : g.ctx.timerWb = []) :
    endCycle g = { g with ctx := { g.ctx with
      cyc := g.ctx.cyc + 1, started := [], resv := g.ctx.resv.filter fun x => g.ctx.cyc < x.1, pc := g.ctx.delay.getD (g.ctx.pc + 1),
      delay := g.ctx.branch, branch := none, timerWb := [] } } := by
  simp [endCycle, Eng.flush, h]

/-- At a bundle boundary the cycle of a trigger that gives results ends with the context one bundle on, with these results. -/
theorem endCycle_withResults {p l en s r} (d : Ctx) (m : Memory) (w : List Nat) (h : atBoundary s l en r)
    (hp : endsAtOnce p) :
    endCycle (((engOf s l r).begun p).withResults d m w) =
      { engOf s l r with ctx := (engineCtx s l r).nextBundle.withResults d, mem := m, wrote := w } := by
  obtain ⟨-, -, -, -, -, hstarted, hresv, -, hwb, hbranch, -⟩ := h
  have hctx : (engOf s l r).ctx = engineCtx s l r := rfl
  rw [endCycle_of_noTimer hwb]
  simp [Eng.withResults, Eng.begun, Ctx.withResults, Ctx.nextBundle, hctx, dataPorts_over _ hp, hstarted, hresv, hwb, hbranch]

/-! ## What a unit row does (R104, R170) -/

/-- A unit row whose trigger gives results: the context goes one bundle on with them, the scratchpad and the marks are those of the trigger,
and nothing else changes. -/
theorem unit_results {p b l en s r} (d : Ctx) (m : Memory) (w : List Nat) (h : atBoundary s l en r) (hp : endsAtOnce p)
    (ht : trigger (envOf s l r) p b ((engOf s l r).begun p) = .ok (((engOf s l r).begun p).withResults d m w)) :
    moved s (issueUnit p l en b none s) l r ((engineCtx s l r).nextBundle.withResults d) m w := by
  have ⟨_, _, _, _, hblk, _, _, hending, hwb, _, _⟩ := h
  have hend := endCycle_withResults d m w h hp
  obtain ⟨t, ht, hm⟩ := unit_moved h hp.1 (.inl hp.2.2.2) ⟨dataPorts_fit _ _ hp, dataPorts_fit _ _ hp⟩ ht (by rw [hend]; exact hblk)
    (by rw [hend]; exact hending) (by rw [hend]; exact ⟨rfl, rfl, rfl, rfl, rfl, rfl, rfl, rfl, rfl⟩)
  obtain rfl := Host.Outcome.next.inj ht
  have hwb' : ((engineCtx s l r).nextBundle.withResults d).timerWb = [] := hwb
  have hsame : { (engineCtx s l r).nextBundle.withResults d with timerWb := [] } = (engineCtx s l r).nextBundle.withResults d := by rw [← hwb']
  rw [hend] at hm
  simpa [hwb', hsame] using hm

/-- A unit row whose trigger fails is a fault of the code at its bundle, and the bundle has no effect (R170). -/
theorem unit_faults {p b l en s r f} (h : atBoundary s l en r) (hp : endsAtOnce p)
    (ht : trigger (envOf s l r) p b ((engOf s l r).begun p) = .error f) :
    issueUnit p l en b none s = codeFault l r f (engineCtx s l r).stopIndex (commitEng l r (engOf s l r) s) := by
  rw [unit_ok h hp.1 (.inl hp.2.2.2) ⟨dataPorts_fit _ _ hp, dataPorts_fit _ _ hp⟩, ht]
  rfl

/-- A unit row of an engine that no release holds changes nothing. -/
theorem issueUnit_of_idle {l en s} (h : running s l en = none) (p : Nat) (b : W64) (n : Option Nat) : issueUnit p l en b n s = s := by
  simp [issueUnit, atEngine, h]

section
variable {env : EngEnv} {p : Nat} {b : W64} {g : Eng}

theorem trigger_alu (hu : unitOf p = 0) : trigger env p b g = aluTrig p b g := by simp only [trigger, hu]
theorem trigger_bit (hu : unitOf p = 1) : trigger env p b g = bitTrig env p b g := by simp only [trigger, hu]
theorem trigger_tbl (hu : unitOf p = 5) : trigger env p b g = tblTrig env p b g := by simp only [trigger, hu]
theorem trigger_img (hu : unitOf p = 6) : trigger env p b g = imgTrig env p b g := by simp only [trigger, hu]
theorem trigger_ls (hu : unitOf p = 7) : trigger env p b g = lsTrig env p b g := by simp only [trigger, hu]

end

/-! ## ALU (R129) -/

theorem flag64_decide (P : Prop) [Decidable P] : flag64 (decide P) = if P then 1 else 0 := by
  simp [flag64]

/-- The row of an ALU port writes its operation on A and B, readable in the next context cycle. -/
theorem aluRow {p b l en s r} (h : atBoundary s l en r) (hp : isTrigger p = true) (hu : unitOf p = 0) {v : W64}
    (hv : aluOp p (engineCtx s l r).aluA b = v) :
    moved s (issueUnit p l en b none s) l r { (engineCtx s l r).nextBundle with aluRes := (engineCtx s l r).aluRes.push (engineCtx s l r).cyc 1 v }
        (s.lanes.get l).mem [] := by
  subst hv
  refine unit_results { engineCtx s l r with aluRes := (engineCtx s l r).aluRes.push (engineCtx s l r).cyc 1 (aluOp p (engineCtx s l r).aluA b) }
    _ _ h ⟨hp, by omega⟩ ?_
  rw [trigger_alu hu]
  rfl

/-- Settles O55: each ALU row is `aluRow` of its port, and its value is the operation of that port on A and B. -/
theorem aluOperations : Obligations.AluOperations := by
  intro l en b s r c a gives
  refine ⟨fun h => ?_, fun v => ⟨c.aluRes.readAt_push c.cyc 1 v, c.aluRes.readAt_push_now c.cyc one_pos v⟩,
    fun h p n => issueUnit_of_idle h p b n⟩
  have row {i : Instr} {v : W64} (p : Nat) (hi : exec i s = .next (issueUnit p l en b none s)) (hp : isTrigger p = true) (hu : unitOf p = 0)
      (hv : aluOp p a b = v) : gives i v := ⟨_, hi, aluRow h hp hu hv⟩
  refine ⟨row 0x110 rfl rfl rfl rfl, row 0x111 rfl rfl rfl rfl, row 0x118 rfl rfl rfl rfl, row 0x121 rfl rfl rfl rfl, row 0x112 rfl rfl rfl rfl,
    row 0x113 rfl rfl rfl rfl, row 0x114 rfl rfl rfl rfl, row 0x115 rfl rfl rfl rfl, row 0x116 rfl rfl rfl rfl, row 0x117 rfl rfl rfl rfl,
    row 0x119 rfl rfl rfl ?_, row 0x11A rfl rfl rfl ?_, row 0x11B rfl rfl rfl (flag64_decide _), row 0x11D rfl rfl rfl (flag64_decide _),
    row 0x11C rfl rfl rfl (flag64_decide _), row 0x11E rfl rfl rfl (flag64_decide _), row 0x11F rfl rfl rfl ?_, row 0x120 rfl rfl rfl ?_⟩
  · simp [aluOp, flag64]
  · simp [aluOp, flag64]
  · simp [aluOp, BitVec.sle]
  · simp [aluOp, BitVec.sle]

/-! ## Bit unit (R130 to R134) -/

/-- The row of a bit port whose trigger enters an accumulator and a stack, readable in the next context cycle (R131). -/
theorem bitRow {p b l en s r} (h : atBoundary s l en r) (hp : isTrigger p = true) (hu : unitOf p = 1) {acc : Bool} {st : List (Bool × Nat)}
    {m : Memory} {w : List Nat}
    (ht : bitTrig (envOf s l r) p b ((engOf s l r).begun p) = .ok (((engOf s l r).begun p).withResults (setAcc acc st (engineCtx s l r)) m w)) :
    moved s (issueUnit p l en b none s) l r { (engineCtx s l r).nextBundle with
        acc := acc, stack := st, bitAcc := (engineCtx s l r).bitAcc.push (engineCtx s l r).cyc 1 (flag64 acc),
        bitDepth := (engineCtx s l r).bitDepth.push (engineCtx s l r).cyc 1 (BitVec.ofNat 64 st.length) } m w :=
  unit_results (setAcc acc st (engineCtx s l r)) m w h ⟨hp, by omega⟩ ((trigger_bit hu).trans ht)

/-- A bracket opened with a good operand keeps the accumulator with its operation and sets it to 1 (R132). -/
theorem bitTrig_open {env : EngEnv} {b : W64} {g : Eng} (h1 : 1 ≤ b.toNat) (h5 : b.toNat ≤ 5) (hs : g.ctx.stack.length < 16) :
    bitTrig env 0x156 b g = .ok { g with ctx := setAcc true ((g.ctx.acc, b.toNat) :: g.ctx.stack) g.ctx } := by
  simp [bitTrig, show ¬ (b.toNat = 0 ∨ 5 < b.toNat) by omega, hs]

/-- A bracket operand that selects no operation is fault 0x13 (R132). -/
theorem bitTrig_open_operand {env : EngEnv} {b : W64} {g : Eng} (hb : b.toNat < 1 ∨ 5 < b.toNat) : bitTrig env 0x156 b g = .error 0x13 := by
  simp only [bitTrig, if_pos hb]
  rfl

/-- A seventeenth bracket is fault 0x11 (R132). -/
theorem bitTrig_open_full {env : EngEnv} {b : W64} {g : Eng} (h1 : 1 ≤ b.toNat) (h5 : b.toNat ≤ 5) (hs : 16 ≤ g.ctx.stack.length) :
    bitTrig env 0x156 b g = .error 0x11 := by
  simp [bitTrig, show ¬ (b.toNat = 0 ∨ 5 < b.toNat) by omega, hs]

/-- A bracket closed combines the kept accumulator with the present one (R132). -/
theorem bitTrig_close {env : EngEnv} {b : W64} {g : Eng} {y : Bool} {op : Nat} {st : List (Bool × Nat)} (hs : g.ctx.stack = (y, op) :: st) :
    bitTrig env 0x157 b g = .ok { g with ctx := setAcc (bracketOp op y g.ctx.acc) st g.ctx } := by
  simp [bitTrig, hs]

/-- A close without an open is fault 0x12 (R132). -/
theorem bitTrig_close_empty {env : EngEnv} {b : W64} {g : Eng} (hs : g.ctx.stack = []) : bitTrig env 0x157 b g = .error 0x12 := by
  simp [bitTrig, hs]

/-- Settles O56: each row is `bitRow` or `unit_faults` of its port; the brackets' cases are the `bitTrig_open` and `bitTrig_close` lemmas. -/
theorem bitOperations : Obligations.BitOperations := by
  intro l en b s r h c m x gives reads writes faults
  have row {i : Instr} {acc : Bool} {st : List (Bool × Nat)} {k : Memory} {w : List Nat} (p : Nat)
      (hi : exec i s = .next (issueUnit p l en b none s)) (hp : isTrigger p = true) (hu : unitOf p = 1)
      (ht : bitTrig (envOf s l r) p b ((engOf s l r).begun p) = .ok (((engOf s l r).begun p).withResults (setAcc acc st c) k w)) :
      gives i acc st k w := ⟨_, hi, bitRow h hp hu ht⟩
  have fault {i : Instr} {f : Nat} (p : Nat) (hi : exec i s = .next (issueUnit p l en b none s)) (hp : isTrigger p = true) (hu : unitOf p = 1)
      (ht : bitTrig (envOf s l r) p b ((engOf s l r).begun p) = .error f) : faults i f :=
    hi.trans (congrArg _ (unit_faults h ⟨hp, by omega⟩ ((trigger_bit hu).trans ht)))
  refine ⟨row 0x150 rfl rfl rfl rfl, row 0x151 rfl rfl rfl rfl, row 0x152 rfl rfl rfl rfl, row 0x153 rfl rfl rfl rfl, row 0x154 rfl rfl rfl rfl,
    row 0x155 rfl rfl rfl rfl, row 0x15B rfl rfl rfl rfl, row 0x15C rfl rfl rfl ?_, row 0x158 rfl rfl rfl rfl, row 0x159 rfl rfl rfl rfl,
    row 0x15A rfl rfl rfl rfl, fun h1 h5 hs => row 0x156 rfl rfl rfl (bitTrig_open h1 h5 hs),
    fun y op st hs => row 0x157 rfl rfl rfl (bitTrig_close hs), fun hb => fault 0x156 rfl rfl rfl (bitTrig_open_operand hb),
    fun h1 h5 hs => fault 0x156 rfl rfl rfl (bitTrig_open_full h1 h5 hs), fun hs => fault 0x157 rfl rfl rfl (bitTrig_close_empty hs)⟩
  have hne : decide (b ≠ 0) = (b != 0) := by simp [bne, beq_eq_decide]
  rw [hne]
  rfl

/-! ## Loads and stores (R168, R169) -/

@[simp] theorem leBytes_length (n v : Nat) : (leBytes n v).length = n := by
  induction n generalizing v with
  | zero => rfl
  | succ n ih => simp [leBytes, ih]

/-- The force filter lets every byte through, changed or not. -/
@[simp] theorem filterBytes_length (fs : List Forced) (off : Nat) (bs : List Byte) : (filterBytes fs off bs).length = bs.length := by
  induction bs generalizing off with
  | nil => rfl
  | cons b bs ih => simp [filterBytes, ih]

/-- A write through the force filter marks the lines of its bytes (R128, R283). -/
theorem Eng.putF_eq (fs : List Forced) (off : Nat) (bs : List Byte) (g : Eng) :
    g.putF fs off bs = { g with mem := dataWriteF fs g.mem off bs, wrote := g.wrote ++ linesOf off bs.length } := by
  rw [Eng.putF, Eng.put, filterBytes_length]
  rfl

theorem loadPort (z : Fin 4) : endsAtOnce (0x2D0 + z.val) ∧ unitOf (0x2D0 + z.val) = 7 ∧ lsSize (0x2D0 + z.val) = 2 ^ z.val ∧
    0x2D0 + z.val < 0x2D4 := by
  decide +revert

theorem storePort (z : Fin 4) : endsAtOnce (0x2D4 + z.val) ∧ unitOf (0x2D4 + z.val) = 7 ∧ lsSize (0x2D4 + z.val) = 2 ^ z.val ∧
    ¬ 0x2D4 + z.val < 0x2D4 := by
  decide +revert

/-- An access past the end of the data partition is fault 0x1C, another one off its alignment fault 0x1D (R169). -/
theorem lsTrig_fault {env : EngEnv} {p f : Nat} {b : W64} {g : Eng}
    (hf : (dataSize < (g.ctx.lsBase + b).toNat + lsSize p ∧ f = 0x1C) ∨
      ((g.ctx.lsBase + b).toNat + lsSize p ≤ dataSize ∧ (g.ctx.lsBase + b).toNat % lsSize p ≠ 0 ∧ f = 0x1D)) :
    lsTrig env p b g = .error f := by
  rcases hf with ⟨hpast, rfl⟩ | ⟨hin, hoff, rfl⟩
  · simp only [lsTrig, if_pos hpast]
  · simp only [lsTrig, if_neg (Nat.not_lt.mpr hin), if_pos hoff]

/-- An aligned access within the data partition is a load below port 0x2D4 and a store from there up (R168). -/
theorem lsTrig_ok {env : EngEnv} {p : Nat} {b : W64} {g : Eng} (hin : (g.ctx.lsBase + b).toNat + lsSize p ≤ dataSize)
    (hal : (g.ctx.lsBase + b).toNat % lsSize p = 0) :
    lsTrig env p b g = .ok (if p < 0x2D4 then
        { g with ctx := { g.ctx with
            lsRes := g.ctx.lsRes.push g.ctx.cyc 2 (BitVec.ofNat 64 (dataNat g.start (g.ctx.lsBase + b).toNat (lsSize p))) } }
      else g.putF env.forced (g.ctx.lsBase + b).toNat (leBytes (lsSize p) g.ctx.lsData.toNat)) := by
  simp only [lsTrig, if_neg (Nat.not_lt.mpr hin), hal, ne_eq, not_true, if_false]
  split <;> rfl

/-- A load shows its bytes, zero-extended, two context cycles on (R168). -/
theorem loadRow {l en s r} (z : Fin 4) (b : W64) (h : atBoundary s l en r) :
    let c := engineCtx s l r
    (c.lsBase + b).toNat + 2 ^ z.val ≤ dataSize → (c.lsBase + b).toNat % 2 ^ z.val = 0 →
      moved s (issueUnit (0x2D0 + z.val) l en b none s) l r
        { c.nextBundle with lsRes := c.lsRes.push c.cyc 2 (BitVec.ofNat 64 (dataNat (s.lanes.get l).mem (c.lsBase + b).toNat (2 ^ z.val))) }
        (s.lanes.get l).mem [] := by
  intro c hin hal
  obtain ⟨hp, hu, hsize, hload⟩ := loadPort z
  refine unit_results { c with lsRes := c.lsRes.push c.cyc 2 (BitVec.ofNat 64 (dataNat (s.lanes.get l).mem (c.lsBase + b).toNat (2 ^ z.val))) }
    _ _ h hp ?_
  rw [← hsize] at hin hal ⊢
  rw [trigger_ls hu, lsTrig_ok (g := (engOf s l r).begun _) hin hal, if_pos hload]
  rfl

/-- A store writes the low bytes of LS_DATA past the force filter, in its own cycle (R168, R128). -/
theorem storeRow {l en s r} (z : Fin 4) (b : W64) (h : atBoundary s l en r) :
    let c := engineCtx s l r
    (c.lsBase + b).toNat + 2 ^ z.val ≤ dataSize → (c.lsBase + b).toNat % 2 ^ z.val = 0 →
      moved s (issueUnit (0x2D4 + z.val) l en b none s) l r c.nextBundle
        (dataWriteF (forcedOf s (fetchImage s) r.forces) (s.lanes.get l).mem (c.lsBase + b).toNat (leBytes (2 ^ z.val) c.lsData.toNat))
        (linesOf (c.lsBase + b).toNat (2 ^ z.val)) := by
  intro c hin hal
  obtain ⟨hp, hu, hsize, hstore⟩ := storePort z
  refine unit_results c _ _ h hp ?_
  have hclean : ((engOf s l r).begun (0x2D4 + z.val)).wrote = [] := rfl
  rw [← hsize] at hin hal ⊢
  rw [trigger_ls hu, lsTrig_ok (g := (engOf s l r).begun _) hin hal, if_neg hstore, Eng.putF_eq, leBytes_length, hclean, List.nil_append]
  rfl

/-! ## Image reads and lookups (R151 to R156, R165) -/

/-- A point of the snapshot is readable with its quality two context cycles on (R165). -/
theorem imgRdRow {b l en s r v} (h : atBoundary s l en r) (hv : assoc? (b.setWidth 32) (envOf s l r).snap = some v) :
    let c := engineCtx s l r
    moved s (issueUnit 0x290 l en b none s) l r
      { c.nextBundle with imgVal := c.imgVal.push c.cyc 2 v.value, imgQual := c.imgQual.push c.cyc 2 (BitVec.ofNat 64 v.quality) }
      (s.lanes.get l).mem [] := by
  intro c
  refine unit_results { c with imgVal := c.imgVal.push c.cyc 2 v.value, imgQual := c.imgQual.push c.cyc 2 (BitVec.ofNat 64 v.quality) }
    _ _ h (by decide) ?_
  simp only [trigger_img (p := 0x290) rfl, imgTrig, if_true, hv]
  rfl

theorem lookupPort (z : Fin 4) : endsAtOnce (0x250 + z.val) ∧ unitOf (0x250 + z.val) = 5 ∧ (finOr (0x250 + z.val - 0x250) : Fin 4) = z := by
  decide +revert

/-- A lookup in a slot that is not pending is in flight for 1200 context cycles (R153, R154). -/
theorem tblTrig_free {env : EngEnv} {p : Nat} {b : W64} {g : Eng} {z : Fin 4} (hz : (finOr (p - 0x250) : Fin 4) = z) (ht : env.entry.tbl = true)
    (hfree : ((g.ctx.slots.get z).readAt g.ctx.cyc).1 ≠ 1) {k : Nat × W64 × Option (Nat × Nat × Nat)}
    (hk : k = lookup env.tables env.rel.tables g.ctx.tblSel.toNat b) :
    tblTrig env p b g = .ok { g with
      ctx := { g.ctx with slots := vmod g.ctx.slots z fun _ => { status := 1, value := 0, flight := some (g.ctx.cyc + 1200, k.1, k.2.1) } },
      dmg := g.dmg ++ k.2.2.toList } := by
  simp only [tblTrig, ht, hz, if_neg hfree, ← hk]
  rfl

/-- A lookup that meets no damaged bucket changes its slot alone (R153). -/
theorem lookupRow {l en s r} (z : Fin 4) (b : W64) (h : atBoundary s l en r) {k : Nat × W64 × Option (Nat × Nat × Nat)} :
    let c := engineCtx s l r
    (runningEntry s l r).tbl = true → ((c.slots.get z).readAt c.cyc).1 ≠ 1 → k = lookup s.tbl r.tables c.tblSel.toNat b → k.2.2 = none →
      moved s (issueUnit (0x250 + z.val) l en b none s) l r
        { c.nextBundle with slots := vmod c.slots z fun _ => { status := 1, value := 0, flight := some (c.cyc + 1200, k.1, k.2.1) } }
        (s.lanes.get l).mem [] := by
  intro c ht hfree hk hd
  obtain ⟨hp, hu, hslot⟩ := lookupPort z
  refine unit_results { c with slots := vmod c.slots z fun _ => { status := 1, value := 0, flight := some (c.cyc + 1200, k.1, k.2.1) } }
    _ _ h hp ?_
  rw [trigger_tbl hu, tblTrig_free (g := (engOf s l r).begun _) hslot ht hfree hk, hd]
  rfl

/-! ## IMG_WR: a record of the release (R166, R266) -/

/-- What an update keeps of its own context, it keeps of every context of the lane. -/
theorem ctx_modCtx_keeps {α : Type} (π : Ctx → α) {l : LaneId} {k : Nat} {f : Ctx → Ctx} {s : State}
    (hf : π (f (ctxOf s l k)) = π (ctxOf s l k)) (n : Nat) : π (ctxOf (modCtx l k f s) l n) = π (ctxOf s l n) := by
  by_cases hk : k < 256
  · have hfin : fin? 256 k = some (finOr k : Fin 256) := by simp [fin?, finOr, hk]
    simp only [ctxOf, modCtx, lane_modLane, hfin]
    by_cases hn : (finOr k : Fin 256) = finOr n
    · rw [← hn, vmod_get_same]
      exact hf
    · rw [vmod_get_other _ _ hn]
  · have hfin : fin? 256 k = none := by simp [fin?, hk]
    simp only [ctxOf, modCtx, lane_modLane, hfin]

theorem onlyLane_refl (l : LaneId) (s : State) : onlyLane l s s := ⟨rfl, fun _ _ => rfl⟩

/-- A write into the data partition leaves the contexts. -/
theorem ctxOf_laneWrite (l : LaneId) (off : Nat) (bs : List Byte) (s : State) (n : Nat) : ctxOf (laneWrite l off bs s) l n = ctxOf s l n := by
  rw [laneWrite, ctxOf_markLines]
  simp only [ctxOf, lane_modLane]

/-- Write-backs of timers emit no effect (R136). -/
theorem timersDone_effects (l : LaneId) (k : Nat) (s : State) (n : Nat) : (ctxOf (timersDone l k s) l n).effects = (ctxOf s l n).effects := by
  have writes : ∀ (ws : List (Nat × Nat × List Byte)) (t : State),
      ctxOf (ws.foldl (fun s x => laneWrite l x.2.1 x.2.2 s) t) l n = ctxOf t l n := by
    intro ws
    induction ws with
    | nil => exact fun _ => rfl
    | cons x ws ih => exact fun t => (ih _).trans (ctxOf_laneWrite ..)
  rw [timersDone, writes]
  exact ctx_modCtx_keeps Ctx.effects rfl n

/-- The choice of an engine emits no effect. -/
theorem schedule_effects (l : LaneId) (e : Fin 4) (s : State) (n : Nat) : (ctxOf (schedule l e s) l n).effects = (ctxOf s l n).effects := by
  rcases schedule_cases l e s with ⟨v, hv⟩ | ⟨v, r, -, hv⟩
  · simp only [hv, ctxOf, lane_modLane]
  · rw [hv, ← timersDone_effects l (runningEntry s l r).task s n]
    simp only [ctxOf, lane_modLane]

/-- The owner's context with the record counters of a working copy (R266, R268). -/
def Eng.counted (g : Eng) (c : Ctx) : Ctx := { c with index := g.index, effects := g.effects, digest := g.digest }

/-- Putting back a working copy that wrote no byte and met no damage: its records go to the effect buffer of the lane, its count of effects
to the owner, and its context to the task that runs. -/
theorem commit_records {l : LaneId} {r : Release} {s : State} {g : Eng} (h1 : (runningEntry s l r).task < 256) (h2 : r.task < 256)
    (hw : g.wrote = []) (hd : g.dmg = []) (he : g.ctx.inErr = (engineCtx s l r).inErr) :
    let t := commitEng l r g s
    (t.lanes.get l).buffer = (s.lanes.get l).buffer ++ g.recs ∧ (t.lanes.get l).mem = g.mem ∧ onlyLane l s t ∧
      (ctxOf t l r.task).effects = g.effects ∧ (ctxOf t l (runningEntry s l r).task).timerWb = g.ctx.timerWb ∧
      (∀ e, running t l e = running s l e) ∧ runningEntry t l r = runningEntry s l r := by
  intro t
  have ht : t = modLane l (fun x => { x with mem := g.mem, buffer := x.buffer ++ g.recs })
      (modCtx l r.task g.counted (modCtx l (runningEntry s l r).task (fun _ => g.ctx) s)) := by
    simp only [t, commitEng, hw, hd, List.foldl_nil, markLines_nil]
    rfl
  have hctx (n : Nat) : ctxOf t l n = ctxOf (modCtx l r.task g.counted (modCtx l (runningEntry s l r).task (fun _ => g.ctx) s)) l n := by
    simp only [ht, ctxOf, lane_modLane]
  refine ⟨?_, ?_, ?_, ?_, ?_, fun e => running_congr ?_ ?_, runningEntry_congr ?_⟩
  · simp only [ht, lane_modLane, (lane_modCtx ..).2.1]
  · simp only [ht, lane_modLane]
  · rw [ht]
    exact onlyLane_trans (modLane_onlyLane ..) (onlyLane_trans (modLane_onlyLane ..) (modLane_onlyLane ..))
  · rw [hctx, ctx_modCtx h2]
    rfl
  · rw [hctx, ctx_modCtx_keeps Ctx.timerWb rfl, ctx_modCtx h1]
  · rw [ht]
    rfl
  · simp only [ht, lane_modLane, (lane_modCtx ..).2.2.1]
  · rw [hctx, ctx_modCtx_keeps Ctx.inErr rfl]
    exact ctx_modCtx_keeps Ctx.inErr he _

/-- The choice of an engine after a context without write-backs on their way leaves the scratchpad, the effect buffer and the rest of the
state. -/
theorem schedule_noTimer {l e s r} (hn : (runningEntry s l r).task < 256) (hr : running s l e = some r) (hwb : (engineCtx s l r).timerWb = []) :
    ((schedule l e s).lanes.get l).mem = (s.lanes.get l).mem ∧ ((schedule l e s).lanes.get l).buffer = (s.lanes.get l).buffer ∧
      onlyLane l s (schedule l e s) := by
  have stays : moved s s l r (engineCtx s l r) (s.lanes.get l).mem [] := ⟨rfl, rfl, rfl, rfl, by rw [markLines_nil]; exact onlyLane_refl l s⟩
  rcases moved_schedule hn stays hr rfl with ⟨-, hm, hbuf, -, ho⟩ | ⟨-, hm, hbuf, -, ho⟩
  · exact ⟨hm, hbuf, by rwa [markLines_nil] at ho⟩
  · simp only [hwb, List.foldl_nil, List.flatMap_nil, List.append_nil, markLines_nil] at hm ho
    exact ⟨hm, hbuf, ho⟩

/-- An effect on a point of the task, within its limit and not soon after another, emits a record (R166). -/
theorem imgTrig_write {env : EngEnv} {b : W64} {g : Eng} (hpt : (env.rel.outs.any fun o => o.point == g.ctx.imgPt.setWidth 32) = true)
    (hmax : g.effects < env.rel.entry.maxEffects) (hlast : g.ctx.lastWr = none) :
    imgTrig env 0x291 b g = .ok { emitRec env.rel 1 b (g.ctx.imgPt.setWidth 32) g with
      ctx := { g.ctx with lastWr := some g.ctx.cyc }, effects := g.effects + 1 } := by
  simp only [imgTrig, hpt, if_neg (Nat.not_le.mpr hmax), hlast]
  rfl

/-- A unit row whose trigger begins no block operation and does not end the task: its working copy is put back, and the engine makes its next
choice. -/
theorem unit_schedules {p b l en s r g} (h : atBoundary s l en r) (hp : endsAtOnce p)
    (ht : trigger (envOf s l r) p b ((engOf s l r).begun p) = .ok g) (hblk : (endCycle g).ctx.blk = none)
    (hending : (endCycle g).ctx.ending = false) : issueUnit p l en b none s = schedule l en (commitEng l r (endCycle g) s) := by
  have ⟨_, _, _, _, _, _, _, _, _, _, hengine⟩ := h
  rw [unit_ok h hp.1 (.inl hp.2.2.2) ⟨dataPorts_fit _ _ hp, dataPorts_fit _ _ hp⟩, ht]
  dsimp only
  split
  · rename_i hsome
    exact absurd (hblk.symm.trans hsome) (by simp)
  · simp only [afterIssue, hending, Bool.false_and, Bool.false_eq_true, if_false, hengine]

/-- A unit row whose trigger emits records and writes no byte: the records go to the effect buffer of the lane and the count of effects to the
owner; the scratchpad, the other lanes and the rest of the state stay. -/
theorem unit_records {p b l en s r g} (h : atBoundary s l en r) (hp : endsAtOnce p)
    (ht : trigger (envOf s l r) p b ((engOf s l r).begun p) = .ok g)
    (hkeep : g.ctx.timerWb = [] ∧ g.ctx.blk = none ∧ g.ctx.ending = false ∧ g.ctx.inErr = (engineCtx s l r).inErr)
    (hw : g.wrote = []) (hd : g.dmg = []) :
    let t := issueUnit p l en b none s
    (t.lanes.get l).buffer = (s.lanes.get l).buffer ++ g.recs ∧ (t.lanes.get l).mem = g.mem ∧
      (ctxOf t l r.task).effects = g.effects ∧ onlyLane l s t := by
  intro t
  have ⟨hrun, hcur, hown, _⟩ := h
  obtain ⟨hwb, hblk, hending, herr⟩ := hkeep
  have hend := endCycle_of_noTimer hwb
  have hsched : t = schedule l en (commitEng l r (endCycle g) s) :=
    unit_schedules h hp ht (by rw [hend]; exact hblk) (by rw [hend]; exact hending)
  obtain ⟨hbuf, hmem, honly, heff, htimer, hrun', hentry⟩ :=
    commit_records (g := endCycle g) hcur hown (by rw [hend]; exact hw) (by rw [hend]; exact hd) (by rw [hend]; exact herr)
  obtain ⟨hmem', hbuf', honly'⟩ := schedule_noTimer (hentry.symm ▸ hcur) ((hrun' en).trans hrun) (by rw [engineCtx, hentry, htimer, hend])
  rw [hsched]
  refine ⟨?_, ?_, ?_, onlyLane_trans honly honly'⟩
  · rw [hbuf', hbuf, hend]
  · rw [hmem', hmem, hend]
  · rw [schedule_effects, heff, hend]

/-- The record of an effect goes to the effect buffer, and the owner's count of effects rises by one (R166, R266). -/
theorem imgWrRow {l en s r} (b : W64) (h : atBoundary s l en r) :
    let c := engineCtx s l r
    let t := issueUnit 0x291 l en b none s
    (r.outs.any fun o => o.point == c.imgPt.setWidth 32) = true → (ctxOf s l r.task).effects < r.entry.maxEffects → c.lastWr = none →
      ∃ k : EffRec, (t.lanes.get l).buffer = (s.lanes.get l).buffer ++ [k] ∧ k.value = b ∧ k.target = c.imgPt.setWidth 32 ∧ k.kind = 1 ∧
        k.task = BitVec.ofNat 8 r.task ∧ (t.lanes.get l).mem = (s.lanes.get l).mem ∧
        (ctxOf t l r.task).effects = (ctxOf s l r.task).effects + 1 ∧ onlyLane l s t := by
  intro c t hpt hmax hlast
  have ⟨_, _, _, _, hblk, _, _, hending, hwb, _, _⟩ := h
  have ht := (trigger_img (p := 0x291) rfl).trans
    (imgTrig_write (env := envOf s l r) (b := b) (g := (engOf s l r).begun 0x291) hpt hmax hlast)
  obtain ⟨hbuf, hmem, heff, honly⟩ := unit_records h (by decide) ht ⟨hwb, hblk, hending, rfl⟩ rfl rfl
  exact ⟨_, hbuf, rfl, rfl, rfl, rfl, hmem, heff, honly⟩

/-- Settles O58: `loadRow`, `storeRow`, `imgRdRow`, `imgWrRow` and `lookupRow`, and the two faults of an access. -/
theorem loadsAndStores : Obligations.LoadsAndStores := by
  intro l en z b s r h c m fs off n goes
  refine ⟨fun hin hal => ⟨⟨_, rfl, loadRow z b h hin hal⟩, ⟨_, rfl, storeRow z b h hin hal⟩⟩, fun v hv => ⟨_, rfl, imgRdRow h hv⟩,
    fun hpt hmax hlast => ?_, fun k ht hfree hk hd => ⟨_, rfl, lookupRow z b h ht hfree hk hd⟩, ?_⟩
  · obtain ⟨k, hk⟩ := imgWrRow b h hpt hmax hlast
    exact ⟨_, k, rfl, hk⟩
  · rintro f i (rfl | rfl) hf
    · obtain ⟨hp, hu, hsize, -⟩ := loadPort z
      exact congrArg _ (unit_faults h hp ((trigger_ls hu).trans (lsTrig_fault (by rw [hsize]; exact hf))))
    · obtain ⟨hp, hu, hsize, -⟩ := storePort z
      exact congrArg _ (unit_faults h hp ((trigger_ls hu).trans (lsTrig_fault (by rw [hsize]; exact hf))))

end Sys2Proof.Machine

/-! # The reset of the host interface (R405)

The counts of class 0x0403 are those of the ring pairs before the reset: after it no ring pair has a descriptor left to count. -/

namespace Sys2Proof.Machine

/-- No descriptor of a ring pair is outstanding after a reset of the host interface. -/
@[simp] theorem ringPair_hifReset_outst (up : Bool) (s : State) (q : RingId) : (ringPair (s.modHif (Hif.reset up)) q).outst = [] := by
  simp [ringPair, Hif.reset, RingPair.hifReset, State.resetHif, Vector.get_ofFn]

/-- With the counts of the ring pairs after the reset, no discarded completion is recorded. -/
theorem noteDiscards_after_hifReset (up : Bool) (s t : State) :
    (allFin 32).foldl (fun u q => noteDiscard q (ringPair (s.modHif (Hif.reset up)) q).outst.length u) t = t := by
  simp only [ringPair_hifReset_outst, List.length_nil, noteDiscard, if_true, List.foldl_fixed]

/-- The state after reset, but with one NOP of ring pair 0 that has ended and whose completion is not posted yet. -/
def heldCompletion : State :=
  modRing 0 (fun r => { r with outst := [
    { num := 0, slot := 0,
      desc := { opcode := 0x01, flags := 0, tag := 0, len := 0, deadline := 0, buf := 0, param := List.replicate 40 0 },
      fetchCt := 0, bound := none, admitted := true, fenced := false, waiting := false, ended := some (doneOk []), doneCt := some 0 }] })
    State.reset

/-- The classes that wait in the recorder's queue after a command, oldest first. -/
def queuedClasses : Host.Outcome State Fault Refusal → List W16
  | .next t => t.evr.queue.map (·.cls)
  | _ => []

/-- A link-down discards the completion, with class 0x0403, before it records class 0x0404 (R405). -/
theorem queuedClasses_linkDown : queuedClasses (exec (.hifReset .linkDown) heldCompletion) = [0x0403, 0x0404] := by
  decide

/-- Refutes O6 by its clause for HIF_RESET: it takes the numbers of discarded completions from the ring pairs after the reset, where
they are 0, so a link-down with one completion held would record class 0x0404 alone. The model records class 0x0403 before it. -/
theorem not_endpointAndInterrupts : ¬ Obligations.EndpointAndInterrupts := by
  unfold Obligations.EndpointAndInterrupts
  rintro ⟨-, -, -, -, -, -, hreset, -⟩
  have hstated := congrArg queuedClasses (hreset .linkDown heldCompletion)
  rw [noteDiscards_after_hifReset, queuedClasses_linkDown] at hstated
  exact absurd hstated (by decide)

end Sys2Proof.Machine

/-! # The identity and the queue under every command (R5, R10)

Every shared operation keeps `State.fixed` (Laws/Fixed); here this is carried to the 315 commands, and from them to a step. -/

namespace Sys2Proof.Machine

/-- A command completes, and the identity and the queue's rest are those of `s`. -/
def keepsFixed (s : State) : Host.Outcome State Fault Refusal → Prop
  | .next t => t.fixed = s.fixed
  | .fault _ => False
  | .refused _ => False

@[simp] theorem keepsFixed_next (s t : State) : keepsFixed s (.next t) ↔ t.fixed = s.fixed := Iff.rfl

/-- What completes with the identity kept completes. -/
theorem keepsFixed_iff {s : State} {o : Host.Outcome State Fault Refusal} :
    keepsFixed s o ↔ ∃ t, o = .next t ∧ t.fixed = s.fixed := by
  cases o <;> simp [keepsFixed]

/-- Every command completes and keeps the identity. The unit rows and the rows that serve a descriptor are closed by the law of what runs
them; a row with a condition of its own keeps the identity in each branch. -/
theorem exec_keepsFixed (i : Instr) (s : State) : keepsFixed s (exec i s) := by
  cases i with
  | aluAdd | aluSub | aluAnd | aluOr | aluXor | aluShl | aluShr | aluSar | aluMul | aluEq | aluNe | aluLt | aluLtu | aluLe | aluLeu
    | aluMin | aluMax | aluPass | bitLd | bitAnd | bitOr | bitXor | bitAndn | bitOrn | bitOpen | bitClose | bitSt | bitSet | bitRst
    | bitInv | bitLdv | tmrTon | tmrTof | tmrTp | tmrTacc | tmrTrst | edgRise | edgFall | blkMove | blkFill | blkCmp | blkScan | tblLookup
    | imgRd | imgWr | lsLd | lsSt | brAbs | brRel | brCall | brRet | tskEnd =>
    exact issueUnit_fixed ..
  | cmtRead | cmtMark | cmtResume | cmtStatusRead | tblInfo | run | taskStatus | forceList | prgSwitchStage | prgRelease | prgStatus
    | prgSave | prgKeySet | laneStatus | laneRetest | laneExclude | laneRejoin | votInject | netStatus | netASend | netARecv
    | netInaugurate | netStationInfo | netCounters | netRawSend | netRawRecv | pairStatus | pairSwitch | pairJoin | pairDetach
    | pairRevertArm | nop | timeRead | moduleInfo | ringStatus | bulkAlloc | bulkFree | bulkCopy | txnOpen | txnStage | txnCheck
    | txnApply | txnAbandon | txnStatus | txnRead | mtrRead | mtrHarm | mtrPreset | pstRead | pstInfo | pstPwdSet | pstRetSave
    | pstRetInfo | evrRead | evrStatusRead | sysRestart | sysStartInfo | fuseProgram =>
    exact serve_fixed _ _ _ _ fun e s => by simp
  | fwuBegin | fwuBlock | fwuVerify | fwuActivate | fwuConfirm | fwuAbort | fwuStatusRead =>
    exact serveFwu_fixed _ _ _ _ fun e s => by simp
  | tblLoad | tblUpdate | tblUnload =>
    exact serveTable_fixed ..
  | stop | taskTrigger | varWrite | forceSet | forceClear | forceClearAll =>
    exact serveMirrored_fixed _ _ _ _ _ _ fun e s => by simp
  | prgLoad | prgMapLoad =>
    exact serveThenMirror_fixed _ _ _ _ _ fun e s => by simp
  | varRead =>
    exact (runReads_fixed _).trans (serve_fixed _ _ _ _ fun e s => by simp)
  | narrowsHeartbeat | narrowsEdges | narrowsAccepted | narrowsRecognised | narrowsState | relinquish | roleDecision =>
    exact takeCell_fixed _ _ (fun t => by simp) s
  | revertReq =>
    refine takeCell_fixed _ _ (fun t => ?_) s
    split <;> simp
  | narrowsMirror =>
    simp only [exec, execNarrowsMirror]
    split
    · simp
    · exact takeCell_fixed _ _ (fun t => by simp) s
  | fenceClear =>
    refine foldl_fixed _ (fun t q => ?_) _ s
    dsimp only
    split <;> simp
  | pairReadLatch | pairWriteHold | registerWrite | rwsWrite =>
    simp only [exec, execPairReadLatch, execPairWriteHold, execRegisterWrite, execRwsWrite]
    repeat' split
    all_goals simp
  | laneFreqMeasure | laneSupplyFault | recordCopyArrival | laneSelfTestDone | resyncFinalCopy | resyncStarved | oneLaneHourly
    | oneLaneExpired | oneLaneAllowanceSave =>
    simp only [exec, execLaneFreqMeasure, execLaneSupplyFault, execRecordCopyArrival, execLaneSelfTestDone, execResyncFinalCopy,
      execResyncStarved, execOneLaneHourly, execOneLaneExpired, execOneLaneAllowanceSave]
    repeat' split
    all_goals simp
  | transferUncorrectable | sramScrub | dramPatrolScrub =>
    simp only [exec, execTransferUncorrectable, execSramScrub, execDramPatrolScrub]
    repeat' split
    all_goals simp
  | syncReceived | narrowsDelayMeasure | narrowsLinkUp | narrowsCellAck | standbyFrameCheck | heartbeatSend | cellRepeat | narrowsSilence
    | narrowsLockLoss | retentiveCrcMirror =>
    simp only [exec, execSyncReceived, execNarrowsDelayMeasure, execNarrowsLinkUp, execNarrowsCellAck, execStandbyFrameCheck,
      execHeartbeatSend, execCellRepeat, execNarrowsSilence, execNarrowsLockLoss, execRetentiveCrcMirror]
    repeat' split
    all_goals simp
  | announceReceived | timSet | announceReceiptTimeout | pdelayMessageReceived | ptpMessageTransmit | syncReceiptTimeout | holdoverExpiry
    | refclkFaultSet | refclkFaultClear =>
    simp only [exec, execAnnounceReceived, execTimSet, execAnnounceReceiptTimeout, execPdelayMessageReceived, execPtpMessageTransmit,
      execSyncReceiptTimeout, execHoldoverExpiry, execRefclkFaultSet, execRefclkFaultClear]
    repeat' split
    all_goals simp
  | traceDrain | traceLossRecord | traceFreeze =>
    simp only [exec, execTraceDrain, execTraceLossRecord, execTraceFreeze]
    repeat' split
    all_goals simp
  | bundleIssue | tblLookupDone | budgetOverrun | errorTaskOverrun | laneDeadline =>
    simp only [exec, execBundleIssue, execTblLookupDone, execBudgetOverrun, execErrorTaskOverrun, execLaneDeadline]
    repeat' split
    all_goals simp
  | taskRelease | eventTaskRelease | snapshotDelivery | snapshotCopyDone | eventRecognised | forceInstant | varReadCapture
    | varWriteTimeout =>
    simp only [exec, execTaskRelease, execEventTaskRelease, execSnapshotDelivery, execSnapshotCopyDone, execEventRecognised,
      execForceInstant, execVarReadCapture, execVarWriteTimeout]
    repeat' split
    all_goals simp
  | switchCommit | switchInstant =>
    simp only [exec, execSwitchCommit, execSwitchInstant]
    repeat' split
    all_goals simp
  | portLinkChange | frameReceive | backboneFrameReceive | streamSilence =>
    simp only [exec, execPortLinkChange, execFrameReceive, execBackboneFrameReceive, execStreamSilence]
    repeat' split
    all_goals simp
  | gateOpen | gateClose | dueInstant | discoverRound | inaugurationTimeout | catchUpRepeat =>
    simp only [exec, execGateOpen, execGateClose, execDueInstant, execDiscoverRound, execInaugurationTimeout, execCatchUpRepeat]
    repeat' split
    all_goals simp
  | ilkTestPulse | ilkInToggling | ilkInStopped | claimBackoffEnd | claimComplete | ilkPulseMissing | pairStartTimeout | activeAloneEntry
    | standbyDetach | revertHoldOff | ilkTestPulseReceived | revertWaitTimeout | revertRateWindowExpiry =>
    simp only [exec, execIlkTestPulse, execIlkInToggling, execIlkInStopped, execClaimBackoffEnd, execClaimComplete, execIlkPulseMissing,
      execPairStartTimeout, execActiveAloneEntry, execStandbyDetach, execRevertHoldOff, execIlkTestPulseReceived, execRevertWaitTimeout,
      execRevertRateWindowExpiry]
    repeat' split
    all_goals simp
  | joinFinalCopy | joinTimeout =>
    simp only [exec, execJoinFinalCopy, execJoinTimeout]
    repeat' split
    all_goals simp
  | hifReset | dmaTimeout | dmaError | ringEnable | ringDisable | ringReset | sqTailDoorbell | cqHeadDoorbell | descriptorFetch
    | completionPost | coalTimer | irqCauseClear | msixUnmask | pcieLinkUp | pciePowerStateChange | pcieUncorrectableError =>
    simp only [exec, execHifReset, execDmaTimeout, execDmaError, execRingEnable, execRingDisable, execRingReset, execSqTailDoorbell,
      execCqHeadDoorbell, execDescriptorFetch, execCompletionPost, execCoalTimer, execIrqCauseClear, execMsixUnmask, execPcieLinkUp,
      execPciePowerStateChange, execPcieUncorrectableError]
    repeat' split
    all_goals simp
  | configSave | txnDecision | txnApplyInstant | txnIdleTimeout =>
    simp only [exec, execConfigSave, execTxnDecision, execTxnApplyInstant, execTxnIdleTimeout]
    repeat' split
    all_goals simp
  | barrierRefresh | barrierEcho | barrierFault | fieldInputChange | pulsedSample | debounceExpiry | wireBreakSet | wireBreakClear
    | thermalShutdown | thermalRestart | latchOffRelease | readbackDiscrepancy | groupOverload | sagLevel1 | sagLevel2 | sagRestore
    | outputCurrentLimit | readbackDiscrepancyClear | fieldSafeTimeout | fieldEdgeReport | fieldOutputCommand | fieldOutputApply =>
    simp only [exec, execBarrierRefresh, execBarrierEcho, execBarrierFault, execFieldInputChange, execPulsedSample, execDebounceExpiry,
      execWireBreakSet, execWireBreakClear, execThermalShutdown, execThermalRestart, execLatchOffRelease, execReadbackDiscrepancy,
      execGroupOverload, execSagLevel1, execSagLevel2, execSagRestore, execOutputCurrentLimit, execReadbackDiscrepancyClear,
      execFieldSafeTimeout, execFieldEdgeReport, execFieldOutputCommand, execFieldOutputApply]
    repeat' split
    all_goals simp
  | meterSample | streamLost | streamRestored | zcLost | pqValueRefresh | measurementIntervalEnd =>
    simp only [exec, execMeterSample, execStreamLost, execStreamRestored, execZcLost, execPqValueRefresh, execMeasurementIntervalEnd]
    repeat' split
    all_goals simp
  | energySave =>
    simp only [exec, execEnergySave]
    repeat' split
    all_goals simp
  | pageWrite | trailerScan | backoffEnd | powerFailWarning | rwpRecordWrite | pageRefresh | warningRearm =>
    simp only [exec, execPageWrite, execTrailerScan, execBackoffEnd, execPowerFailWarning, execRwpRecordWrite, execPageRefresh,
      execWarningRearm]
    repeat' split
    all_goals simp
  | evrRecordWrite | evrWriteRepeat =>
    simp only [exec, execEvrRecordWrite, execEvrWriteRepeat]
    repeat' split
    all_goals simp
  | rtcSubRead | rtcDateRead | rtcTimeRead | rtcFreezeTimeout | rtcDateWrite | rtcTimeWrite | rtcHalt | rtcAlarmArm | rtcCompensation
    | vbatCheck | chipTimeSeed | chipTimeSave | rtcSecond | rtcPhaseStep | rtcSync | vbatLost | oscStop =>
    simp only [exec, execRtcSubRead, execRtcDateRead, execRtcTimeRead, execRtcFreezeTimeout, execRtcDateWrite, execRtcTimeWrite,
      execRtcHalt, execRtcAlarmArm, execRtcCompensation, execVbatCheck, execChipTimeSeed, execChipTimeSave, execRtcSecond,
      execRtcPhaseStep, execRtcSync, execVbatLost, execOscStop]
    repeat' split
    all_goals simp
  | wdgService | watchdogStart | wdgExpiry | restartStampExpiry =>
    simp only [exec, execWdgService, execWatchdogStart, execWdgExpiry, execRestartStampExpiry]
    repeat' split
    all_goals simp
  | supplyReset | overTemperature | powerUpRelease | builtInSelfTest | sysCmdRestart | vinPresent | vinAbsent | externalReset =>
    simp only [exec, execSupplyReset, execOverTemperature, execPowerUpRelease, execBuiltInSelfTest, execSysCmdRestart, execVinPresent,
      execVinAbsent, execExternalReset]
    repeat' split
    all_goals simp
  | servicePauseEnd | servicePauseStart | firmwareConfirmed | firmwareTrialTimeout | fwuIdleTimeout =>
    simp only [exec, execServicePauseEnd, execServicePauseStart, execFirmwareConfirmed, execFirmwareTrialTimeout, execFwuIdleTimeout]
    repeat' split
    all_goals simp
  | tableWayFree =>
    simp only [exec, execTableWayFree]
    simp
  | cutOff =>
    simp only [exec, execCutOff]
    simp
  | outputInstant | stopComplete =>
    simp only [exec, execOutputInstant, execStopComplete]
    repeat' split
    all_goals simp
  | autonomousStart =>
    simp only [exec, execAutonomousStart]
    repeat' split
    all_goals simp
  | aResponseTimeout =>
    simp only [exec, execAResponseTimeout]
    repeat' split
    all_goals simp

/-- Settles O60: `exec_keepsFixed` for a command at the front of the queue, and `idle_fixed` for an empty queue. -/
theorem everyCommandCompletesAndKeepsTheIdentity : Obligations.EveryCommandCompletesAndKeepsTheIdentity := by
  have command (i : Instr) (s : State) : ∃ t, exec i s = .next t ∧ t.fixed = s.fixed := keepsFixed_iff.mp (exec_keepsFixed i s)
  have onStep (s : State) : ∃ t, step s = .next t ∧ t.fixed = s.popped.fixed := by
    unfold step
    split
    · exact command ..
    · rename_i hq
      have hpop : s.popped.fixed = s.fixed := by simp [State.fixed, hq]
      exact ⟨_, rfl, (idle_fixed s).trans hpop.symm⟩
  refine ⟨fun i s => ?_, fun s => ?_, fun i s t h => ?_, fun s t h => ?_⟩
  · obtain ⟨t, ht, -⟩ := command i s
    exact ⟨t, ht⟩
  · obtain ⟨t, ht, -⟩ := onStep s
    exact ⟨t, ht⟩
  · obtain ⟨u, hu, hfixed⟩ := command i s
    rw [next_inj (h.symm.trans hu)] at hfixed
    exact hfixed
  · obtain ⟨u, hu, hfixed⟩ := onStep s
    rw [next_inj (h.symm.trans hu)] at hfixed
    simpa [State.fixed] using hfixed

end Sys2Proof.Machine

/-! # Descriptors that a command serves

A clause `served s q op e → …` speaks of the descriptor that the row of an opcode serves. What the row then answers is said once here: the
work of the opcode ends, or it waits. -/

namespace Sys2Proof.Machine

section
variable {q : RingId} {op : Nat} {s t : State} {e : Outst} {f : Outst → State → State × Work} {dma : List Byte}
  {item : Outst → State → MirrorItem}

/-- The row of a served descriptor whose work ends. -/
theorem next_served_finish {d : Done} (h : served s q op e) (hf : f e s = (t, .finish d)) :
    (Host.Outcome.next (serve q op s f) : Host.Outcome State Fault Refusal) = .next (endDesc q e.num d t) :=
  next_serve_finish h.1 h.2 hf

/-- The row of a served descriptor whose work waits. -/
theorem next_served_wait {b : Option Nat} (h : served s q op e) (hf : f e s = (t, .wait b)) :
    (Host.Outcome.next (serve q op s f) : Host.Outcome State Fault Refusal) = .next (waitDesc q e.num b t) :=
  next_serve_wait h.1 h.2 hf

/-- The row of a mirrored opcode whose work ends, on a module that mirrors nothing. -/
theorem next_alone_finish {d : Done} (m : mirrors s = false) (h : served s q op e) (hf : f e s = (t, .finish d)) :
    (Host.Outcome.next (serveMirrored q op dma item f s) : Host.Outcome State Fault Refusal) = .next (endDesc q e.num d t) :=
  next_mirrored_finish m h.1 h.2 hf

/-- The row of a mirrored opcode whose work waits, on a module that mirrors nothing. -/
theorem next_alone_wait {b : Option Nat} (m : mirrors s = false) (h : served s q op e) (hf : f e s = (t, .wait b)) :
    (Host.Outcome.next (serveMirrored q op dma item f s) : Host.Outcome State Fault Refusal) = .next (waitDesc q e.num b t) :=
  next_mirrored_wait m h.1 h.2 hf

end

end Sys2Proof.Machine

/-! # The host interface: doorbells, the fetch and DMA faults (R406, R412 to R418, R423) -/

namespace Sys2Proof.Machine

section
variable {q : RingId} {s : State} {w : W32} {slot : Option Nat} {e : Outst} {d : Desc} {own : Option Nat}

/-- A ring pair that is not stopped yet stops with its cause and class 0x0401 (R413). -/
theorem stopRing_running (h : (ringPair s q).stopped = false) (c : Nat) :
    stopRing q c s = event 0x0401 (det [(1, q.val), (1, c)]) (modRing q (fun r => { r with stopped := true, cause := BitVec.ofNat 8 c }) s) := by
  simp [stopRing, h]

/-- A tail in the ring is taken (R412). -/
theorem writeSqTail_taken (he : (ringPair s q).enable = true) (hs : (ringPair s q).stopped = false)
    (hv : (w.extractLsb' 0 12).toNat < (ringPair s q).sqSize) :
    writeSqTail q w s = modRing q (fun r => { r with sqTail := w.extractLsb' 0 12 }) s := by
  simp only [writeSqTail, he, hs, Bool.not_true, Bool.or_self, Bool.false_eq_true, if_false, if_neg (Nat.not_le.mpr hv)]

/-- A tail beyond the ring stops the ring pair (R413). -/
theorem writeSqTail_stops (he : (ringPair s q).enable = true) (hs : (ringPair s q).stopped = false)
    (hv : (ringPair s q).sqSize ≤ (w.extractLsb' 0 12).toNat) : writeSqTail q w s = stopRing q 2 s := by
  simp only [writeSqTail, he, hs, Bool.not_true, Bool.or_self, Bool.false_eq_true, if_false, if_pos hv]

/-- A head in the ring that frees no more than is used is taken (R412). -/
theorem writeCqHead_taken (he : (ringPair s q).enable = true) (hs : (ringPair s q).stopped = false)
    (hv : (w.extractLsb' 0 12).toNat < (ringPair s q).cqSize)
    (hf : (ringPair s q).freed (w.extractLsb' 0 12).toNat ≤ (ringPair s q).used) :
    writeCqHead q w s = modRing q (fun r =>
      { r with cqHead := w.extractLsb' 0 12, used := r.used - r.freed (w.extractLsb' 0 12).toNat }) s := by
  have hgood := not_or.mpr ⟨Nat.not_le.mpr hv, Nat.not_lt.mpr hf⟩
  simp only [writeCqHead, he, hs, Bool.not_true, Bool.or_self, Bool.false_eq_true, if_false, if_neg hgood]

/-- Another head stops the ring pair (R413). -/
theorem writeCqHead_stops (he : (ringPair s q).enable = true) (hs : (ringPair s q).stopped = false)
    (hbad : (ringPair s q).cqSize ≤ (w.extractLsb' 0 12).toNat ∨
      (ringPair s q).used < (ringPair s q).freed (w.extractLsb' 0 12).toNat) : writeCqHead q w s = stopRing q 3 s := by
  simp only [writeCqHead, he, hs, Bool.not_true, Bool.or_self, Bool.false_eq_true, if_false, if_pos hbad]

/-- A disabled ring pair takes no doorbell (R412). -/
theorem doorbells_disabled (he : (ringPair s q).enable = false) : writeSqTail q w s = s ∧ writeCqHead q w s = s := by
  simp [writeSqTail, writeCqHead, he]

/-- The state after a DMA fault of a ring pair: the fault is counted and the ring pair stops (R406). -/
def dmaStopped (q : RingId) (c : Nat) (s : State) : State :=
  event 0x0401 (det [(1, q.val), (1, c)]) (modRing q (fun r => { r with stopped := true, cause := BitVec.ofNat 8 c })
    (s.modHif fun h => { h with errDma := satInc h.errDma 1 }))

/-- A DMA fault of no descriptor's buffer stops the ring pair (R406). -/
theorem dmaFault_alone (hs : (ringPair s q).stopped = false) (hd : descAt s q slot = none) (c : Nat) :
    dmaFault q c slot s = dmaStopped q c s := by
  rw [dmaFault, hd, stopRing_running (s := s.modHif fun h => { h with errDma := satInc h.errDma 1 }) hs]
  rfl

/-- A descriptor whose buffer met a DMA fault ends with DMA_ERROR (R406). -/
theorem dmaFault_buffer (hs : (ringPair s q).stopped = false) (hd : descAt s q slot = some e) (c : Nat) :
    dmaFault q c slot s = endDesc q e.num (doneWith 0x09 0) (dmaStopped q c s) := by
  rw [dmaFault, hd, stopRing_running (s := s.modHif fun h => { h with errDma := satInc h.errDma 1 }) hs]
  rfl

/-! ## The checks at the fetch (R417, R418) -/

/-- A bad field is answered before anything else (R418). -/
theorem fetchRefusal_bad {o : Nat} (h : badField s d = some o) : fetchRefusal s q d own = some (doneWith 0x06 o) := by
  simp [fetchRefusal, h]

/-- With no bad field the run state and the role answer before the admission (R217, R364, R426, R602). -/
theorem fetchRefusal_good (h : badField s d = none) :
    fetchRefusal s q d own = (stateRefusal s d).orElse fun _ => admission s q d own := by
  simp [fetchRefusal, h]

theorem badField_opcode (h : assignedOps.contains d.opcode.toNat = false) : badField s d = some 0 := by
  rw [badField, h]
  rfl

theorem badField_flags (ha : assignedOps.contains d.opcode.toNat = true) (hf : 8 ≤ d.flags.toNat) : badField s d = some 1 := by
  have hbits : d.flags.toNat / 8 ≠ 0 := by omega
  simp only [badField, ha, Bool.not_true, Bool.false_eq_true, if_false, if_pos hbits]

theorem badField_len (ha : assignedOps.contains d.opcode.toNat = true) (hf : d.flags.toNat < 8) (hl : d.len % 8 ≠ 0) :
    badField s d = some 4 := by
  have hbits : ¬ d.flags.toNat / 8 ≠ 0 := by omega
  simp only [badField, ha, Bool.not_true, Bool.false_eq_true, if_false, if_neg hbits, if_pos (Or.inl hl)]

/-- In SAFE_TALK every opcode but those served there is refused (R602). -/
theorem stateRefusal_safeTalk (h : s.sys.run = .safeTalk) (hop : safeTalkOps.contains d.opcode.toNat = false) :
    stateRefusal s d = some (doneWith 0x0F 0) := by
  simp only [stateRefusal, h, hop, Bool.not_false, and_self, if_true]

/-- In STARTING every opcode but the status reads is busy (R217). -/
theorem stateRefusal_starting (h : s.sys.run = .starting) (hop : startingOps.contains d.opcode.toNat = false) :
    stateRefusal s d = some (doneWith 0x04 0) := by
  simp only [stateRefusal, h, hop, reduceCtorEq, false_and, Bool.not_false, and_self, if_true, if_false]

/-- Running and stopped, only the role can refuse (R364). -/
theorem stateRefusal_up (h : s.sys.run = .running ∨ s.sys.run = .stopped) :
    stateRefusal s d = if d.authority && !hasAuthority s then some (doneWith 0x03 0) else none := by
  rcases h with h | h <;> simp only [stateRefusal, h, reduceCtorEq, false_and, if_false]

end

/-- Settles O4: the doorbells by what is taken and what stops a ring pair, the faults by `dmaFault_alone` and `dmaFault_buffer`, the
checks by `badField` and `stateRefusal` in their order. -/
theorem doorbellsAndFetch : Obligations.DoorbellsAndFetch := by
  refine ⟨fun q w slot us s hs => ?_, fun bytes dma s q hm hn => ?_, fun q w slot us s hs => ?_, fun s q d own o h => fetchRefusal_bad h,
    fun s d h => badField_opcode h, fun s d ha hf => badField_flags ha hf, fun s d ha hf hl => badField_len ha hf hl,
    fun s q d own h => ?_, fun s q op e f h ha hn => ?_⟩
  · intro r v freed stop counted
    refine ⟨fun he hv => congrArg _ (writeSqTail_taken he hs hv),
      fun he hv hf => congrArg _ ((writeCqHead_taken he hs hv hf).trans (modRing_congr rfl)),
      fun hd => ⟨congrArg _ (dmaFault_alone hs hd 5), congrArg _ (dmaFault_alone hs hd 4)⟩, fun hd ht => ?_⟩
    simp only [exec, execDmaTimeout, if_neg (Nat.not_lt.mpr ht), dmaFault_alone hs hd]
    rfl
  · refine ⟨?_, rfl, rfl, rfl, rfl⟩
    simp only [exec, execDescriptorFetch, hm, if_true, hn]
    rfl
  · intro r v freed stop counted
    refine ⟨fun e hd => congrArg _ (dmaFault_buffer hs hd 5), fun ht => if_pos ht,
      fun he hv => congrArg _ ((writeSqTail_stops he hs hv).trans (stopRing_running hs 2)),
      fun he hv => congrArg _ ((writeCqHead_stops he hs hv).trans (stopRing_running hs 3)),
      fun he => ⟨congrArg _ (doorbells_disabled he).1, congrArg _ (doorbells_disabled he).2⟩, fun n hn => ?_⟩
    rcases hn with rfl | rfl <;> exact ⟨rfl, rfl⟩
  · refine ⟨fun hr hop => ?_, fun hr hop => ?_, fun hr ha hn => ?_, fun hr ha hd => ?_⟩
    · rw [fetchRefusal_good h, stateRefusal_safeTalk hr hop]
      rfl
    · rw [fetchRefusal_good h, stateRefusal_starting hr hop]
      rfl
    · rw [fetchRefusal_good h, stateRefusal_up hr, ha, hn]
      rfl
    · rw [fetchRefusal_good h, stateRefusal_up hr, ha, Bool.not_true, Bool.and_false]
      simp [admission, hd]
  · exact serve_notActive h (by simp [withoutAuthority, ha, hn])

end Sys2Proof.Machine

/-! # The configuration transaction (R13, R15, R432 to R441, R518, R660) -/

namespace Sys2Proof.Machine

section
variable {q : RingId} {s : State} {e : Outst} {x : Nat} {d : Nat}

/-! ## TXN_CHECK and TXN_APPLY -/

/-- A set that fits is checked (R435). -/
theorem doTxnCheck_checked (ho : ownsTxn s q = true) (hc : checkTxn s e.fetchCt = none) :
    doTxnCheck q e s = (s.modTxn fun t => { t with lastOpAt := s.clk.now, phase := .checked }, .finish (doneOk [])) := by
  simp only [doTxnCheck, ho, hc]
  rfl

/-- A set that does not fit is dropped (R435). -/
theorem doTxnCheck_refused (ho : ownsTxn s q = true) (hc : checkTxn s e.fetchCt = some d) :
    doTxnCheck q e s = (mirror .txnAbandon (dropTxn 0x05 (d % 256) s), .finish (doneWith 0x05 d)) := by
  simp only [doTxnCheck, ho, hc]
  rfl

/-- TXN_CHECK of a ring pair that does not own the transaction (R432). -/
theorem doTxnCheck_conflict (ho : ownsTxn s q = false) : doTxnCheck q e s = (s, .finish (doneWith 0x10 0)) := by
  simp [doTxnCheck, ho, stTxnConflict]

/-- What TXN_APPLY needs before its refusals are judged: a checked set of its own, and a named instant (R437). -/
structure NamesInstant (q : RingId) (s : State) (e : Outst) (x : Nat) : Prop where
  checked : s.txn.phase = .checked
  owner : s.txn.owner = q
  which : e.desc.par 24 1 ≤ 1
  idle : ringsBusy s = false
  named : namedInstant s (e.desc.par 24 1) (e.desc.par 25 1) (e.desc.par 32 8) = some x

/-- TXN_APPLY with a named instant turns on its refusals (R437). -/
theorem doTxnApply_eq (h : NamesInstant q s e x) :
    doTxnApply q e s =
      ((applyRefusal s e.fetchCt x).elim (beginApply e.num x (touchTxn s), .wait (some x)) fun d =>
        (mirror .txnAbandon (dropTxn 0x05 (d % 256) s), .finish (doneWith 0x05 d))) := by
  simp only [doTxnApply, h.checked, h.owner, if_neg (Nat.not_lt.mpr h.which), h.idle, h.named, BEq.rfl,
    Bool.and_self, Bool.not_true, Bool.false_eq_true, if_false]
  cases applyRefusal s e.fetchCt x <;> rfl

/-! ## The decision and the instant -/

/-- D_T with every required unit acknowledged commits (R439). -/
theorem decides_commit (hp : s.txn.phase = .applying) (hd : s.txn.dT ≤ s.clk.ct) (ha : hasAuthority s = true)
    (hm : missingUnit s = none) : exec .txnDecision s = .next (commitTxn s) := by
  simp only [exec, execTxnDecision, hp, if_pos (And.intro hd ha), hm]

/-- D_T with a required unit that lacks aborts (R439). -/
theorem decides_abort (hp : s.txn.phase = .applying) (hd : s.txn.dT ≤ s.clk.ct) (ha : hasAuthority s = true)
    (hr : mirrors s = false) {k w n : Nat} (hm : missingUnit s = some (k, w, n)) :
    exec .txnDecision s = .next (abortTxn k w n s) := by
  simp [exec, execTxnDecision, hp, hd, ha, hm, hr]

/-- Before D_T, or with no transaction that applies, nothing is decided. -/
theorem decides_nothing (h : s.txn.phase ≠ .applying ∨ s.clk.ct < s.txn.dT) : exec .txnDecision s = .next s := by
  simp only [exec, execTxnDecision]
  split
  next hp => rw [if_neg fun hd => h.elim (· hp) (Nat.not_lt.mpr hd.1)]
  next => rfl

/-- X of a committed transaction that stages no switch (R440). -/
theorem applies_at_instant (hp : s.txn.phase = .committed) (hx : s.txn.x ≤ s.clk.ct) (hw : s.prg.sw = none)
    (hs : s.txn.switch = none) :
    exec .txnApplyInstant s = .next (runReads
      (endApplied s.txn.x (applySet s.txn.objs s.txn.rws s.prg.entries (edgeEntries s.prg.entries) s.txn.x s))) := by
  simp [exec, execTxnApplyInstant, finishSwitch, hp, hx, hw, hs]

/-- Before X, or with no committed transaction, nothing is applied. -/
theorem applies_nothing (h : s.txn.phase ≠ .committed ∨ s.clk.ct < s.txn.x) : exec .txnApplyInstant s = .next s := by
  simp only [exec, execTxnApplyInstant]
  split
  next hp => rw [if_neg (h.elim (absurd hp) Nat.not_le.mpr)]
  next => rfl

end

/-- Settles O9: TXN_CHECK by whether the set fits, TXN_APPLY by its refusals, the decision and the instant by phase and time. -/
theorem transactionCheckAndApply : Obligations.TransactionCheckAndApply := by
  intro q s e x
  refine ⟨fun h ho hc => next_served_finish h (doTxnCheck_checked ho hc), ?_, decides_commit, applies_at_instant,
    fun h ho => next_served_finish h (doTxnCheck_conflict ho), fun d h ho hc => next_served_finish h (doTxnCheck_refused ho hc), ?_,
    fun hp hd ha hr k w n hm => decides_abort hp hd ha hr hm, decides_nothing, applies_nothing, ?_⟩
  · intro h ⟨hp, ho, hw, hb, hx⟩ hr
    exact next_served_wait h (by rw [doTxnApply_eq ⟨hp, ho, hw, hb, hx⟩, hr]; rfl)
  · intro d h ⟨hp, ho, hw, hb, hx⟩ hr
    exact next_served_finish h (by rw [doTxnApply_eq ⟨hp, ho, hw, hb, hx⟩, hr]; rfl)
  · intro ha
    simp only [endApplied, ha]

section
variable {q : RingId} {s : State} {e : Outst} {off kind ring : Nat} {w : W32} {dma bs : List Byte}

/-! ## Opening and staging -/

/-- TXN_OPEN with no transaction (R432). -/
theorem doTxnOpen_opens (h : s.txn.phase = .none) :
    doTxnOpen q e s = (s.modTxn fun t =>
      { t with phase := .opened, num := t.num + 1, owner := q, objs := [], rws := [], switch := none, required := [], acked := [],
               apply := none, lastOpAt := s.clk.now }, .finish (doneOk (fields [(1, (s.txn.num + 1).toNat)]))) := by
  simp only [doTxnOpen, h]

/-- TXN_OPEN while there is a transaction (R432). -/
theorem doTxnOpen_conflict (h : s.txn.phase ≠ .none) : doTxnOpen q e s = (s, .finish (doneWith 0x10 0)) := by
  unfold doTxnOpen
  split
  next hp => exact absurd hp h
  next => rfl

/-- TXN_STAGE of a ring pair that does not own the transaction (R432). -/
theorem doTxnStage_conflict (ho : ownsTxn s q = false) : doTxnStage q dma e s = (s, .finish (doneWith 0x10 0)) := by
  simp [doTxnStage, ho, stTxnConflict]

/-- An object of kinds 1 to 5 that fits takes its place in the staged set (R434). -/
theorem stageObj_fits (hk : kind ≤ 5)
    (hf : stagedBytes (putObj { kind := kind, ring := if kind = 3 then ring else 0, bytes := bs } s.txn.objs) s.txn.rws ≤ 2097152) :
    stageObj kind ring bs s = (true, setStaged (putObj { kind := kind, ring := if kind = 3 then ring else 0, bytes := bs } s.txn.objs)
      s.txn.rws s) := by
  simp only [stageObj, stagedMax, if_neg (show ¬ kind = 6 by omega), if_neg (Nat.not_lt.mpr hf)]

/-- An object of kinds 1 to 5 that does not fit leaves the staged set (R434). -/
theorem stageObj_full (hk : kind ≤ 5)
    (hf : 2097152 < stagedBytes (putObj { kind := kind, ring := if kind = 3 then ring else 0, bytes := bs } s.txn.objs) s.txn.rws) :
    stageObj kind ring bs s = (false, s) := by
  simp only [stageObj, stagedMax, if_neg (show ¬ kind = 6 by omega), if_pos hf]

/-- TXN_STAGE of the owner, of a kind and ring that are in range, is what staging the object answers (R433, R434). -/
theorem doTxnStage_eq (ho : ownsTxn s q = true) (h1 : 1 ≤ e.desc.par 24 1) (h5 : e.desc.par 24 1 ≤ 5)
    (h3 : e.desc.par 24 1 = 3 → e.desc.par 25 1 ≤ 3) {p : Bool × State}
    (hp : stageObj (e.desc.par 24 1) (e.desc.par 25 1) (bufRead e.desc dma s) (touchTxn s) = p) :
    doTxnStage q dma e s =
      if p.1 then (mirror (.txnStage (e.desc.par 24 1) (e.desc.par 25 1) (bufRead e.desc dma s)) p.2, .finish (doneOk []))
      else (p.2, .finish (doneWith 0x11 0)) := by
  have hrange : (outRange 1 6 (e.desc.par 24 1) || (e.desc.par 24 1 == 3 && decide (3 < e.desc.par 25 1)) ||
      (e.desc.par 24 1 == 6 && e.desc.len % 8 != 0)) = false := by
    simp only [outRange, Bool.or_eq_false_iff, Bool.and_eq_false_iff, beq_eq_false_iff_ne, decide_eq_false_iff_not]
    omega
  simp only [doTxnStage, ho, hrange, hp]
  rfl

/-! ## RWS words -/

/-- Without an open transaction an RWS write is discarded (R13). -/
theorem stageRws_none (h : s.txn.phase = .none) : stageRws off w s = s := by
  simp only [stageRws, h]

/-- An RWS word that fits stands after the earlier ones (R434). -/
theorem stageRws_fits (h : s.txn.phase = .opened ∨ s.txn.phase = .checked)
    (hf : stagedBytes s.txn.objs s.txn.rws + 8 ≤ 2097152) :
    stageRws off w s = mirror (.txnRws off w) (setStaged s.txn.objs (s.txn.rws ++ [(off, w)]) s) := by
  rcases h with h | h <;> simp only [stageRws, h, stagedMax, Nat.not_lt.mpr hf, if_false]

/-- An RWS word that does not fit is discarded with class 0x040B (R434). -/
theorem stageRws_full (h : s.txn.phase = .opened ∨ s.txn.phase = .checked)
    (hf : 2097152 < stagedBytes s.txn.objs s.txn.rws + 8) : stageRws off w s = event 0x040B (det [(4, off), (1, 2)]) s := by
  rcases h with h | h <;> simp only [stageRws, h, stagedMax, hf, if_true]

/-- While a transaction applies an RWS write is discarded with class 0x040B (R434). -/
theorem stageRws_applying (h : s.txn.phase = .applying ∨ s.txn.phase = .committed) :
    stageRws off w s = event 0x040B (det [(4, off), (1, 1)]) s := by
  rcases h with h | h <;> simp only [stageRws, h]

end

/-- RWS words are written where the offset is one of an RWS register, by a module that may be written (R13). -/
theorem writeRws_staged {off : Nat} {w : W32} {s : State} (ho : rwsOffsets.contains off = true) (hr : s.sys.run ≠ .safeTalk)
    (ha : hasAuthority s = true) : writeRws off w s = stageRws off w s := by
  simp only [writeRws, ho, ha, beq_eq_false_iff_ne.mpr hr]
  rfl

/-- Settles O8: TXN_OPEN by phase, TXN_STAGE by room, an RWS word by phase and room. -/
theorem transactionStaging : Obligations.TransactionStaging := by
  intro q dma bs kind ring off w s e
  refine ⟨fun h hp => next_served_finish h (doTxnOpen_opens hp), ?_, fun h hp => next_served_finish h (doTxnOpen_conflict hp),
    fun h ho => next_served_finish h (doTxnStage_conflict ho), ?_, ?_, ?_, ?_⟩
  · rintro h ho rfl rfl rfl h1 h5 h3
    exact ⟨fun hf => next_served_finish h (by rw [doTxnStage_eq ho h1 h5 h3 (stageObj_fits h5 hf)]; rfl),
      fun hf => next_served_finish h (by rw [doTxnStage_eq ho h1 h5 h3 (stageObj_full h5 hf)]; rfl)⟩
  · rintro ⟨ho, hr, ha⟩ hp
    exact congrArg _ ((writeRws_staged ho hr ha).trans (stageRws_none hp))
  · rintro ⟨ho, hr, ha⟩ hp hf
    exact congrArg _ ((writeRws_staged ho hr ha).trans (stageRws_fits hp hf))
  · rintro ⟨ho, hr, ha⟩ hp hf
    exact congrArg _ ((writeRws_staged ho hr ha).trans (stageRws_full hp hf))
  · rintro ⟨ho, hr, ha⟩ hp
    exact congrArg _ ((writeRws_staged ho hr ha).trans (stageRws_applying hp))

section
variable {q : RingId} {s : State} {e : Outst} {cut : Option Nat}

/-! ## Abandoning, reading and saving -/

/-- An open transaction that applies nothing is dropped with its cause (R441). -/
theorem abandonTxn_open (h : s.txn.phase = .opened ∨ s.txn.phase = .checked) (ha : s.txn.apply = none) (cause : Nat) :
    abandonTxn cause s = mirror .txnAbandon (dropTxn 0x0C 0 (event 0x0408 (det [(1, cause)]) (abortRings s))) := by
  rcases h with h | h <;> simp only [abandonTxn, h, ha] <;> rfl

/-- TXN_ABANDON of the owner while the transaction is open (R441). -/
theorem doTxnAbandon_open (h : s.txn.phase = .opened ∨ s.txn.phase = .checked) (ho : s.txn.owner = q) (ha : s.txn.apply = none) :
    doTxnAbandon q e s = (mirror .txnAbandon (dropTxn 0x0C 0 (event 0x0408 (det [(1, 1)]) (abortRings s))), .finish (doneOk [])) := by
  rw [← abandonTxn_open h ha]
  rcases h with h | h <;> simp [doTxnAbandon, h, ho]

/-- TXN_ABANDON of a ring pair that owns no transaction (R432). -/
theorem doTxnAbandon_conflict (h : s.txn.phase = .none ∨ s.txn.owner ≠ q) : doTxnAbandon q e s = (s, .finish (doneWith 0x10 0)) := by
  simp [doTxnAbandon, h, stTxnConflict]

/-- TXN_ABANDON after D_T (R441). -/
theorem doTxnAbandon_late (h : s.txn.phase = .committed ∨ (s.txn.phase = .applying ∧ s.txn.dT ≤ s.clk.ct)) (ho : s.txn.owner = q) :
    doTxnAbandon q e s = (s, .finish (doneWith 0x07 0)) := by
  rcases h with h | ⟨h, hd⟩
  · simp [doTxnAbandon, h, ho, stBadState]
  · simp [doTxnAbandon, h, hd, ho, stBadState]

/-- TXN_READ of the applied set (R660). -/
theorem doTxnRead_applied (h : e.desc.par 24 1 = 0) :
    doTxnRead q e s = (bufWrite e.desc 0 (fitEntries e.desc.len (appliedEntries s)).flatten s, .finish
      { status := if (fitEntries e.desc.len (appliedEntries s)).length = (appliedEntries s).length then 0x00 else 0x11, detail := 0,
        result := fields [(4, (fitEntries e.desc.len (appliedEntries s)).flatten.length)] }) := by
  simp [doTxnRead, h, stOk, stNoSpace]

/-- TXN_READ of a staged set that is not there, or not its own (R660). -/
theorem doTxnRead_conflict (h : e.desc.par 24 1 = 1) (hs : s.txn.phase = .none ∨ s.txn.owner ≠ q) :
    doTxnRead q e s = (s, .finish (doneWith 0x10 0)) := by
  simp [doTxnRead, h, hs, stTxnConflict]

end

/-- Settles O10: abandoning by phase and owner, reading by which set, and the save by its size. -/
theorem transactionEnds : Obligations.TransactionEnds := by
  intro q s e cut
  refine ⟨fun h hp ho ha => next_served_finish h (doTxnAbandon_open hp ho ha), ?_, ?_, fun h hw => next_served_finish h (doTxnRead_applied hw),
    ?_, fun h hp => next_served_finish h (doTxnAbandon_conflict hp), fun h hp ho => next_served_finish h (doTxnAbandon_late hp ho), ?_,
    fun h hw hs => next_served_finish h (doTxnRead_conflict hw hs), ?_, ?_⟩
  · intro hp ha ht
    refine Eq.trans ?_ (congrArg _ (abandonTxn_open hp ha 2))
    rcases hp with hp | hp <;> simp [exec, execTxnIdleTimeout, hp, ht]
  · intro h
    refine next_served_finish h ?_
    simp [doTxnStatus]
  · intro hs hf
    obtain ⟨x, hx⟩ := Option.isSome_iff_exists.mp hs
    simp only [exec, execConfigSave, hx, Nat.not_lt.mpr hf, if_false]
    rfl
  · intro ht
    simp [exec, execTxnIdleTimeout, ht]
  · intro hs
    simp only [exec, execConfigSave, hs]
  · intro hs hf
    obtain ⟨x, hx⟩ := Option.isSome_iff_exists.mp hs
    simp only [exec, execConfigSave, hx, hf, if_true]

end Sys2Proof.Machine

/-! # One step, the state after reset, and the ring pairs (R411, R416, R419 to R422, R429 to R431) -/

namespace Sys2Proof.Machine

/-- Settles O1, by the two cases of the queue. -/
theorem stepRunsTheFrontCommand : Obligations.StepRunsTheFrontCommand := by
  refine ⟨fun c s => rfl, fun c rest s h => ?_, fun s h => ?_⟩ <;> simp only [step, h]

/-- Settles O2: every field is that of the reset state; the fields of vectors are those of each element. -/
theorem resetState : Obligations.ResetState := by
  refine ⟨rfl, rfl, rfl, rfl, rfl, fun q => ?_, rfl, rfl, rfl, rfl, rfl, fun l => ?_, rfl, rfl, fun l => ?_, rfl⟩
  · simp [State.reset, State.resetHif, Vector.get_eq_getElem]
  · simp [State.reset, State.resetLanes, Vector.get_eq_getElem]
  · simp [State.reset, State.resetLanes, Vector.get_eq_getElem]

section
variable {q : RingId} {w : W32} {s : State}

/-! ## Set-up -/

/-- The set-up that R411 asks for. -/
theorem setUpOk_iff (r : RingPair) : r.setUpOk = true ↔ r.sqBase.toNat % 4096 = 0 ∧ r.cqBase.toNat % 4096 = 0 ∧
    (4 ≤ r.sqLog2.toNat ∧ r.sqLog2.toNat ≤ 12) ∧ (4 ≤ r.cqLog2.toNat ∧ r.cqLog2.toNat ≤ 12) := by
  simp [RingPair.setUpOk, outRange, and_assoc]

/-- A ring pair that is enabled already takes the priority alone (R411). -/
theorem enableRing_enabled (h : (ringPair s q).enable = true) : enableRing q w s = modRing q (RingPair.putPrio w) s := by
  simp [enableRing, h]

/-- While descriptors are outstanding a write that enables is discarded (R411). -/
theorem enableRing_running (h : (ringPair s q).enable = false) (ho : (ringPair s q).outst ≠ []) : enableRing q w s = s := by
  simp [enableRing, RingPair.running, h, ho]

/-- A good set-up enables the ring pair (R411). -/
theorem enableRing_good (h : (ringPair s q).enable = false) (ho : (ringPair s q).outst = [])
    (hg : (((ringPair s q).putSizes w).putPrio w).setUpOk = true) :
    enableRing q w s = modRing q (fun r => { ((r.putSizes w).putPrio w).rewind with enable := true }) s := by
  simp only [enableRing, RingPair.running, h, ho, hg]
  exact modRing_congr rfl

/-- A bad set-up is kept with CAUSE 1 (R411). -/
theorem enableRing_bad (h : (ringPair s q).enable = false) (ho : (ringPair s q).outst = [])
    (hg : ¬ (((ringPair s q).putSizes w).putPrio w).setUpOk = true) :
    enableRing q w s = modRing q (fun r => { (r.putSizes w).putPrio w with cause := 1 }) s := by
  simp only [enableRing, RingPair.running, h, ho, if_neg hg]
  exact modRing_congr rfl

/-- Disabling with nothing on the fetch path clears ENABLE alone (R416). -/
theorem disableRing_idle (h : (ringPair s q).enable = true)
    (hw : ∀ e ∈ (ringPair s q).outst, e.ended.isNone → onFetchPath e.desc.opcode.toNat = false) :
    disableRing q w s = modRing q (fun r => { r.putPrio w with enable := false }) s := by
  have hnone : ((ringPair s q).outst.filter fun e => e.ended.isNone && onFetchPath e.desc.opcode.toNat) = [] := by
    simpa [List.filter_eq_nil_iff] using hw
  simp only [disableRing, h, if_true, abortWaiting, ringPair_modRing, RingPair.putPrio, hnone, List.foldl_nil]

/-- A reset of a ring pair that holds no completion and owns no transaction (R416). -/
theorem resetRing_empty (ho : (ringPair s q).outst = []) (ht : txnOwner s q = false) :
    resetRing q w s = modRing q (fun r => { ((r.rewind.putSizes w).putPrio w) with
      enable := false, stopped := false, overflow := false, cause := 0, discarded := satInc r.discarded 0 }) s := by
  simp only [resetRing, ho, ht, noteDiscard, List.length_nil, if_true, Bool.false_eq_true, if_false]
  refine modRing_congr ?_
  simp only [RingPair.discard, RingPair.goOn, ho, List.filter_nil, List.append_nil, List.length_nil, RingPair.rewind, RingPair.putSizes,
    RingPair.putPrio]

end

/-- Settles O3: each row by ENABLE, by what is outstanding, and by the set-up. -/
theorem ringPairSetUp : Obligations.RingPairSetUp := by
  intro q w s
  have hgood := setUpOk_iff (((ringPair s q).putSizes w).putPrio w)
  refine ⟨fun h ho hg => congrArg _ (enableRing_good h ho (hgood.mpr hg)), fun h => ?_, fun ho ht => congrArg _ (resetRing_empty ho ht),
    fun h ho hg => congrArg _ (enableRing_bad h ho fun hb => hg (hgood.mp hb)), fun h => congrArg _ (enableRing_enabled h),
    fun h ho => congrArg _ (enableRing_running h ho), fun h hw => congrArg _ (disableRing_idle h hw)⟩
  simp only [exec, execRingDisable, disableRing, h]
  rfl

section
variable {q : RingId} {s : State}

/-! ## Posting -/

/-- Sending a vector leaves the ring pairs. -/
@[simp] theorem ringPair_sendMsix (v : Fin 64) (s : State) (q : RingId) : ringPair (sendMsix v s) q = ringPair s q := by
  simp only [sendMsix]
  split <;> rfl

/-- The write-back leaves the ring pairs. -/
@[simp] theorem ringPair_writeBack (r : RingPair) (e : Outst) (d : Done) (ct : Nat) (s : State) (q : RingId) :
    ringPair (writeBack r e d ct s) q = ringPair s q := by
  simp only [writeBack]
  split <;> rfl

/-- The moderation of messages changes only what it counts (R409). -/
theorem ringPair_moderate (q : RingId) (irq : Bool) (s : State) :
    ∃ u f, ringPair (moderate q irq s) q = { ringPair s q with unsent := u, firstUnsentAt := f } := by
  simp only [moderate]
  split
  · simp only [sendRingVector, ringPair_sendMsix, ringPair_modRing]
    exact ⟨_, _, rfl⟩
  · simp only [ringPair_modRing]
    exact ⟨_, _, rfl⟩

/-- The oldest completion is posted where a slot is free (R421, R422). -/
theorem completionPost_posts {e : Outst} {rest : List Outst} {ct : Nat} {d : Done} (hs : (ringPair s q).stopped = false)
    (hh : hostReachable s = true) (hu : (ringPair s q).used < (ringPair s q).cqSize) (ho : (ringPair s q).outst = e :: rest)
    (hc : e.doneCt = some ct) (hd : e.ended = some d) :
    exec (.completionPost q) s = .next (moderate q (e.desc.flags.getLsbD 1) (modRing q RingPair.posted
      (emit (.dmaWrite ((ringPair s q).cqBase.toNat + 16 * (ringPair s q).cqTail.toNat) (completionBytes e d (ringPair s q).phase))
        (writeBack (ringPair s q) e d ct s)))) := by
  have hfree : decide ((ringPair s q).cqSize ≤ (ringPair s q).used) = false := decide_eq_false (Nat.not_le.mpr hu)
  simp only [exec, execCompletionPost, hs, hh, hfree, ho, hc, hd]
  rfl

/-! ## Fences -/

/-- One ring pair's part of FENCE_CLEAR. -/
def fencePass (s : State) (q : RingId) : State :=
  ((ringPair (clearDead q s) q).cleared).elim (clearDead q s) fun e => clearFence q e (clearDead q s)

theorem execFenceClear_eq (s : State) : execFenceClear s = ok ((allFin 32).foldl fencePass s) := by
  refine congrArg (fun f => ok ((allFin 32).foldl f s)) (funext fun t => funext fun q => ?_)
  simp only [fencePass]
  split <;> simp_all

/-- With no dead descriptor fenced, none is cleared. -/
theorem clearDead_none (h : ∀ e ∈ (ringPair s q).dead, e.fenced = false) : clearDead q s = s := by
  have hnone : ((ringPair s q).dead.filter fun e => e.fenced) = [] := by simpa [List.filter_eq_nil_iff] using h
  simp only [clearDead, hnone, List.foldl_nil]

/-- A ring pair with no fence to clear is passed over. -/
theorem fencePass_idle (hd : ∀ e ∈ (ringPair s q).dead, e.fenced = false) (hc : (ringPair s q).cleared = none) : fencePass s q = s := by
  simp only [fencePass, clearDead_none hd, hc, Option.elim_none]

/-- A pass over ring pairs with no fence to clear changes nothing. -/
theorem foldl_fencePass_idle (l : List RingId)
    (h : ∀ p ∈ l, (∀ x ∈ (ringPair s p).dead, x.fenced = false) ∧ (ringPair s p).cleared = none) : l.foldl fencePass s = s := by
  induction l with
  | nil => rfl
  | cons p l ih =>
    obtain ⟨hd, hc⟩ := h p (by simp)
    rw [List.foldl_cons, fencePass_idle hd hc]
    exact ih fun r hr => h r (List.mem_cons_of_mem _ hr)

/-- Entering the order of the service cores leaves the ring pairs. -/
theorem ringPair_dispatch (q p : RingId) (e : Outst) (s : State) : ringPair (dispatch q e s) p = ringPair s p := by
  unfold dispatch
  split <;> rfl

/-- Clearing a fence changes its own ring pair alone. -/
theorem ringPair_clearFence_other {p : RingId} (h : q ≠ p) (e : Outst) (s : State) : ringPair (clearFence q e s) p = ringPair s p := by
  simp only [clearFence, ringPair_dispatch, ringPair_modRing_other _ _ h]

/-- A pass over distinct ring pairs, one of which has a fence to clear, clears it. -/
theorem foldl_fencePass_one {e : Outst} (l : List RingId) (hq : q ∈ l) (hl : l.Nodup)
    (h : ∀ p : RingId, (∀ x ∈ (ringPair s p).dead, x.fenced = false) ∧ (ringPair s p).cleared = if p = q then some e else none) :
    l.foldl fencePass s = clearFence q e s := by
  induction l with
  | nil => cases hq
  | cons p l ih =>
    obtain ⟨hp, hl⟩ := List.nodup_cons.mp hl
    obtain ⟨hd, hc⟩ := h p
    rw [List.foldl_cons]
    by_cases hpq : p = q
    · subst hpq
      have hpass : fencePass s p = clearFence p e s := by simp only [fencePass, clearDead_none hd, hc, if_true, Option.elim_some]
      rw [hpass]
      refine foldl_fencePass_idle l fun r hr => ?_
      have hne : p ≠ r := fun hpr => hp (hpr ▸ hr)
      rw [ringPair_clearFence_other hne]
      exact ⟨(h r).1, (h r).2.trans (if_neg hne.symm)⟩
    · rw [fencePass_idle hd (hc.trans (if_neg hpq))]
      exact ih ((List.mem_cons.mp hq).resolve_left (Ne.symm hpq)) hl

end

/-- Settles O5: the posting row, and the pass of FENCE_CLEAR over the ring pairs. -/
theorem fenceAndCompletion : Obligations.FenceAndCompletion := by
  refine ⟨?_, ?_, ?_, ?_⟩
  · intro q s e rest ct d r hs hh hu ho hc hd
    refine ⟨_, completionPost_posts hs hh hu ho hc hd, ?_, ?_⟩
    · simp [completionBytes, fields, r]
    · obtain ⟨u, f, hm⟩ := ringPair_moderate q (e.desc.flags.getLsbD 1) (modRing q RingPair.posted
        (emit (.dmaWrite (r.cqBase.toNat + 16 * r.cqTail.toNat) (completionBytes e d r.phase)) (writeBack r e d ct s)))
      have hemit : ∀ o t, ringPair (emit o t) q = ringPair t q := fun _ _ => rfl
      rw [ringPair_modRing, hemit, ringPair_writeBack] at hm
      rw [hm]
      exact ⟨congrArg (List.drop 1) ho, rfl, rfl, rfl⟩
  · intro s h
    exact (execFenceClear_eq s).trans (congrArg _ (foldl_fencePass_idle _ fun p _ => ⟨(h p).2, (h p).1⟩))
  · intro q e s h
    exact (execFenceClear_eq s).trans (congrArg _ (foldl_fencePass_one _ (List.mem_finRange q) (List.nodup_finRange 32) h))
  · intro q e s he hp
    refine ⟨by simp [clearFence, dispatch, he, hp, enterService, modRing], ?_⟩
    simp only [clearFence, ringPair_dispatch, ringPair_modRing, RingPair.modWork]

section
variable {e : Outst} {s : State} {o : Nat} {b : BulkBuf}

/-! ## Bulk buffers -/

theorem doBulkAlloc_placed (h : bulkPlace s (e.desc.par 24 8) = some o) :
    doBulkAlloc e s = (s.modHif fun h => { h with bulk := h.bulk ++ [{ offset := o, size := e.desc.par 24 8 }] },
      .finish (doneOk (fields [(8, o)]))) := by
  simp only [doBulkAlloc, h]

theorem doBulkAlloc_full (h : bulkPlace s (e.desc.par 24 8) = none) : doBulkAlloc e s = (s, .finish (doneWith 0x11 0)) := by
  simp only [doBulkAlloc, h, stNoSpace]

theorem doBulkFree_found (h : s.hif.bulk.find? (fun b => b.offset == e.desc.par 24 8) = some b) :
    doBulkFree e s = if bulkInUse s b then (s, .finish (doneWith 0x07 0))
      else (s.modHif fun h => { h with bulk := h.bulk.filter fun x => x.offset != b.offset }, .finish (doneOk [])) := by
  simp only [doBulkFree, h, stBadState]

theorem doBulkFree_unknown (h : s.hif.bulk.find? (fun b => b.offset == e.desc.par 24 8) = none) :
    doBulkFree e s = (s, .finish (doneWith 0x08 0)) := by
  simp only [doBulkFree, h, stNotFound]

end

/-- Settles O7: the reads answer at once; a bulk buffer by where it fits, and by whether it is found and in use. -/
theorem hostReadsAndBulk : Obligations.HostReadsAndBulk := by
  intro q p s e o b
  refine ⟨fun h => next_served_finish h rfl, fun h => next_served_finish h rfl, fun h => next_served_finish h rfl, ?_,
    fun h hb => next_served_finish h (doBulkAlloc_placed hb), ?_, fun h hb => next_served_finish h (doBulkAlloc_full hb), ?_,
    fun h hb => next_served_finish h (doBulkFree_unknown hb)⟩
  · intro h hp
    have hfin : fin? 32 (e.desc.par 24 1) = some p := by simp [fin?, hp]
    exact next_served_finish h (by simp only [doRingStatus, hfin])
  · intro h hb hu
    exact next_served_finish h (by rw [doBulkFree_found hb, hu]; rfl)
  · intro h hb hu
    exact next_served_finish h (by rw [doBulkFree_found hb, hu]; rfl)

end Sys2Proof.Machine

/-! # BAR0 and the doorbell pages: what a register reads, and what a write changes (R9 to R14, R411, R434) -/

namespace Sys2Proof.Machine

section
variable {off : Nat} {w : W32} {s : State}

/-! ## Which rule a write falls under -/

/-- A write to a register without RWS and RWP fields. -/
theorem regWrite_rw (ha : off % 4 = 0) (hs : rwsOffsets.contains off = false) (hp : rwpOffsets.contains off = false) :
    exec (.registerWrite off .word w) s = .next (writeRw off w s) := by
  simp only [exec, execRegisterWrite, regWrite, hs, hp, ha, ne_eq, not_true_eq_false, if_false, Bool.false_eq_true]

/-- A write to an offset that is not that of a register changes nothing. -/
theorem regWrite_misaligned (ha : off % 4 ≠ 0) : exec (.registerWrite off .word w) s = .next s := by
  simp only [exec, execRegisterWrite, regWrite, if_pos ha]

/-- An offset that no rule of R13 names holds nothing that a write can change. -/
theorem writeRw_reserved
    (h : [0x1020, 0x4018, 0x401C, 0x6004, 0x6008, 0x6010, 0x6014, 0x6018, 0x601C, 0x8000, 0x8008, 0x80000, 0x80018].contains off = false)
    (hw : ¬ (0x7040 ≤ off ∧ off < 0x7060)) (hq : ¬ (0x8400 ≤ off ∧ off < 0x8C00)) (hm : ¬ (0xA000 ≤ off ∧ off < 0xA400))
    (hc : ¬ (0x40100 ≤ off ∧ off < 0x40180)) : writeRw off w s = s := by
  simp only [List.contains_eq_mem, List.mem_cons, List.not_mem_nil, or_false, decide_eq_false_iff_not, not_or] at h
  simp only [writeRw, h, hw, hq, hm, hc, if_false]

/-- The offsets of the fault registers of the watchdog. -/
theorem faultOff_plain : ∀ i : Fin 8, (0x7040 + 4 * i.val) % 4 = 0 ∧ rwsOffsets.contains (0x7040 + 4 * i.val) = false ∧
    rwpOffsets.contains (0x7040 + 4 * i.val) = false := by decide

/-- A write to a fault register of the watchdog clears its bits that are written as 1 (R13). -/
theorem writeRw_fault (i : Fin 8) :
    writeRw (0x7040 + 4 * i.val) w s = s.modWdg fun x => { x with faults := vmod x.faults i fun v => v &&& ~~~ w } := by
  have hi := i.isLt
  have hin : 0x7040 ≤ 0x7040 + 4 * i.val ∧ 0x7040 + 4 * i.val < 0x7060 := by omega
  have hidx : (finOr ((0x7040 + 4 * i.val - 0x7040) / 4) : Fin 8) = i := by
    simp only [finOr, Nat.add_sub_cancel_left, Nat.mul_div_cancel_left _ (show 0 < 4 by decide), dif_pos hi]
  have hne : ∀ k < 0x7040, ¬ 0x7040 + 4 * i.val = k := fun k hk => by omega
  simp only [writeRw, hne, hin, hidx, if_false, and_self, if_true, Nat.reduceLT]

end

/-- Settles O11: each named register by the rule that its offset falls under; other widths and other offsets change nothing. -/
theorem registerWrites : Obligations.RegisterWrites := by
  refine ⟨fun w s => ⟨?_, ?_, ?_, ?_, ?_, ?_, ?_⟩, fun off w s => ⟨rfl, rfl⟩, ?_⟩
  · intro h1 h2
    have hin : outRange 1 100 (bitsOf w 0 8) = false := by simp [outRange, bitsOf]; omega
    rw [regWrite_rw (by decide) (by decide) (by decide)]
    simp [writeRw, hin]
  · intro h
    have hout : outRange 1 100 (bitsOf w 0 8) = true := by simp [outRange, bitsOf]; omega
    rw [regWrite_rw (by decide) (by decide) (by decide)]
    simp [writeRw, hout]
  · exact regWrite_rw (by decide) (by decide) (by decide)
  · exact regWrite_rw (by decide) (by decide) (by decide)
  · exact regWrite_rw (by decide) (by decide) (by decide)
  · exact regWrite_rw (by decide) (by decide) (by decide)
  · intro i
    obtain ⟨ha, hs, hp⟩ := faultOff_plain i
    refine ⟨_, (regWrite_rw ha hs hp).trans (congrArg _ (writeRw_fault i)), vmod_get_same .., fun j hj => vmod_get_other _ _ hj.symm, rfl⟩
  · intro off w s hs hp h hw hq hm hc
    by_cases ha : off % 4 = 0
    · rw [regWrite_rw ha hs hp, writeRw_reserved h hw hq hm hc]
    · exact regWrite_misaligned ha

/-! ## Association lists -/

theorem assoc?_assocSet {κ α : Type} [DecidableEq κ] (k k' : κ) (v : α) (l : List (κ × α)) :
    assoc? k' (assocSet k v l) = if k = k' then some v else assoc? k' l := by
  induction l with
  | nil => simp [assocSet, assoc?]
  | cons x l ih =>
    obtain ⟨a, b⟩ := x
    by_cases ha : a = k
    · subst ha
      by_cases hk : a = k' <;> simp [assocSet, assoc?, hk]
    · by_cases hk : a = k'
      · subst hk
        simp [assocSet, assoc?, ha, Ne.symm ha]
      · simp [assocSet, assoc?, ha, hk, ih]

theorem assoc?_filter {κ α : Type} [DecidableEq κ] (k k' : κ) (l : List (κ × α)) :
    assoc? k' (l.filter fun x => x.1 != k) = if k = k' then none else assoc? k' l := by
  induction l with
  | nil => simp [assoc?]
  | cons x l ih =>
    obtain ⟨a, b⟩ := x
    by_cases ha : a = k
    · subst ha
      by_cases hk : a = k' <;> simp_all [assoc?]
    · by_cases hk : a = k'
      · subst hk
        simp [assoc?, ha, Ne.symm ha]
      · simp [assoc?, ha, hk, ih]

/-! ## Frames -/

/-- A cell changes only the link's own state and what has left the module. -/
theorem pairSend_frame (m : NarrowsMsg) (s : State) : ∃ p o, pairSend m s = { s with pair := p, out := o } := by
  unfold pairSend pairSendFor
  split
  · exact ⟨_, _, rfl⟩
  · exact ⟨_, _, rfl⟩

/-- Mirroring changes no more. -/
theorem mirror_frame (i : MirrorItem) (s : State) : ∃ p o, mirror i s = { s with pair := p, out := o } := by
  unfold mirror
  split
  · exact pairSend_frame ..
  · exact ⟨_, _, rfl⟩

/-- A module that mirrors nothing sends nothing. -/
theorem mirror_alone {i : MirrorItem} {s : State} (h : mirrors s = false) : mirror i s = s := by
  simp [mirror, h]

/-- A staged RWS word leaves the values in force and the shadows (R13). -/
theorem writeRws_frame (off : Nat) (w : W32) (s : State) :
    (writeRws off w s).rws = s.rws ∧ (writeRws off w s).bar = s.bar := by
  have hstage : (stageRws off w s).rws = s.rws ∧ (stageRws off w s).bar = s.bar := by
    obtain ⟨_, _, _, _, _, _, h1⟩ := event_frame 0x040B (det [(4, off), (1, 1)]) s
    obtain ⟨_, _, _, _, _, _, h2⟩ := event_frame 0x040B (det [(4, off), (1, 2)]) s
    obtain ⟨_, _, h3⟩ := mirror_frame (.txnRws off w) (setStaged s.txn.objs (s.txn.rws ++ [(off, w)]) s)
    unfold stageRws
    split
    · exact ⟨rfl, rfl⟩
    · rw [h1]; exact ⟨rfl, rfl⟩
    · rw [h1]; exact ⟨rfl, rfl⟩
    · split
      · rw [h2]; exact ⟨rfl, rfl⟩
      · rw [h3]; exact ⟨rfl, rfl⟩
  unfold writeRws
  split
  · exact ⟨rfl, rfl⟩
  · exact hstage

/-! ## Words with a mask -/

theorem masked_and (w x m : W32) : ((w &&& m) ||| (x &&& ~~~ m)) &&& m = w &&& m := by
  ext i hi
  simp only [BitVec.getElem_and, BitVec.getElem_or, BitVec.getElem_not]
  cases m[i] <;> simp

theorem masked_and_not (w x m : W32) : ((w &&& m) ||| (x &&& ~~~ m)) &&& ~~~ m = x &&& ~~~ m := by
  ext i hi
  simp only [BitVec.getElem_and, BitVec.getElem_or, BitVec.getElem_not]
  cases m[i] <;> simp

/-- Two small numbers that differ index different elements. -/
theorem finOr_ne {n a b : Nat} (ha : a < n + 1) (hb : b < n + 1) (h : a ≠ b) : (finOr a : Fin (n + 1)) ≠ finOr b := by
  simp only [finOr, dif_pos ha, dif_pos hb, ne_eq, Fin.mk.injEq]
  exact h

/-! ## RWS registers -/

/-- The offsets of the registers with RWS fields that stand alone. -/
def rwsSingles : List Nat := [0x400C, 0x4024, 0x4028, 0x402C, 0x10004, 0x20000, 0x20004, 0x50000, 0x80004]

/-- The offset of a task enable of the watchdog. -/
def isTaskEn (off : Nat) : Prop := 0x7020 ≤ off ∧ off < 0x7040 ∧ off % 4 = 0

/-- The offset of register `k` of a metering point. -/
def isPointReg (k off : Nat) : Prop := 0x51000 ≤ off ∧ off < 0x51800 ∧ off % 256 = k

/-- Where the registers with RWS fields lie. -/
theorem rwsOffsets_place {off : Nat} (h : off ∈ rwsOffsets) :
    off ∈ rwsSingles ∨ isTaskEn off ∨ isPointReg 0 off ∨ isPointReg 4 off ∨ isPointReg 8 off := by
  have hall : ∀ x ∈ rwsOffsets, x ∈ rwsSingles ∨ (0x7020 ≤ x ∧ x < 0x7040 ∧ x % 4 = 0) ∨
      (0x51000 ≤ x ∧ x < 0x51800 ∧ x % 256 = 0) ∨ (0x51000 ≤ x ∧ x < 0x51800 ∧ x % 256 = 4) ∨
      (0x51000 ≤ x ∧ x < 0x51800 ∧ x % 256 = 8) := by decide
  exact hall off h

/-- A word of a write and the bits that it leaves. -/
def rwsMerge (r : Rws) (off : Nat) (w : W32) : W32 := (w &&& rwsMask off) ||| (rwsWord r off &&& ~~~ rwsMask off)

section
variable {off o : Nat} (r : Rws) (w : W32)

theorem not_single_of_task (h : isTaskEn off) : off < 0x10000 ∧ ¬ off = 0x400C ∧ ¬ off = 0x4024 ∧ ¬ off = 0x4028 ∧ ¬ off = 0x402C ∧
    ¬ off = 0x10004 ∧ ¬ off = 0x20000 ∧ ¬ off = 0x20004 ∧ ¬ off = 0x50000 ∧ ¬ off = 0x80004 := by
  unfold isTaskEn at h
  omega

theorem not_single_of_point {k : Nat} (h : isPointReg k off) : ¬ off < 0x10000 ∧ ¬ off = 0x400C ∧ ¬ off = 0x4024 ∧ ¬ off = 0x4028 ∧
    ¬ off = 0x402C ∧ ¬ off = 0x10004 ∧ ¬ off = 0x20000 ∧ ¬ off = 0x20004 ∧ ¬ off = 0x50000 ∧ ¬ off = 0x80004 := by
  unfold isPointReg at h
  omega

theorem rwsWord_task (h : isTaskEn off) : rwsWord r off = r.wdgTaskEn.get (finOr ((off - 0x7020) / 4)) := by
  simp only [rwsWord, not_single_of_task h, if_true, if_false]

theorem rwsWord_cfg (h : isPointReg 0 off) : rwsWord r off = r.mtrCfg.get (finOr ((off - 0x51000) / 256)) := by
  simp only [rwsWord, not_single_of_point h, h.2.2, if_true, if_false]

theorem rwsWord_scale (h : isPointReg 4 off) : rwsWord r off = r.mtrScale.get (finOr ((off - 0x51000) / 256)) := by
  simp only [rwsWord, not_single_of_point h, h.2.2, if_true, if_false, OfNat.ofNat_ne_zero]

theorem rwsWord_limit (h : isPointReg 8 off) : rwsWord r off = r.mtrLimit.get (finOr ((off - 0x51000) / 256)) := by
  simp only [rwsWord, not_single_of_point h, h.2.2, if_false, OfNat.ofNat_ne_zero, Nat.reduceEqDiff]

theorem rwsPut_task (h : isTaskEn off) :
    rwsPut r off w = { r with wdgTaskEn := vmod r.wdgTaskEn (finOr ((off - 0x7020) / 4)) fun _ => rwsMerge r off w } := by
  simp only [rwsPut, not_single_of_task h, if_true, if_false, rwsMerge]

theorem rwsPut_cfg (h : isPointReg 0 off) :
    rwsPut r off w = { r with mtrCfg := vmod r.mtrCfg (finOr ((off - 0x51000) / 256)) fun _ => rwsMerge r off w } := by
  simp only [rwsPut, not_single_of_point h, h.2.2, if_true, if_false, rwsMerge]

theorem rwsPut_scale (h : isPointReg 4 off) :
    rwsPut r off w = { r with mtrScale := vmod r.mtrScale (finOr ((off - 0x51000) / 256)) fun _ => rwsMerge r off w } := by
  simp only [rwsPut, not_single_of_point h, h.2.2, if_true, if_false, rwsMerge, OfNat.ofNat_ne_zero]

theorem rwsPut_limit (h : isPointReg 8 off) :
    rwsPut r off w = { r with mtrLimit := vmod r.mtrLimit (finOr ((off - 0x51000) / 256)) fun _ => rwsMerge r off w } := by
  simp only [rwsPut, not_single_of_point h, h.2.2, if_false, rwsMerge, OfNat.ofNat_ne_zero, Nat.reduceEqDiff]

/-- Two task enables, or two registers of one kind, at different offsets are different elements. -/
theorem taskEn_ne (h : isTaskEn off) (ho : isTaskEn o) (hne : o ≠ off) :
    (finOr ((off - 0x7020) / 4) : Fin 8) ≠ finOr ((o - 0x7020) / 4) := by
  unfold isTaskEn at h ho
  exact finOr_ne (by omega) (by omega) (by omega)

theorem pointReg_ne {k : Nat} (h : isPointReg k off) (ho : isPointReg k o) (hne : o ≠ off) :
    (finOr ((off - 0x51000) / 256) : Fin 8) ≠ finOr ((o - 0x51000) / 256) := by
  unfold isPointReg at h ho
  exact finOr_ne (by omega) (by omega) (by omega)

/-- The written register reads the fields written, and its other bits as before. -/
theorem rwsWord_rwsPut_same (h : off ∈ rwsOffsets) : rwsWord (rwsPut r off w) off = rwsMerge r off w := by
  rcases rwsOffsets_place h with hs | ht | hc | hc | hl
  · simp only [rwsSingles, List.mem_cons, List.not_mem_nil, or_false] at hs
    rcases hs with rfl | rfl | rfl | rfl | rfl | rfl | rfl | rfl | rfl <;> rfl
  · rw [rwsPut_task r w ht, rwsWord_task _ ht, vmod_get_same]
  · rw [rwsPut_cfg r w hc, rwsWord_cfg _ hc, vmod_get_same]
  · rw [rwsPut_scale r w hc, rwsWord_scale _ hc, vmod_get_same]
  · rw [rwsPut_limit r w hl, rwsWord_limit _ hl, vmod_get_same]

/-- What is read at an offset comes from the vector of its kind alone. -/
theorem rwsWord_withVectors (ho : o ∈ rwsOffsets) (t c x l : Vector W32 8)
    (ht : isTaskEn o → t.get (finOr ((o - 0x7020) / 4)) = r.wdgTaskEn.get (finOr ((o - 0x7020) / 4)))
    (hc : isPointReg 0 o → c.get (finOr ((o - 0x51000) / 256)) = r.mtrCfg.get (finOr ((o - 0x51000) / 256)))
    (hx : isPointReg 4 o → x.get (finOr ((o - 0x51000) / 256)) = r.mtrScale.get (finOr ((o - 0x51000) / 256)))
    (hl : isPointReg 8 o → l.get (finOr ((o - 0x51000) / 256)) = r.mtrLimit.get (finOr ((o - 0x51000) / 256))) :
    rwsWord { r with wdgTaskEn := t, mtrCfg := c, mtrScale := x, mtrLimit := l } o = rwsWord r o := by
  rcases rwsOffsets_place ho with hs | hk | hk | hk | hk
  · simp only [rwsSingles, List.mem_cons, List.not_mem_nil, or_false] at hs
    rcases hs with rfl | rfl | rfl | rfl | rfl | rfl | rfl | rfl | rfl <;> rfl
  · rw [rwsWord_task _ hk, rwsWord_task _ hk, ht hk]
  · rw [rwsWord_cfg _ hk, rwsWord_cfg _ hk, hc hk]
  · rw [rwsWord_scale _ hk, rwsWord_scale _ hk, hx hk]
  · rw [rwsWord_limit _ hk, rwsWord_limit _ hk, hl hk]

/-- The other registers read as before. -/
theorem rwsWord_rwsPut_other (h : off ∈ rwsOffsets) (ho : o ∈ rwsOffsets) (hne : o ≠ off) :
    rwsWord (rwsPut r off w) o = rwsWord r o := by
  rcases rwsOffsets_place h with hs | ht | hc | hc | hl
  · simp only [rwsSingles, List.mem_cons, List.not_mem_nil, or_false] at hs
    rcases hs with rfl | rfl | rfl | rfl | rfl | rfl | rfl | rfl | rfl <;>
      simp only [rwsPut, rwsWord, hne, if_true, if_false, Nat.reduceEqDiff]
  · rw [rwsPut_task r w ht]
    exact rwsWord_withVectors r ho _ _ _ _ (fun hk => vmod_get_other _ _ (taskEn_ne ht hk hne)) (fun _ => rfl) (fun _ => rfl) fun _ => rfl
  · rw [rwsPut_cfg r w hc]
    exact rwsWord_withVectors r ho _ _ _ _ (fun _ => rfl) (fun hk => vmod_get_other _ _ (pointReg_ne hc hk hne)) (fun _ => rfl) fun _ => rfl
  · rw [rwsPut_scale r w hc]
    exact rwsWord_withVectors r ho _ _ _ _ (fun _ => rfl) (fun _ => rfl) (fun hk => vmod_get_other _ _ (pointReg_ne hc hk hne)) fun _ => rfl
  · rw [rwsPut_limit r w hl]
    exact rwsWord_withVectors r ho _ _ _ _ (fun _ => rfl) (fun _ => rfl) (fun _ => rfl) fun hk => vmod_get_other _ _ (pointReg_ne hl hk hne)

end

/-! ## RWP registers -/

/-- The offsets of the registers with RWP fields that stand alone. -/
def rwpSingles : List Nat := [0x1040, 0x4020, 0x600C, 0x6020, 0x7000, 0x30004, 0x9000C]

/-- Where the registers with RWP fields lie. -/
theorem rwpOffsets_place {off : Nat} (h : off ∈ rwpOffsets) :
    off ∈ rwpSingles ∨ isPointReg 0x0C off ∨ isPointReg 0x10 off ∨ isPointReg 0x14 off := by
  have hall : ∀ x ∈ rwpOffsets, x ∈ rwpSingles ∨ (0x51000 ≤ x ∧ x < 0x51800 ∧ x % 256 = 0x0C) ∨
      (0x51000 ≤ x ∧ x < 0x51800 ∧ x % 256 = 0x10) ∨ (0x51000 ≤ x ∧ x < 0x51800 ∧ x % 256 = 0x14) := by decide
  exact hall off h

/-- A register with RWP fields is aligned and holds no RWS field. -/
theorem rwpOffsets_plain : ∀ off ∈ rwpOffsets, off % 4 = 0 ∧ rwsOffsets.contains off = false := by decide

/-- A word of a write and the bits that it leaves. -/
def rwpMerge (off : Nat) (w : W32) (r : Rwp) : W32 := (w &&& rwpMask off) ||| (rwpWord r off &&& ~~~ rwpMask off)

section
variable {off o : Nat} (r : Rwp) (w : W32)

theorem not_rwpSingle_of_point {k : Nat} (h : isPointReg k off) : ¬ off = 0x1040 ∧ ¬ off = 0x4020 ∧ ¬ off = 0x600C ∧ ¬ off = 0x6020 ∧
    ¬ off = 0x7000 ∧ ¬ off = 0x30004 ∧ ¬ off = 0x9000C := by
  unfold isPointReg at h
  omega

theorem rwpWord_calV (h : isPointReg 0x0C off) : rwpWord r off = r.mtrCalV.get (rwpPoint off) := by
  simp only [rwpWord, not_rwpSingle_of_point h, h.2.2, if_true, if_false]

theorem rwpWord_calI (h : isPointReg 0x10 off) : rwpWord r off = r.mtrCalI.get (rwpPoint off) := by
  simp only [rwpWord, not_rwpSingle_of_point h, h.2.2, if_true, if_false, Nat.reduceEqDiff]

theorem rwpWord_phase (h : isPointReg 0x14 off) : rwpWord r off = r.mtrPhase.get (rwpPoint off) := by
  simp only [rwpWord, not_rwpSingle_of_point h, h.2.2, if_false, Nat.reduceEqDiff]

theorem rwpPut_calV (h : isPointReg 0x0C off) :
    rwpPut off w r = { r with mtrCalV := vmod r.mtrCalV (rwpPoint off) fun _ => rwpMerge off w r } := by
  simp only [rwpPut, not_rwpSingle_of_point h, h.2.2, if_true, if_false, rwpMerge]

theorem rwpPut_calI (h : isPointReg 0x10 off) :
    rwpPut off w r = { r with mtrCalI := vmod r.mtrCalI (rwpPoint off) fun _ => rwpMerge off w r } := by
  simp only [rwpPut, not_rwpSingle_of_point h, h.2.2, if_true, if_false, rwpMerge, Nat.reduceEqDiff]

theorem rwpPut_phase (h : isPointReg 0x14 off) :
    rwpPut off w r = { r with mtrPhase := vmod r.mtrPhase (rwpPoint off) fun _ => rwpMerge off w r } := by
  simp only [rwpPut, not_rwpSingle_of_point h, h.2.2, if_false, rwpMerge, Nat.reduceEqDiff]

/-- The written register reads the fields written, and its other bits as before. -/
theorem rwpWord_rwpPut_same (h : off ∈ rwpOffsets) : rwpWord (rwpPut off w r) off = rwpMerge off w r := by
  rcases rwpOffsets_place h with hs | hv | hi | hp
  · simp only [rwpSingles, List.mem_cons, List.not_mem_nil, or_false] at hs
    rcases hs with rfl | rfl | rfl | rfl | rfl | rfl | rfl <;> rfl
  · rw [rwpPut_calV r w hv, rwpWord_calV _ hv, vmod_get_same]
  · rw [rwpPut_calI r w hi, rwpWord_calI _ hi, vmod_get_same]
  · rw [rwpPut_phase r w hp, rwpWord_phase _ hp, vmod_get_same]

/-- What is read at an offset comes from the vector of its kind alone, whether or not a value has changed. -/
theorem rwpWord_withVectors (ho : o ∈ rwpOffsets) (v i p : Vector W32 8)
    (hv : isPointReg 0x0C o → v.get (rwpPoint o) = r.mtrCalV.get (rwpPoint o))
    (hi : isPointReg 0x10 o → i.get (rwpPoint o) = r.mtrCalI.get (rwpPoint o))
    (hp : isPointReg 0x14 o → p.get (rwpPoint o) = r.mtrPhase.get (rwpPoint o)) :
    rwpWord { r with mtrCalV := v, mtrCalI := i, mtrPhase := p } o = rwpWord r o := by
  rcases rwpOffsets_place ho with hs | hk | hk | hk
  · simp only [rwpSingles, List.mem_cons, List.not_mem_nil, or_false] at hs
    rcases hs with rfl | rfl | rfl | rfl | rfl | rfl | rfl <;> rfl
  · rw [rwpWord_calV _ hk, rwpWord_calV _ hk, hv hk]
  · rw [rwpWord_calI _ hk, rwpWord_calI _ hk, hi hk]
  · rw [rwpWord_phase _ hk, rwpWord_phase _ hk, hp hk]

/-- The other registers read as before. -/
theorem rwpWord_rwpPut_other (h : off ∈ rwpOffsets) (ho : o ∈ rwpOffsets) (hne : o ≠ off) :
    rwpWord (rwpPut off w r) o = rwpWord r o := by
  have hidx : ∀ {k}, isPointReg k off → isPointReg k o → rwpPoint off ≠ rwpPoint o := fun h ho => pointReg_ne h ho hne
  rcases rwpOffsets_place h with hs | hv | hi | hp
  · simp only [rwpSingles, List.mem_cons, List.not_mem_nil, or_false] at hs
    rcases hs with rfl | rfl | rfl | rfl | rfl | rfl | rfl <;>
      simp only [rwpPut, rwpWord, hne, if_true, if_false, Nat.reduceEqDiff]
  · rw [rwpPut_calV r w hv]
    exact rwpWord_withVectors r ho _ _ _ (fun hk => vmod_get_other _ _ (hidx hv hk)) (fun _ => rfl) fun _ => rfl
  · rw [rwpPut_calI r w hi]
    exact rwpWord_withVectors r ho _ _ _ (fun _ => rfl) (fun hk => vmod_get_other _ _ (hidx hi hk)) fun _ => rfl
  · rw [rwpPut_phase r w hp]
    exact rwpWord_withVectors r ho _ _ _ (fun _ => rfl) (fun _ => rfl) fun hk => vmod_get_other _ _ (hidx hp hk)

end

section
variable {off : Nat} {s : State}

/-- Outside a pair a register with RWP fields that follow no rule of their own takes the word at once (R13). -/
theorem writeRwpReg_plain (w : W32) (hp : pairMember s = false) (hb : s.pst.rwpBad = false) (h7 : off ≠ 0x7000) (h3 : off ≠ 0x30004) :
    writeRwpReg off w s = rwpSet (rwpPut off w) s := by
  have ha : hasAuthority s = true := by simp [hasAuthority, hp]
  have hr : rwpRange s off w = (w, false) := by simp [rwpRange, h7, h3]
  simp only [writeRwpReg, ha, hb, hr, h7, h3, Bool.not_true, Bool.and_false, Bool.false_eq_true, if_false]
  split
  next hsh =>
    have h4 : off = 0x1040 ∨ off = 0x4020 := by simpa [sharedRegs, h3] using hsh
    have hm : mirrors (rwpSet (rwpPut off w) s) = false := by
      have hpc : (rwpPut off w s.rwp).pairCfg = s.rwp.pairCfg := by rcases h4 with rfl | rfl <;> rfl
      simpa [mirrors, pairMember, rwpSet, State.modRwp, hpc] using fun h => absurd hp (by simp [pairMember, h])
    exact mirror_alone hm
  next => rfl

/-- A write to a register with RWP fields other than RTC_CTRL. -/
theorem regWrite_rwp (w : W32) (h : off ∈ rwpOffsets) (h6 : off ≠ 0x600C) :
    exec (.registerWrite off .word w) s = .next (writeRwpReg off w s) := by
  obtain ⟨ha, hs⟩ := rwpOffsets_plain off h
  have hc : rwpOffsets.contains off = true := by simpa using h
  simp only [exec, execRegisterWrite, regWrite, ha, hs, hc, h6, ne_eq, not_true_eq_false, if_false, if_true, Bool.false_eq_true]

/-- The present value of a register with RWS fields. -/
theorem liveWord_rws (h : off ∈ rwsOffsets) {t : State} (ht : t.rws = s.rws) : liveWord t off = liveWord s off := by
  have hc : rwsOffsets.contains off = true := by simpa using h
  simp only [liveWord, hc, ht, if_true]

/-- The present value of a register with RWP fields, but for RTC_CTRL and WDG_CFG. -/
theorem liveWord_rwp (h : off ∈ rwpOffsets) (h6 : off ≠ 0x600C) (h7 : off ≠ 0x7000) : liveWord s off = rwpWord s.rwp off &&& rwpMask off := by
  obtain ⟨ha, hs⟩ := rwpOffsets_plain off h
  have hc : rwpOffsets.contains off = true := by simpa using h
  simp only [liveWord, rwpSeen, ha, hs, hc, h6, h7, ne_eq, not_true_eq_false, if_false, if_true, Bool.false_eq_true, false_and]
  exact (BitVec.or_zero ..).trans (BitVec.or_zero ..)

/-- No block reads the shadows and held words. -/
theorem blocks_modBar (f : Bar → Bar) (s : State) :
    glbWord (s.modBar f) = glbWord s ∧ sysWord (s.modBar f) = sysWord s ∧ fuseWord (s.modBar f) = fuseWord s ∧
    timWord (s.modBar f) = timWord s ∧ rtcWord (s.modBar f) = rtcWord s ∧ wdgWord (s.modBar f) = wdgWord s ∧
    hifWord (s.modBar f) = hifWord s ∧ cfgWord (s.modBar f) = cfgWord s ∧ votWord (s.modBar f) = votWord s ∧
    laneWord (s.modBar f) = laneWord s ∧ netWord (s.modBar f) = netWord s ∧ pairWord (s.modBar f) = pairWord s ∧
    fioWord (s.modBar f) = fioWord s ∧ mtrWord (s.modBar f) = mtrWord s ∧ pstWord (s.modBar f) = pstWord s ∧
    evrWord (s.modBar f) = evrWord s ∧ cmtWord (s.modBar f) = cmtWord s ∧ fwuWord (s.modBar f) = fwuWord s :=
  ⟨rfl, rfl, rfl, rfl, rfl, rfl, rfl, rfl, rfl, rfl, rfl, rfl, rfl, rfl, rfl, rfl, rfl, rfl⟩

/-- The shadows do not change what a register's present value is. -/
theorem liveWord_modBar (f : Bar → Bar) (s : State) (off : Nat) : liveWord (s.modBar f) off = liveWord s off := by
  have hb : blockWord (s.modBar f) off = blockWord s off := by simp only [blockWord, blocks_modBar]
  have hp : rwpSeen (s.modBar f) off = rwpSeen s off := rfl
  have hr : (s.modBar f).rws = s.rws := rfl
  have hh : (s.modBar f).rtc = s.rtc := rfl
  simp only [liveWord, hb, hp, hr, hh]

/-! ## The pair that holds a ring base -/

/-- The offsets of the ring bases of submission queues. -/
theorem sqBase_plain : ∀ q : Fin 32, (0x8404 + 64 * q.val) % 4 = 0 ∧ rwsOffsets.contains (0x8404 + 64 * q.val) = false ∧
    rwpOffsets.contains (0x8404 + 64 * q.val) = false := by decide

theorem baseRing_sqBase (q : RingId) {k : Nat} (hk : k < 64) : baseRing (0x8400 + 64 * q.val + k) = q := by
  have hq := q.isLt
  have hidx : (0x8400 + 64 * q.val + k - 0x8400) / 64 = q.val := by omega
  simp only [baseRing, hidx, finOr, dif_pos hq]

/-- A ring base may be written while the ring pair is disabled (R411). -/
theorem pairWritable_sqBase (q : RingId) {k : Nat} (hk : k = 0 ∨ k = 4) (s : State) :
    pairWritable s (0x8400 + 64 * q.val + k) = !(ringPair s q).enable := by
  have hq := q.isLt
  have h1 : ¬ (0x8400 + 64 * q.val + k = 0x4018 ∨ 0x8400 + 64 * q.val + k = 0x401C ∨ 0x8400 + 64 * q.val + k = 0x6004) := by omega
  have h2 : ¬ (0x8400 + 64 * q.val + k = 0x6014 ∨ 0x8400 + 64 * q.val + k = 0x6018) := by omega
  have hb : (isBase (0x8400 + 64 * q.val + k) 0 || isBase (0x8400 + 64 * q.val + k) 4) = true := by simp [isBase]; omega
  simp only [pairWritable, if_neg h1, if_neg h2, hb, baseRing_sqBase q (show k < 64 by omega), Bool.true_or, Bool.true_and]

/-- The lower word of a ring base is held while the ring pair is disabled (R12, R411). -/
theorem holdWrite_sqBase (q : RingId) (lo : W32) (s : State) :
    holdWrite (0x8400 + 64 * q.val) lo s =
      if (ringPair s q).enable then s else s.modBar fun b => { b with held := assocSet (0x8400 + 64 * q.val) lo b.held } := by
  have hq := q.isLt
  have hh : holds (0x8400 + 64 * q.val) = true := by simp [holds, isBase]; omega
  have hw := pairWritable_sqBase q (Or.inl rfl) s
  rw [Nat.add_zero] at hw
  simp only [holdWrite, hh, hw, Bool.true_and]
  cases (ringPair s q).enable <;> rfl

/-- The higher word of a ring base is written with the lower one that is held (R12). -/
theorem regWrite_sqBase (q : RingId) (hi : W32) (s : State) :
    exec (.registerWrite (0x8400 + 64 * q.val + 4) .word hi) s = .next (writeBase (0x8400 + 64 * q.val + 4) hi s) := by
  have hq := q.isLt
  obtain ⟨ha, hs, hp⟩ := sqBase_plain q
  have hoff : 0x8400 + 64 * q.val + 4 = 0x8404 + 64 * q.val := by omega
  rw [← hoff] at ha hs hp
  have hlow : ∀ k < 0x8400, ¬ 0x8400 + 64 * q.val + 4 = k := fun k hk => by omega
  have hrange : 0x8400 ≤ 0x8400 + 64 * q.val + 4 ∧ 0x8400 + 64 * q.val + 4 < 0x8C00 := by omega
  have hflt : ¬ (0x7040 ≤ 0x8400 + 64 * q.val + 4 ∧ 0x8400 + 64 * q.val + 4 < 0x7060) := by omega
  have hk : (0x8400 + 64 * q.val + 4) % 64 = 4 := by omega
  rw [regWrite_rw ha hs hp]
  simp only [writeRw, hlow, hrange, hflt, writeRing, hk, if_false, if_true, and_self, Nat.reduceLT, Nat.reduceEqDiff, OfNat.ofNat_ne_zero,
    or_self, true_or]

/-- What the write of the higher word makes of the ring pairs. -/
theorem writeBase_sqBase (q : RingId) (hi : W32) (s : State) :
    writeBase (0x8400 + 64 * q.val + 4) hi s =
      let lo := (assoc? (0x8400 + 64 * q.val) s.bar.held).getD ((ringPair s q).sqBase.setWidth 32)
      let t := s.modBar fun b => { b with held := b.held.filter fun x => x.1 != 0x8400 + 64 * q.val }
      if (ringPair s q).enable then t else modRing q (fun r => { r with sqBase := hi ++ lo }) t := by
  have hq := q.isLt
  have hk : (0x8400 + 64 * q.val + 4) % 64 = 4 := by omega
  simp only [writeBase, takeHeld, baseRing_sqBase q (show 4 < 64 by decide), pairWritable_sqBase q (Or.inr rfl), hk, Nat.add_sub_cancel,
    BEq.rfl, if_true]
  cases (ringPair s q).enable <;> rfl

end

section
variable {off : Nat} {s : State}

/-! ## The doorbell pages -/

/-- The word of a register in the page of a ring pair. -/
theorem doorbellRead_page (q : RingId) {k : Nat} (ha : k % 4 = 0) (s : State) :
    doorbellRead s (0x1000 * q.val + k) 4 = (doorbellWord s (0x1000 * q.val + k)).toNat := by
  have h0 : (0x1000 * q.val + k) % 4 = 0 := by omega
  have h4 : (0x1000 * q.val + k) / 4 * 4 = 0x1000 * q.val + k := by omega
  have hlt := (doorbellWord s (0x1000 * q.val + k)).isLt
  simp only [doorbellRead, h0, h4, pow_zero, Nat.div_one]
  exact Nat.mod_eq_of_lt (by omega)

/-- The words of the four registers of a page, and of the rest of it. -/
theorem doorbellWord_page (q : RingId) {k : Nat} (hk : k < 0x1000) (s : State) :
    doorbellWord s (0x1000 * q.val + k) =
      if k = 0 then (ringPair s q).sqTail.setWidth 32
      else if k = 4 then (ringPair s q).cqHead.setWidth 32
      else if k = 8 then (ringPair s q).sqHead.setWidth 32
      else if k = 12 then BitVec.ofNat 32 (bit (ringPair s q).phase * 4096 + (ringPair s q).cqTail.toNat)
      else 0 := by
  have hp : fin? 32 ((0x1000 * q.val + k) / 0x1000) = some q := by
    have hd : (0x1000 * q.val + k) / 0x1000 = q.val := by omega
    simp [fin?, hd]
  have hm : (0x1000 * q.val + k) % 0x1000 = k := by omega
  simp only [doorbellWord, hp, hm]
  split <;> simp_all

/-- The registers of a page read as the ring pair holds them. -/
theorem doorbellRead_registers (q : RingId) (s : State) :
    doorbellRead s (0x1000 * q.val) 4 = (ringPair s q).sqTail.toNat ∧
    doorbellRead s (0x1000 * q.val + 4) 4 = (ringPair s q).cqHead.toNat ∧
    doorbellRead s (0x1000 * q.val + 8) 4 = (ringPair s q).sqHead.toNat ∧
    doorbellRead s (0x1000 * q.val + 12) 4 = bit (ringPair s q).phase * 4096 + (ringPair s q).cqTail.toNat := by
  have hb : bit (ringPair s q).phase ≤ 1 := by cases (ringPair s q).phase <;> decide
  have ht := (ringPair s q).cqTail.isLt
  refine ⟨?_, ?_, ?_, ?_⟩
  · rw [← Nat.add_zero (0x1000 * q.val), doorbellRead_page q rfl, doorbellWord_page q (by decide)]
    exact BitVec.toNat_setWidth_of_le (show 12 ≤ 32 by decide)
  · rw [doorbellRead_page q rfl, doorbellWord_page q (by decide)]
    exact BitVec.toNat_setWidth_of_le (show 12 ≤ 32 by decide)
  · rw [doorbellRead_page q rfl, doorbellWord_page q (by decide)]
    exact BitVec.toNat_setWidth_of_le (show 12 ≤ 32 by decide)
  · rw [doorbellRead_page q rfl, doorbellWord_page q (by decide)]
    exact (BitVec.toNat_ofNat ..).trans (Nat.mod_eq_of_lt (by omega))

/-- Outside the four registers of each page nothing reads and nothing can be written (R10). -/
theorem doorbell_reserved (h : 0x20000 ≤ off ∨ 16 ≤ off % 0x1000) :
    doorbellRead s off 4 = 0 ∧ ∀ w, doorbellWrite off .word w s = s := by
  have hword : doorbellWord s (off / 4 * 4) = 0 := by
    unfold doorbellWord
    split
    · rfl
    next q hq =>
      have hlt : off / 4 * 4 / 0x1000 < 32 := by
        by_contra hge
        simp [fin?, hge] at hq
      have h16 : 16 ≤ off / 4 * 4 % 0x1000 := by omega
      dsimp only
      split
      · omega
      · omega
      · omega
      · omega
      · rfl
  refine ⟨by simp only [doorbellRead, hword]; simp, fun w => ?_⟩
  unfold doorbellWrite
  split
  next q hw hq hk =>
    have hlt : off / 0x1000 < 32 := by
      by_contra hge
      simp [fin?, hge] at hq
    omega
  next q hw hq hk =>
    have hlt : off / 0x1000 < 32 := by
      by_contra hge
      simp [fin?, hge] at hq
    omega
  next => rfl

/-! ## RWS writes -/

/-- A staged RWS word is the last of the set (R434). -/
theorem writeRws_rws {w : W32} (ho : rwsOffsets.contains off = true) (hr : s.sys.run ≠ .safeTalk) (ha : hasAuthority s = true)
    (hp : s.txn.phase = .opened) (hf : stagedBytes s.txn.objs s.txn.rws + 8 ≤ 2097152) :
    (writeRws off w s).txn.rws = s.txn.rws ++ [(off, w)] := by
  rw [writeRws_staged ho hr ha, stageRws_fits (Or.inl hp) hf]
  obtain ⟨_, _, hm⟩ := mirror_frame (.txnRws off w) (setStaged s.txn.objs (s.txn.rws ++ [(off, w)]) s)
  rw [hm]
  rfl

end

section
variable {s : State}

/-! ## The two words of a ring base -/

theorem exec_pairWriteHold (off : Nat) (w : W32) (s : State) : exec (.pairWriteHold off w) s = .next (holdWrite off w s) := rfl

/-- Shadows and held words are no part of a ring pair. -/
theorem ringPair_modBar (f : Bar → Bar) (s : State) (p : RingId) : ringPair (s.modBar f) p = ringPair s p := rfl

/-- The words of a base of a disabled ring pair, the lower one first, take effect together (R12, R411). -/
theorem sqBase_written (q : RingId) (lo hi : W32) (he : (ringPair s q).enable = false) :
    ∃ t u, exec (.pairWriteHold (0x8400 + 64 * q.val) lo) s = .next t ∧
      exec (.registerWrite (0x8400 + 64 * q.val + 4) .word hi) t = .next u ∧ ringPair t q = ringPair s q ∧
      ringPair u q = { ringPair s q with sqBase := hi ++ lo } ∧ (∀ p : RingId, p ≠ q → ringPair u p = ringPair s p) ∧
      assoc? (0x8400 + 64 * q.val) u.bar.held = none := by
  have hh := holdWrite_sqBase q lo s
  simp only [he, Bool.false_eq_true, if_false] at hh
  generalize ht : (s.modBar fun b => { b with held := assocSet (0x8400 + 64 * q.val) lo b.held }) = t at hh
  have hsame : ∀ p, ringPair t p = ringPair s p := fun p => by rw [← ht, ringPair_modBar]
  have hlo : assoc? (0x8400 + 64 * q.val) t.bar.held = some lo := by
    rw [← ht]
    simp only [State.modBar, assoc?_assocSet, if_true]
  have hw := writeBase_sqBase q hi t
  simp only [hsame, he, Bool.false_eq_true, if_false, hlo, Option.getD_some] at hw
  refine ⟨t, _, (exec_pairWriteHold ..).trans (congrArg _ hh), (regWrite_sqBase q hi t).trans (congrArg _ hw), hsame q, ?_,
    fun p hp => ?_, ?_⟩
  · rw [ringPair_modRing, ringPair_modBar, hsame]
  · rw [ringPair_modRing_other _ _ hp.symm, ringPair_modBar, hsame]
  · simp only [modRing, State.modHif, State.modBar, assoc?_filter, if_true]

/-- An enabled ring pair keeps its bases (R411). -/
theorem sqBase_kept (q : RingId) (lo hi : W32) (he : (ringPair s q).enable = true) :
    exec (.pairWriteHold (0x8400 + 64 * q.val) lo) s = .next s ∧
      ∃ u, exec (.registerWrite (0x8400 + 64 * q.val + 4) .word hi) s = .next u ∧ ∀ p : RingId, ringPair u p = ringPair s p := by
  have hh := holdWrite_sqBase q lo s
  have hw := writeBase_sqBase q hi s
  simp only [he, if_true] at hh hw
  exact ⟨(exec_pairWriteHold ..).trans (congrArg _ hh), _, (regWrite_sqBase q hi s).trans (congrArg _ hw), fun p => ringPair_modBar _ s p⟩

end

/-- Settles O12: shadows and held words by the association lists, RWS and RWP values by where each register lies. -/
theorem registerValues : Obligations.RegisterValues := by
  refine ⟨fun off s => ⟨fun h => ?_, fun h => ?_⟩, fun q lo hi s => ⟨fun he => ?_, fun he => ?_⟩, fun off w s => ?_, fun r off w h => ?_,
    fun off w s h h6 h7 h3 hp hb hs => ?_, fun q s => ?_⟩
  · refine ⟨latchRead off s, rfl, ?_, fun o ho => ?_, ?_⟩ <;> simp only [latchRead, h, if_true]
    · simp only [regRead, State.modBar, assoc?_assocSet, if_true, Option.getD_some]
    · simp only [regRead, liveWord_modBar]
      simp only [State.modBar, assoc?_assocSet, if_neg (Ne.symm ho)]
    · rfl
  · refine ⟨latchRead off s, rfl, ?_, fun o ho => ?_, ?_⟩ <;> simp only [latchRead, h, Bool.false_eq_true, if_false]
    · simp only [regRead, liveWord_modBar]
      simp only [State.modBar, assoc?_filter, if_true, Option.getD_none]
    · simp only [regRead, liveWord_modBar]
      simp only [State.modBar, assoc?_filter, if_neg (Ne.symm ho)]
    · rfl
  · exact sqBase_written q lo hi he
  · exact sqBase_kept q lo hi he
  · obtain ⟨hr, hb⟩ := writeRws_frame off w s
    refine ⟨_, rfl, hr, fun o ho hs => ?_, writeRws_rws⟩
    rw [regRead, regRead, hb, hs, liveWord_rws (by simpa using ho) hr]
  · have hm : off ∈ rwsOffsets := by simpa using h
    rw [rwsWord_rwsPut_same r w hm]
    exact ⟨masked_and .., masked_and_not .., fun o ho hne => rwsWord_rwsPut_other r w hm (by simpa using ho) hne⟩
  · have hm : off ∈ rwpOffsets := by simpa using h
    have ht : exec (.registerWrite off .word w) s = .next (rwpSet (rwpPut off w) s) :=
      (regWrite_rwp w hm h6).trans (congrArg _ (writeRwpReg_plain w hp hb h7 h3))
    have hword : ∀ o ∈ rwpOffsets, rwpWord (rwpSet (rwpPut off w) s).rwp o = rwpWord (rwpPut off w s.rwp) o := fun o ho =>
      rwpWord_withVectors _ ho _ _ _ (fun _ => rfl) (fun _ => rfl) fun _ => rfl
    refine ⟨_, ht, ?_, rfl, rfl, fun o ho hne => ?_⟩
    · have hshadow : assoc? off (rwpSet (rwpPut off w) s).bar.shadow = none := hs
      rw [regRead, hshadow, Option.getD_none, liveWord_rwp hm h6 h7, hword off hm, rwpWord_rwpPut_same _ w hm]
      exact masked_and ..
    · have ho : o ∈ rwpOffsets := by simpa using ho
      rw [hword o ho, rwpWord_rwpPut_other _ w hm ho hne]
  · obtain ⟨h0, h4, h8, h12⟩ := doorbellRead_registers q s
    exact ⟨h0, h4, h8, h12, fun off h => doorbell_reserved h⟩

end Sys2Proof.Machine

/-! # The persistent store and byte memories (R430, R508 to R532, R535) -/

namespace Sys2Proof.Machine

/-! ## Pages -/

/-- An event leaves the store. -/
@[simp] theorem event_pst (c : Nat) (d : W64) (s : State) : (event c d s).pst = s.pst := by
  obtain ⟨_, _, _, _, _, _, h⟩ := event_frame c d s
  rw [h]

/-- An event leaves the RWP values. -/
@[simp] theorem event_rwp (c : Nat) (d : W64) (s : State) : (event c d s).rwp = s.rwp := by
  obtain ⟨_, _, _, _, _, _, h⟩ := event_frame c d s
  rw [h]

section
variable {n m fails : Nat} {body : List Byte} {s t : State}

@[simp] theorem pstPage_num (s : State) (n : Nat) : (pstPage s n).num = n := by
  simp only [pstPage]
  cases h : s.pst.pages.find? fun p => p.num == n with
  | none => rfl
  | some p => simpa using List.find?_some h

/-- The page that was put is found. -/
theorem find?_putPage_same (p : PstPage) (l : List PstPage) : (putPage p l).find? (fun x => x.num == p.num) = some p := by
  induction l with
  | nil => simp [putPage]
  | cons x l ih =>
    by_cases h : x.num = p.num
    · simp [putPage, h]
    · simp [putPage, h, ih]

/-- Another page is found as before. -/
theorem find?_putPage_other {p : PstPage} (h : m ≠ p.num) (l : List PstPage) :
    (putPage p l).find? (fun x => x.num == m) = l.find? fun x => x.num == m := by
  induction l with
  | nil => simp [putPage, h.symm]
  | cons x l ih =>
    by_cases hx : x.num = p.num
    · simp [putPage, hx, h.symm]
    · by_cases hm : x.num = m
      · subst hm
        simp [putPage, hx]
      · simp [putPage, hx, hm, ih]

/-- What a page reads as depends on the page and on the journal alone. -/
theorem copyReadable_congr (h : t.pst.journal = s.pst.journal) (c : PageCopy) : copyReadable t c = copyReadable s c := by
  simp only [copyReadable, groupOpen, journalOf, h]

theorem readChoice_congr (h : t.pst.journal = s.pst.journal) (p : PstPage) : readChoice t p = readChoice s p := by
  simp only [readChoice, copyReadable_congr h]

theorem pageWrites_congr (h : t.pst.journal = s.pst.journal) (p : PstPage) : pageWrites t p = pageWrites s p := by
  simp only [pageWrites, copyReadable_congr h]

theorem peekPage_congr (hj : t.pst.journal = s.pst.journal) (hp : pstPage t m = pstPage s m) : peekPage t m = peekPage s m := by
  simp only [peekPage, readChoice_congr hj, hp]

/-- A wear warning leaves pages and journal. -/
theorem wearWarn_pst (n w : Nat) (s : State) :
    (wearWarn n w s).pst.pages = s.pst.pages ∧ (wearWarn n w s).pst.journal = s.pst.journal := by
  unfold wearWarn
  split <;> simp [State.modPst]

/-- A refused write leaves pages and journal. -/
theorem wornPage_pst (n : Nat) (s : State) :
    (wornPage n s).pst.pages = s.pst.pages ∧ (wornPage n s).pst.journal = s.pst.journal := by
  unfold wornPage
  split <;> simp [State.modPst]

/-! ## Writing a page -/

/-- The copy that a write leaves (R511). -/
def newCopy (n : Nat) (body : List Byte) (kind group fails : Nat) (s : State) : PageCopy :=
  let p := pstPage s n
  let other := if writeTarget s p then p.c0 else p.c1
  { body := fitTo 256 body, seq := if copyReadable s other then other.seq + 1 else 0, kind := kind, group := group,
    writes := pageWrites s p + 1, ct := s.clk.ct, bad := decide (2 ≤ fails) }

/-- The page that a write leaves. -/
def newPage (n : Nat) (body : List Byte) (kind group fails : Nat) (s : State) : PstPage :=
  if writeTarget s (pstPage s n) then { pstPage s n with c1 := newCopy n body kind group fails s }
  else { pstPage s n with c0 := newCopy n body kind group fails s }

@[simp] theorem newPage_num (n : Nat) (body : List Byte) (kind group fails : Nat) (s : State) :
    (newPage n body kind group fails s).num = n := by
  unfold newPage
  split <;> simp

theorem writePage_worn {kind group : Nat} (h : 10000000000 ≤ pageWrites s (pstPage s n)) :
    writePage n body kind group fails s = (false, wornPage n s) := by
  simp only [writePage, h, if_true]

/-- A page that is not worn is written, or is bad where the comparison failed twice (R511). -/
theorem writePage_eq {kind group : Nat} (h : pageWrites s (pstPage s n) < 10000000000) :
    writePage n body kind group fails s =
      let s1 := s.modPst fun x => { x with pages := putPage (newPage n body kind group fails s) x.pages }
      if 2 ≤ fails then (false, event 0x0702 (det [(4, n)]) s1) else (true, wearWarn n (pageWrites s (pstPage s n) + 1) s1) := by
  simp only [writePage, if_neg (Nat.not_le.mpr h)]
  rfl

/-- The pages and the journal after a write. -/
theorem writePage_pst {kind group : Nat} (h : pageWrites s (pstPage s n) < 10000000000) :
    (writePage n body kind group fails s).2.pst.pages = putPage (newPage n body kind group fails s) s.pst.pages ∧
    (writePage n body kind group fails s).2.pst.journal = s.pst.journal := by
  rw [writePage_eq h]
  dsimp only
  split
  · simp [State.modPst]
  · exact wearWarn_pst ..

theorem pstPage_writePage_same {kind group : Nat} (h : pageWrites s (pstPage s n) < 10000000000) :
    pstPage (writePage n body kind group fails s).2 n = newPage n body kind group fails s := by
  have hf := find?_putPage_same (newPage n body kind group fails s) s.pst.pages
  rw [newPage_num] at hf
  simp only [pstPage, (writePage_pst h).1]
  rw [hf, Option.getD_some]

/-- A write leaves what every other page reads as. -/
theorem peekPage_writePage_other {kind group : Nat} (hm : m ≠ n) :
    peekPage (writePage n body kind group fails s).2 m = peekPage s m := by
  rcases Nat.lt_or_ge (pageWrites s (pstPage s n)) 10000000000 with h | h
  · obtain ⟨hp, hj⟩ := writePage_pst (body := body) (kind := kind) (group := group) (fails := fails) h
    refine peekPage_congr hj ?_
    simp only [pstPage, hp]
    rw [find?_putPage_other (by simpa using hm)]
  · rw [writePage_worn h]
    exact peekPage_congr (wornPage_pst n s).2 (by simp only [pstPage, (wornPage_pst n s).1])

/-- Of two readable copies the one written after the other is newer (R510). -/
theorem serialDiff_succ (a : W32) : serialDiff (a + 1) a = 1 ∧ serialDiff a (a + 1) = -1 := by
  have h1 : a + 1 - a = 1#32 := by bv_omega
  have h2 : a - (a + 1) = 4294967295#32 := by bv_omega
  simp only [serialDiff, h1, h2]
  decide

theorem succ_ne (a : W32) : a + 1 ≠ a := by bv_omega

/-- A copy of no group whose comparison did not fail is readable (R509). -/
theorem newCopy_readable (hf : fails < 2) (s t : State) : copyReadable t (newCopy n body 0 0 fails s) = true := by
  simp [copyReadable, groupOpen, newCopy, hf]

/-- The copy that was written is the one that is read (R510). -/
theorem readChoice_newPage (hf : fails < 2) :
    readChoice s (newPage n body 0 0 fails s) = some (writeTarget s (pstPage s n)) := by
  have hnew := newCopy_readable (n := n) (body := body) hf s s
  obtain ⟨hafter, hbefore⟩ := serialDiff_succ (if writeTarget s (pstPage s n) then (pstPage s n).c0.seq else (pstPage s n).c1.seq)
  cases ht : writeTarget s (pstPage s n) with
  | true =>
    simp only [newPage, ht, if_true, readChoice, hnew]
    cases hc : copyReadable s (pstPage s n).c0
    · rfl
    · simp only [ht, if_true] at hafter
      simp only [newCopy, ht, hc, if_true, if_neg (succ_ne _).symm, hafter, zero_lt_one, decide_true]
  | false =>
    simp only [newPage, ht, Bool.false_eq_true, if_false, readChoice, hnew]
    cases hc : copyReadable s (pstPage s n).c1
    · rfl
    · simp only [ht, Bool.false_eq_true, if_false] at hbefore
      simp only [newCopy, ht, hc, Bool.false_eq_true, if_true, if_false, if_neg (succ_ne _), hbefore]
      rfl

/-- A page reads as written (R511). -/
theorem peekPage_writePage_same (h : pageWrites s (pstPage s n) < 10000000000) (hf : fails < 2) :
    peekPage (writePage n body 0 0 fails s).2 n = some (fitTo 256 body) := by
  simp only [peekPage, pstPage_writePage_same h, readChoice_congr (writePage_pst h).2, readChoice_newPage hf, Option.map_some]
  rw [newPage]
  cases writeTarget s (pstPage s n) <;> rfl

/-- A write is counted once (R511). -/
theorem pageWrites_writePage (h : pageWrites s (pstPage s n) < 10000000000) (hf : fails < 2) :
    pageWrites (writePage n body 0 0 fails s).2 (pstPage (writePage n body 0 0 fails s).2 n) = pageWrites s (pstPage s n) + 1 := by
  have hnew := newCopy_readable (n := n) (body := body) hf s s
  rw [pstPage_writePage_same h, pageWrites_congr (writePage_pst h).2, newPage]
  have hw : (newCopy n body 0 0 fails s).writes = pageWrites s (pstPage s n) + 1 := rfl
  cases writeTarget s (pstPage s n) with
  | true =>
    have hle : (if copyReadable s (pstPage s n).c0 then (pstPage s n).c0.writes else 0) ≤ pageWrites s (pstPage s n) := le_max_left ..
    simp only [if_true, pageWrites, hnew] at hw ⊢
    rw [hw]
    exact max_eq_right (Nat.le_succ_of_le hle)
  | false =>
    have hle : (if copyReadable s (pstPage s n).c1 then (pstPage s n).c1.writes else 0) ≤ pageWrites s (pstPage s n) := le_max_right ..
    simp only [Bool.false_eq_true, if_false, if_true, pageWrites, hnew] at hw ⊢
    rw [hw]
    exact max_eq_left (Nat.le_succ_of_le hle)

end

/-! ## Byte memories -/

/-- What each address reads as after a write of bytes. -/
theorem memGet_memWrite (bs : List Byte) : ∀ (a x : Nat) {m : Memory}, m.wf = true →
    memGet x (memWrite m a bs) = if a ≤ x ∧ x < a + bs.length then bs.getD (x - a) 0 else memGet x m := by
  induction bs with
  | nil =>
    intro a x m _
    rw [if_neg (by simp)]
    rfl
  | cons b bs ih =>
    intro a x m h
    rw [memWrite, ih (a + 1) x (memSet_wf a b h), memGet_memSet a b x h, List.length_cons]
    rcases Nat.lt_trichotomy x a with hx | rfl | hx
    · rw [if_neg (by omega), if_neg (by omega), if_neg (by omega)]
    · rw [if_neg (by omega), if_pos rfl, if_pos (by omega), Nat.sub_self]
      rfl
    · by_cases hend : x < a + (bs.length + 1)
      · have hsub : x - a = x - (a + 1) + 1 := by omega
        rw [if_pos (by omega), if_pos (by omega), hsub]
        rfl
      · rw [if_neg (by omega), if_neg (by omega), if_neg (by omega)]

/-- The first address of a memory in canonical form reads as something that was written. -/
theorem memGet_head {a : Nat} {b : Byte} {r : Memory} (h : Memory.wf ((a, b) :: r) = true) :
    memGet a ((a, b) :: r) = b ∧ b ≠ Memory.blank ∧ memAbove a r = true ∧ Memory.wf r = true := by
  simp only [Memory.wf, Bool.and_eq_true, bne_iff_ne] at h
  obtain ⟨⟨ha, hb⟩, hr⟩ := h
  exact ⟨if_pos rfl, hb, ha, hr⟩

/-- The first address of one canonical form is listed in the other. -/
theorem head_le_of_reads {a : Nat} {b : Byte} {r k : Memory} (h : Memory.wf ((a, b) :: r) = true)
    (hk : memGet a k = memGet a ((a, b) :: r)) : memAbove a k = false := by
  obtain ⟨hg, hb, -, -⟩ := memGet_head h
  rw [Bool.eq_false_iff]
  intro hab
  exact hb (by rw [← hg, ← hk, memGet_of_above hab])

/-- Two canonical forms with the same bytes are the same. -/
theorem memory_ext : ∀ m k : Memory, m.wf = true → k.wf = true → (∀ x, memGet x m = memGet x k) → m = k
  | [], [], _, _, _ => rfl
  | [], (a, b) :: r, _, hk, h => absurd (head_le_of_reads hk (h a)) (by simp [memAbove])
  | (a, b) :: r, [], hm, _, h => absurd (head_le_of_reads hm (h a).symm) (by simp [memAbove])
  | (a, b) :: r, (c, d) :: t, hm, hk, h => by
    obtain ⟨hgm, hbm, ham, hrm⟩ := memGet_head hm
    obtain ⟨hgk, hbk, hak, hrk⟩ := memGet_head hk
    have hac : a = c := by
      rcases Nat.lt_trichotomy a c with hlt | heq | hgt
      · have habove : memAbove a ((c, d) :: t) = true := by
          simp only [memAbove, List.all_cons, Bool.and_eq_true, decide_eq_true_eq]
          exact ⟨hlt, by simpa [memAbove] using memAbove_mono (Nat.le_of_lt hlt) hak⟩
        rw [head_le_of_reads hm (h a).symm] at habove
        cases habove
      · exact heq
      · have habove : memAbove c ((a, b) :: r) = true := by
          simp only [memAbove, List.all_cons, Bool.and_eq_true, decide_eq_true_eq]
          exact ⟨hgt, by simpa [memAbove] using memAbove_mono (Nat.le_of_lt hgt) ham⟩
        rw [head_le_of_reads hk (h c)] at habove
        cases habove
    subst hac
    have hbd : b = d := by rw [← hgm, ← hgk, h a]
    have hrt : r = t := by
      refine memory_ext r t hrm hrk fun x => ?_
      by_cases hx : x = a
      · subst hx
        rw [memGet_of_above ham, memGet_of_above hak]
      · simpa [memGet_cons, hx] using h x
    rw [hbd, hrt]

section
variable {dma : List Byte} {s : State} {e : Outst}

/-! ## Bulk memory -/

theorem doBulkCopy_in (hb : inBulk s (e.desc.par 24 8) e.desc.len = true) (hd : e.desc.par 32 1 = 0) :
    doBulkCopy dma e s = (s.modMem fun m => { m with dram := memWrite m.dram (bulkBase s + e.desc.par 24 8) (bufRead e.desc dma s) },
      .finish (doneOk [])) := by
  simp [doBulkCopy, hb, hd]

theorem doBulkCopy_out (hb : inBulk s (e.desc.par 24 8) e.desc.len = true) (hd : e.desc.par 32 1 = 1) :
    doBulkCopy dma e s = (bufWrite e.desc 0 (memRead s.mem.dram (bulkBase s + e.desc.par 24 8) e.desc.len) s, .finish (doneOk [])) := by
  simp [doBulkCopy, hb, hd]

end

/-- Settles O21: bulk copies by direction, page writes by wear and failed comparisons, byte memories by induction on the bytes. -/
theorem storageReadsAsWritten : Obligations.StorageReadsAsWritten := by
  refine ⟨fun q dma s e h hb => ⟨fun hd => next_served_finish h (doBulkCopy_in hb hd), fun hd => next_served_finish h (doBulkCopy_out hb hd)⟩,
    fun n fails body s => ⟨fun h hf => ⟨?_, peekPage_writePage_same h hf, pageWrites_writePage h hf⟩, fun h hf => ?_, fun h => ?_,
      fun m hm => peekPage_writePage_other hm⟩,
    fun m a bs h => ⟨memWrite_wf bs a h, fun x => memGet_memWrite bs a x h⟩, memory_ext⟩
  · rw [writePage_eq h]
    simp only [if_neg (Nat.not_le.mpr hf)]
  · rw [writePage_eq h]
    simp only [if_pos hf]
  · rw [writePage_worn h]
    exact ⟨rfl, fun m => peekPage_congr (wornPage_pst n s).2 (by simp only [pstPage, (wornPage_pst n s).1])⟩

section
variable {s : State} {n : Nat}

/-! ## Rows of the store -/

theorem servePage_next {r : PageReq} (h : nextPage s.pst.queue = some r) (f : Nat) :
    servePage f s = pageEnded r (writePage r.page r.body 0 0 f (s.modPst fun p => { p with queue := p.queue.erase r })).1
      (writePage r.page r.body 0 0 f (s.modPst fun p => { p with queue := p.queue.erase r })).2 := by
  simp only [servePage, h]

/-- The state with the ring record of the RWP values written, before the wear of its page is judged (R519). -/
def rwpRecorded (i : Fin 64) (s : State) : State :=
  (s.modPst fun x =>
    { x with
      ring := vmod x.ring i fun _ => some { seq := s.pst.ringSeq, ct := s.clk.ct, vals := { s.rwp with changed := false } },
      ringNext := (i.val + 1) % 64, ringSeq := x.ringSeq + 1, rwpCount := vmod x.rwpCount i (· + 1),
      records := satInc x.records 1 }).modRwp fun r => { r with changed := false }

theorem writeRwp_eq {i : Fin 64} (h : nextRec s = some i) : writeRwp s = ringWear i (rwpRecorded i s) := by
  simp only [writeRwp, h]
  rfl

/-- A wear warning changes only which pages were warned of. -/
theorem wearWarn_ring (n w : Nat) (s : State) : (wearWarn n w s).rwp = s.rwp ∧ (wearWarn n w s).pst.ring = s.pst.ring ∧
    (wearWarn n w s).pst.ringSeq = s.pst.ringSeq ∧ (wearWarn n w s).pst.records = s.pst.records := by
  unfold wearWarn
  split <;> simp [State.modPst]

/-- A refused write changes only which pages are worn. -/
theorem wornPage_ring (n : Nat) (s : State) : (wornPage n s).rwp = s.rwp ∧ (wornPage n s).pst.ring = s.pst.ring ∧
    (wornPage n s).pst.ringSeq = s.pst.ringSeq ∧ (wornPage n s).pst.records = s.pst.records := by
  unfold wornPage
  split <;> simp [State.modPst]

/-- The wear of a ring record leaves the records and the values. -/
theorem ringWear_ring (i : Fin 64) (s : State) : (ringWear i s).rwp = s.rwp ∧ (ringWear i s).pst.ring = s.pst.ring ∧
    (ringWear i s).pst.ringSeq = s.pst.ringSeq ∧ (ringWear i s).pst.records = s.pst.records := by
  have h1 := wearWarn_ring (ringPage i) (s.pst.rwpCount.get i) s
  have h2 := wornPage_ring (ringPage i) (wearWarn (ringPage i) (s.pst.rwpCount.get i) s)
  simp only [h1] at h2
  unfold ringWear
  dsimp only
  split_ifs <;> simp [State.modPst, h1, h2]

end

/-- Settles O22: each row by what is due. -/
theorem storeWrites : Obligations.StoreWrites := by
  intro s f fixed n rest b
  refine ⟨fun r hr hn => ?_, fun hr hc hb i hn => ?_, fun hf hq ht => ?_, fun hf ht hl hp => ?_, fun hr => ?_, fun hc => ?_, fun ht => ?_,
    fun hl => ?_⟩
  · simp only [exec, execPageWrite, hr, if_true, servePage_next hn]
  · obtain ⟨h1, h2, h3, h4⟩ := ringWear_ring i (rwpRecorded i s)
    refine ⟨ringWear i (rwpRecorded i s), ?_, h1, ?_, h3, h4⟩
    · simp [exec, execRwpRecordWrite, hr, hc, hb, writeRwp_eq hn]
    · rw [h2]
      exact vmod_get_same ..
  · simp [exec, execTrailerScan, hf, hq, dayNs, ht]
  · simp only [exec, execPageRefresh, hf, ht, hl, hp, decide_true, Bool.and_self, if_true]
  · simp [exec, execPageWrite, hr]
  · simp [exec, execRwpRecordWrite, hc]
  · have hearly : ¬ s.pst.scanAt + dayNs ≤ s.clk.now := Nat.not_le.mpr ht
    simp [exec, execTrailerScan, hearly]
  · simp only [exec, execPageRefresh, hl]
    split <;> rfl

section
variable {q : RingId} {r : Fin 3} {s : State} {e : Outst} {dma bs : List Byte}

/-! ## Passwords -/

/-- A queued page is no part of the passwords. -/
@[simp] theorem queuePage_pwd (row page : Nat) (body : List Byte) (u : PageUse) (s : State) :
    (queuePage row page body u s).pst.pwd = s.pst.pwd := rfl

/-- A change of a region's passwords, as the region then is. -/
@[simp] theorem modPwd_get (r : Fin 3) (f : PwdRegion → PwdRegion) (s : State) :
    (modPwd r f s).pst.pwd.get r = f (s.pst.pwd.get r) := by
  simp [modPwd, State.modPst]

/-- A failed attempt before the eighth is counted (R525). -/
theorem failedAttempt_early (kind : Nat) (h : (s.pst.pwd.get r).fails < 7) :
    (failedAttempt r kind s).pst.pwd.get r = { s.pst.pwd.get r with fails := (s.pst.pwd.get r).fails + 1 } := by
  have h8 : ¬ 8 ≤ (s.pst.pwd.get r).fails + 1 := by omega
  simp only [failedAttempt, if_neg h8, modPwd_get, event_pst]

/-- The eighth failed attempt and each later one starts a back-off that doubles (R525). -/
theorem failedAttempt_late (kind : Nat) (h : 7 ≤ (s.pst.pwd.get r).fails) :
    (failedAttempt r kind s).pst.pwd.get r = { s.pst.pwd.get r with
      fails := (s.pst.pwd.get r).fails + 1, until_ := some (s.clk.opNs + (s.pst.pwd.get r).next * 1000000000),
      next := min 131072 ((s.pst.pwd.get r).next * 2) } := by
  have h8 : 8 ≤ (s.pst.pwd.get r).fails + 1 := by omega
  simp only [failedAttempt, if_pos h8, modPwd_get, event_pst]

theorem fin?_val {n : Nat} {k : Nat} {i : Fin n} (h : k = i.val) : fin? n k = some i := by
  simp [fin?, h]

end

/-- Settles O23: the warning once, the back-off by operating time, the attempts by their number, a change by its check. -/
theorem retentiveAndPasswords : Obligations.RetentiveAndPasswords := by
  intro q dma s e r cut
  refine ⟨fun hw hr hp => ?_, rfl, fun u hu ht => ?_, fun h hr hc => ?_, fun hw => ?_, fun u hu ht => ?_, fun kind => ?_, fun h hr hc => ?_⟩
  · simp [exec, execPowerFailWarning, hw, hr, hp]
  · simp only [exec, execBackoffEnd, hu, if_pos ht]
    rfl
  · exact next_served_wait h (by simp only [doPstPwdSet, fin?_val hr, if_pos hc])
  · simp [exec, execPowerFailWarning, hw]
  · simp only [exec, execBackoffEnd, hu, if_neg (Nat.not_le.mpr ht)]
  · rcases Nat.lt_or_ge (s.pst.pwd.get r).fails 7 with h | h
    · simp only [failedAttempt_early kind h]
      exact ⟨trivial, trivial, trivial, fun _ => ⟨trivial, trivial⟩, fun h7 => absurd h (Nat.not_lt.mpr h7)⟩
    · simp only [failedAttempt_late kind h]
      exact ⟨trivial, trivial, trivial, fun h7 => absurd h7 (Nat.not_lt.mpr h), fun _ => ⟨trivial, trivial⟩⟩
  · have hno : ¬ (checkChange r (decide (e.desc.par 25 1 = 0)) (slice (bufRead e.desc dma s) 0 16)
        (if decide (e.desc.par 25 1 = 0) = true then slice (bufRead e.desc dma s) 32 16 else slice (bufRead e.desc dma s) 0 16) s).1 = true :=
      Bool.eq_false_iff.mp hc
    exact next_served_finish h (by simp only [doPstPwdSet, fin?_val hr, if_neg hno, stAccessDenied])

section
variable {e : Outst} {s : State}

/-! ## Reads of the store -/

/-- PST_READ of a range of the store turns on the passwords of its regions (R535). -/
theorem doPstRead_eq (h0 : 0 < e.desc.len) (hn : e.desc.par 24 4 + e.desc.len ≤ 16777216) :
    doPstRead e s =
      let first := e.desc.par 24 4 / 256
      let last := (e.desc.par 24 4 + e.desc.len - 1) / 256
      let p := checkReads (slice e.desc.param 16 16) (regionsRead first last) s
      let r := storePages first (last + 1 - first) p.2
      if p.1 then
        r.1.elim (r.2, .finish (doneWith 0x0A 0)) fun bs =>
          (bufWrite e.desc 0 (slice bs (e.desc.par 24 4 % 256) e.desc.len) r.2, .finish (doneOk []))
      else (p.2, .finish (doneWith 0x0E 0)) := by
  simp only [doPstRead, if_neg (Nat.not_lt.mpr hn), if_neg (Nat.pos_iff_ne_zero.mp h0), stMediaError, stAccessDenied]
  split
  · split <;> simp_all
  · rfl

theorem doPstInfo_eq (hn : e.desc.par 24 4 + e.desc.par 28 4 ≤ 65536) :
    doPstInfo e s =
      if e.desc.len < 64 * e.desc.par 28 4 then (s, .finish (doneWith 0x11 0))
      else (bufWrite e.desc 0 (trailersFrom (e.desc.par 24 4) (e.desc.par 28 4) s).1 (trailersFrom (e.desc.par 24 4) (e.desc.par 28 4) s).2,
        .finish (doneOk [])) := by
  simp only [doPstInfo, if_neg (Nat.not_lt.mpr hn), stNoSpace]

end

/-- Settles O24: a read by passwords and readable pages, the trailers by room, the retentive data by what was saved. -/
theorem storeReads : Obligations.StoreReads := by
  intro q s e bs j
  refine ⟨fun h ⟨h0, hn⟩ hp hr => next_served_finish h ?_, fun h hn hl => next_served_finish h ?_, fun h hg => next_served_finish h ?_,
    fun h hr => next_served_finish h ?_, fun h hr => next_served_finish h ?_, fun h ⟨h0, hn⟩ hp => next_served_finish h ?_,
    fun h ⟨h0, hn⟩ hp hr => next_served_finish h ?_, fun h hn hl => next_served_finish h ?_, fun h hg => next_served_finish h ?_⟩
  · simp only [doPstRead_eq h0 hn, if_pos hp, hr, Option.elim_some]
  · simp only [doPstInfo_eq hn, if_neg (Nat.not_lt.mpr hl)]
  · simp only [doPstRetInfo, hg]
  · simp only [doPstRetSave, if_pos hr, stMediaError]
  · simp only [doPstRetSave, hr, Bool.false_eq_true, if_false, stBadState]
  · simp only [doPstRead_eq h0 hn, if_neg (Bool.eq_false_iff.mp hp)]
  · simp only [doPstRead_eq h0 hn, if_pos hp, hr, Option.elim_none]
  · simp only [doPstInfo_eq hn, if_pos hl]
  · simp only [doPstRetInfo, hg]

end Sys2Proof.Machine

/-! # The Comet trace and the event recorder (R73 to R90, R538 to R550) -/

namespace Sys2Proof.Machine

/-! ## The drain -/

theorem traceDrain_eq (n : Nat) (s : State) : exec (.traceDrain n) s = .next (s.modCmt fun c =>
    (c.drain (traceCapacity s) (min n c.stage.length)).countRate s.clk.now
      (32 * (c.stage.length - (c.drain (traceCapacity s) (min n c.stage.length)).stage.length))) := rfl

/-- Counting bytes changes the counts alone. -/
theorem countRate_frame (now bytes : Nat) (c : Cmt) :
    ∃ w n l, c.countRate now bytes = { c with rateWindow := w, rateNow := n, rateLast := l } := by
  unfold Cmt.countRate
  dsimp only
  split
  · exact ⟨_, _, _, rfl⟩
  · exact ⟨_, _, _, rfl⟩

@[simp] theorem drainOne_head (cap : Nat) (c : Cmt) : (c.drainOne cap).head = c.head := by
  unfold Cmt.drainOne
  split
  · rfl
  · split_ifs <;> rfl

theorem drain_head (cap n : Nat) : ∀ c : Cmt, (c.drain cap n).head = c.head := by
  induction n with
  | zero => exact fun _ => rfl
  | succ n ih =>
    intro c
    rw [Cmt.drain, ih, drainOne_head]

/-- A drain of one record, where one is staged. -/
theorem traceDrain_one {s : State} {r : TraceRec} {rest : List TraceRec} (h : s.cmt.stage = r :: rest) :
    ∃ t, exec (.traceDrain 1) s = .next t ∧ t.cmt.recs = (s.cmt.drainOne (traceCapacity s)).recs ∧
      t.cmt.stage = (s.cmt.drainOne (traceCapacity s)).stage ∧ t.cmt.tail = (s.cmt.drainOne (traceCapacity s)).tail ∧
      t.cmt.full = (s.cmt.drainOne (traceCapacity s)).full ∧ t.cmt.wrapped = (s.cmt.drainOne (traceCapacity s)).wrapped := by
  have hone : min 1 s.cmt.stage.length = 1 := by simp [h]
  refine ⟨_, traceDrain_eq 1 s, ?_⟩
  simp only [State.modCmt, hone, Cmt.drain]
  obtain ⟨_, _, _, hc⟩ := countRate_frame s.clk.now (32 * (s.cmt.stage.length - (s.cmt.drainOne (traceCapacity s)).stage.length))
    (s.cmt.drainOne (traceCapacity s))
  rw [hc]
  exact ⟨rfl, rfl, rfl, rfl, rfl⟩

section
variable {c : Cmt} {r : TraceRec} {rest : List TraceRec} {cap : Nat}

theorem drainOne_room (h : c.stage = r :: rest) (hf : c.full = false) (hr : c.recs.length < cap) :
    c.drainOne cap = { c with recs := c.recs ++ [r], stage := rest } := by
  simp only [Cmt.drainOne, h, hf, hr, Bool.false_eq_true, if_false, if_true]

theorem drainOne_stop (h : c.stage = r :: rest) (hf : c.full = false) (hr : cap ≤ c.recs.length) (hs : c.stopFull = true) :
    c.drainOne cap = { c with full := true } := by
  simp only [Cmt.drainOne, h, hf, hs, if_neg (Nat.not_lt.mpr hr), Bool.false_eq_true, if_false, if_true]

theorem drainOne_wrap {x y : TraceRec} {more : List TraceRec} (h : c.stage = r :: rest) (hf : c.full = false)
    (hr : cap ≤ c.recs.length) (hs : c.stopFull = false) (hx : c.recs = x :: y :: more) :
    c.drainOne cap = { c with recs := y :: more ++ [r], stage := rest, wrapped := true, tail := y.seq } := by
  simp only [Cmt.drainOne, h, hf, hs, if_neg (Nat.not_lt.mpr hr), Bool.false_eq_true, if_false]
  simp only [hx, List.cons_append, List.drop_succ_cons, List.drop_zero]

end

/-- Settles O13: the drain by room and STOP_FULL, the loss record and the freeze by their conditions, generation by its three cases. -/
theorem traceWriter : Obligations.TraceWriter := by
  refine ⟨fun s => ⟨fun h1 h2 h3 h4 => ?_, fun h => ?_, fun n => ⟨_, traceDrain_eq n s, rfl, ?_⟩, fun r rest h hf => ⟨fun hr => ?_,
    fun hr hs => ?_, fun x y more hr hs hx => ?_⟩, fun h => ?_, fun h => ?_⟩, fun typ flags source body ct s h => ?_⟩
  · simp [exec, execTraceLossRecord, stageCapacity, h1, h2, h3, h4, lossRecord, State.modCmt]
  · simp only [exec, execTraceFreeze, if_pos h]
  · simp only [State.modCmt]
    obtain ⟨_, _, _, hc⟩ := countRate_frame s.clk.now
      (32 * (s.cmt.stage.length - (s.cmt.drain (traceCapacity s) (min n s.cmt.stage.length)).stage.length))
      (s.cmt.drain (traceCapacity s) (min n s.cmt.stage.length))
    rw [hc]
    exact drain_head ..
  · obtain ⟨t, ht, h1, h2, h3, -, -⟩ := traceDrain_one h
    rw [drainOne_room (cap := traceCapacity s) h hf hr] at h1 h2 h3
    exact ⟨t, ht, h1, h2, h3⟩
  · obtain ⟨t, ht, h1, h2, -, h4, -⟩ := traceDrain_one h
    rw [drainOne_stop (cap := traceCapacity s) h hf hr hs] at h1 h2 h4
    exact ⟨t, ht, h1, h2.trans h, h4⟩
  · obtain ⟨t, ht, h1, h2, h3, -, h5⟩ := traceDrain_one h
    rw [drainOne_wrap (cap := traceCapacity s) h hf hr hs hx] at h1 h2 h3 h5
    exact ⟨t, ht, h1, h2, h3, h5⟩
  · simp [exec, execTraceLossRecord, h]
  · simp only [exec, execTraceFreeze, if_neg h]
  · simp only [traceGen, h, if_true, State.modCmt, stageCapacity]
    cases hs : s.cmt.silent with
    | true => simp [Cmt.loseStopped]
    | false =>
      rcases Nat.lt_or_ge s.cmt.stage.length 8192 with hl | hl
      · simp [Nat.not_le.mpr hl, hl, Cmt.stageRec]
      · simp [Nat.not_lt.mpr hl, hl, Cmt.loseFull]

/-! ## Where an event goes -/

@[simp] theorem raise_cmt (v : Nat) (s : State) : (raise v s).cmt = s.cmt := by
  obtain ⟨_, _, _, h⟩ := raise_frame v s
  rw [h]

@[simp] theorem raise_evr (v : Nat) (s : State) : (raise v s).evr = s.evr := by
  obtain ⟨_, _, _, h⟩ := raise_frame v s
  rw [h]

@[simp] theorem raise_mtr (v : Nat) (s : State) : (raise v s).mtr = s.mtr := by
  obtain ⟨_, _, _, h⟩ := raise_frame v s
  rw [h]

@[simp] theorem handOver_cmt (i : EvItem) (s : State) : (handOver i s).cmt = s.cmt := by
  obtain ⟨_, _, h⟩ := handOver_frame i s
  rw [h]

@[simp] theorem traceGen_evr (typ flags source : Nat) (body : List Byte) (ct : Nat) (s : State) :
    (traceGen typ flags source body ct s).evr = s.evr := by
  obtain ⟨_, h⟩ := traceGen_frame typ flags source body ct s
  rw [h]

@[simp] theorem traceGen_mtr (typ flags source : Nat) (body : List Byte) (ct : Nat) (s : State) :
    (traceGen typ flags source body ct s).mtr = s.mtr := by
  obtain ⟨_, h⟩ := traceGen_frame typ flags source body ct s
  rw [h]

section
variable {cls source depth ct : Nat} {detail : W64} {s : State}

/-- An event makes one error record of the trace (R77). -/
theorem eventAt_cmt : (eventAt cls source depth detail ct s).cmt =
    (traceGen 5 0 source (fields [(2, cls), (1, depth), (1, 0), (8, detail.toNat)]) ct s).cmt := by
  simp only [eventAt, raise_cmt]
  split
  · rw [handOver_cmt]
  · rfl

/-- A class that is not marked leaves the recorder (R538). -/
theorem eventAt_unmarked (h : classRecorded cls = false) :
    (eventAt cls source depth detail ct s).evr = s.evr ∧ (eventAt cls source depth detail ct s).mtr = s.mtr := by
  simp [eventAt, h]

/-- A marked class that is none of the metering unit goes to the recorder at once (R538, R541). -/
theorem eventAt_marked (h : classRecorded cls = true) (h6 : cls / 256 ≠ 6) (hc : cls < 65536) :
    (eventAt cls source depth detail ct s).mtr = s.mtr ∧
    (eventAt cls source depth detail ct s).evr = s.evr.deliver (evItem cls source depth detail ct (traceSeqNow s 5) s) := by
  have hcls : ¬ (evItem cls source depth detail ct (traceSeqNow s 5) s).cls.toNat / 256 = 6 := by
    simpa [evItem, Nat.mod_eq_of_lt hc] using h6
  simp [eventAt, h, handOver, if_neg hcls, State.modEvr]

end

/-- A record that arrived at no other's instant enters last (R541). -/
theorem enqueue_last {i : EvItem} {e : Evr} (h : ∀ x ∈ e.queue, x.arrived ≠ i.arrived) : e.enqueue i = e.queue ++ [i] := by
  have henter : ∀ l : List EvItem, (∀ x ∈ l, x.arrived ≠ i.arrived) → i.enter l = i :: l := by
    intro l hl
    cases l with
    | nil => rfl
    | cons x r =>
      have hx : i.goesBefore x = false := by simp [EvItem.goesBefore, (hl x (by simp)).symm]
      simp only [EvItem.enter, hx, Bool.false_eq_true, if_false]
  have hdrop := henter (e.queue.drop (bit e.body)).reverse fun x hx =>
    h x (List.mem_of_mem_drop (List.mem_reverse.mp hx))
  rw [Evr.enqueue, hdrop, List.reverse_cons, List.reverse_reverse, ← List.append_assoc, List.take_append_drop]

section
variable {q : RingId} {s : State} {e : Outst}

/-! ## Descriptors of the trace -/

/-- The part of the trace that CMT_READ asks for (R88, R90). -/
def readsFrom (e : Outst) (s : State) : W32 :=
  if serialDiff (BitVec.ofNat 32 (e.desc.par 24 4)) s.cmt.tail < 0 then s.cmt.tail else BitVec.ofNat 32 (e.desc.par 24 4)

theorem doCmtRead_none (h : s.cmt.all = [] ∨ 0 ≤ serialDiff (BitVec.ofNat 32 (e.desc.par 24 4)) s.cmt.head) :
    doCmtRead 0 e s = (s, .finish (doneOk (fields [(4, s.cmt.head.toNat), (4, 0), (4, s.cmt.tail.toNat)]))) := by
  have hb : (s.cmt.all.isEmpty || decide (0 ≤ serialDiff (BitVec.ofNat 32 (e.desc.par 24 4)) s.cmt.head)) = true := by simpa using h
  simp only [doCmtRead, hb, if_true]

/-- What a buffer is written with leaves the trace. -/
@[simp] theorem bufWrite_cmt (d : Desc) (off : Nat) (bs : List Byte) (s : State) : (bufWrite d off bs s).cmt = s.cmt := by
  unfold bufWrite
  split_ifs <;> rfl

theorem doCmtRead_some {r : TraceRec} {rs : List TraceRec} (ha : s.cmt.all ≠ [])
    (hh : serialDiff (BitVec.ofNat 32 (e.desc.par 24 4)) s.cmt.head < 0)
    (hr : s.cmt.from_ (readsFrom e s) (e.desc.len / 32) = r :: rs) :
    doCmtRead 0 e s = (bufWrite e.desc 0 ((r :: rs).flatMap TraceRec.bytes) s,
      .finish (doneOk (fields [(4, r.seq.toNat), (4, rs.length + 1), (4, s.cmt.tail.toNat)]))) := by
  have hb : ¬ (s.cmt.all.isEmpty || decide (0 ≤ serialDiff (BitVec.ofNat 32 (e.desc.par 24 4)) s.cmt.head)) = true := by
    simp [ha, hh]
  have hlost : (if (s.cmt.stopFull || s.cmt.silent) = true then 0 else min 0 s.cmt.recs.length) = 0 := by simp
  have hsame : ∀ t : State, (t.modCmt fun c => c) = t := fun _ => rfl
  rw [readsFrom] at hr
  simp only [doCmtRead, if_neg hb, hlost, if_true, hr, hsame, bufWrite_cmt, List.length_cons]

end

/-- Settles O14: reads by what is asked for, the resume by what stopped the trace, and an event by whether its class is marked. -/
theorem traceDescriptors : Obligations.TraceDescriptors := by
  refine ⟨fun q s e => ⟨fun h he => next_served_finish h ?_, fun h hf hu he hc => next_served_finish h ?_, fun h => next_served_finish h rfl,
    fun h hr => next_served_finish h (doCmtRead_none hr), fun r rs h ha hh hr => next_served_finish h (doCmtRead_some ha hh hr),
    fun h hf hu => next_served_finish h ?_⟩, fun cls source depth detail ct s => ⟨?_, eventAt_cmt, eventAt_unmarked, fun h h6 hc => ?_,
    fun i e => enqueue_last⟩⟩
  · simp only [doCmtMark, if_pos he]
  · have hstop : ¬ s.cmt.stopCount = 0 := Nat.pos_iff_ne_zero.mp hc
    simp only [doCmtResume, State.modCmt, hf, hu, he, hstop, lossRecord, Bool.true_or, Bool.false_and, Bool.false_eq_true, if_true, if_false]
  · simp only [doCmtResume, hf, hu, Bool.or_self, Bool.false_eq_true, if_false, stBadState]
  · obtain ⟨c, r, l, h, m, o, ht⟩ := eventAt_frame cls source depth detail ct s
    exact ⟨c, r, l, h, m, o, ht⟩
  · obtain ⟨hm, he⟩ := eventAt_marked (source := source) (depth := depth) (detail := detail) (ct := ct) (s := s) h h6 hc
    refine ⟨hm, fun hf hb hl => ?_, fun hf hb hl => ?_, fun hs => ?_⟩
    · rw [he]
      simp only [Evr.deliver, hf, hb, Bool.or_self, Bool.false_eq_true, if_false, if_neg (Nat.not_le.mpr hl)]
      exact ⟨_, rfl, rfl, rfl, rfl, rfl, rfl, rfl, rfl⟩
    · rw [he]
      simp only [Evr.deliver, hf, hb, Bool.or_self, Bool.false_eq_true, if_false, if_pos hl]
      exact ⟨trivial, trivial⟩
    · have hs : (s.evr.full || s.evr.fault) = true := by simpa using hs
      rw [he]
      simp only [Evr.deliver, if_pos hs]
      exact ⟨trivial, trivial⟩

section
variable {s : State} {i : EvItem} {rest : List EvItem} {f1 f2 : Nat}

/-! ## Writing a record -/

/-- The first of the two writes of a record fails (R542, R544). -/
theorem writeRecord_first (hq : s.evr.queue = i :: rest) (h1 : (writeSlot s.evr.next (i.record s.evr.next false) f1 s).1 = false) :
    writeRecord f1 f2 false s = recordFailed (writeSlot s.evr.next (i.record s.evr.next false) f1 s).2 := by
  simp only [writeRecord, hq, h1, Bool.not_false, if_true]

/-- Where the first write succeeds, the second one decides (R542, R544). -/
theorem writeRecord_second (hq : s.evr.queue = i :: rest) (h1 : (writeSlot s.evr.next (i.record s.evr.next false) f1 s).1 = true) :
    writeRecord f1 f2 false s =
      let r2 := writeSlot s.evr.next (i.record s.evr.next true) f2 (writeSlot s.evr.next (i.record s.evr.next false) f1 s).2
      if r2.1 then noteDropped (recordDone i rest r2.2) else recordFailed r2.2 := by
  simp only [writeRecord, hq, h1, Bool.not_true, Bool.false_eq_true, if_false]

theorem evrRecordWrite_writes (hm : mayRecord s = true) (hr : s.evr.retryAt = none) (g1 g2 : Fin 3) :
    exec (.evrRecordWrite g1 g2 false) s = .next (writeRecord g1.val g2.val false s) := by
  simp only [exec, execEvrRecordWrite, hm, hr, Option.isNone_none, Bool.and_self, if_true]

theorem evrWriteRepeat_writes {a : Nat} (hm : mayRecord s = true) (hr : s.evr.retryAt = some a) (ha : a ≤ s.clk.now) (g1 g2 : Fin 3) :
    exec (.evrWriteRepeat g1 g2) s = .next (writeRecord g1.val g2.val false s) := by
  simp only [exec, execEvrWriteRepeat, hm, hr, ha, decide_true, Bool.and_self, if_true]

/-- After the third repetition the recorder stops (R544). -/
theorem recordFailed_last (h : 3 ≤ s.evr.tries) : (recordFailed s).evr.fault = true ∧ (recordFailed s).evr.queue = [] := by
  have hunmarked : classRecorded 0x0714 = false := by decide
  simp only [recordFailed, if_pos h, event, eventAt_unmarked hunmarked, raise_evr]
  exact ⟨rfl, rfl⟩

end

section
variable {e : Outst} {s : State}

theorem doEvrRead_eq (h : e.desc.par 24 4 ≤ 32767) :
    doEvrRead e s =
      let a := e.desc.par 24 4
      let k := min (e.desc.len / 64) (32768 - a)
      let r := readPages (49152 + a / 4) (if k = 0 then 0 else (a + k - 1) / 4 + 1 - a / 4) s
      r.1.elim (r.2, .finish (doneWith 0x0A 0)) fun bs =>
        (bufWrite e.desc 0 (slice bs (64 * (a % 4)) (64 * k)) r.2, .finish (doneOk (fields [(4, a), (4, k), (4, s.evr.next)]))) := by
  simp only [doEvrRead, if_neg (Nat.not_lt.mpr h), stMediaError]
  split <;> simp_all

end

/-- Settles O15: each attempt by its two writes, the failures by their number, reads by whether the pages are readable. -/
theorem recorder : Obligations.Recorder := by
  intro q s e f1 f2 i rest a bs
  refine ⟨fun ⟨hm, hq⟩ hr h1 h2 => ?_, fun ⟨hm, hq⟩ ⟨hr, ha⟩ h1 h2 => ?_, fun h ha hb => next_served_finish h ?_,
    fun h => next_served_finish h rfl, fun ⟨hm, hq⟩ hr h1 => ?_, fun ⟨hm, hq⟩ hr h1 h2 => ?_, fun ⟨hm, hq⟩ ⟨hr, ha⟩ h1 => ?_,
    fun ⟨hm, hq⟩ ⟨hr, ha⟩ h1 h2 => ?_, fun h => ?_, recordFailed_last, fun h ha hb => next_served_finish h ?_⟩
  · rw [evrRecordWrite_writes hm hr, writeRecord_second hq h1]
    simp only [if_pos h2]
  · rw [evrWriteRepeat_writes hm hr ha, writeRecord_second hq h1]
    simp only [if_pos h2]
  · simp only [doEvrRead_eq ha, hb, Option.elim_some]
  · rw [evrRecordWrite_writes hm hr, writeRecord_first hq h1]
  · rw [evrRecordWrite_writes hm hr, writeRecord_second hq h1]
    simp only [if_neg (Bool.eq_false_iff.mp h2)]
  · rw [evrWriteRepeat_writes hm hr ha, writeRecord_first hq h1]
  · rw [evrWriteRepeat_writes hm hr ha, writeRecord_second hq h1]
    simp only [if_neg (Bool.eq_false_iff.mp h2)]
  · simp only [recordFailed, if_neg (Nat.not_le.mpr h)]
  · simp only [doEvrRead_eq ha, hb, Option.elim_none]

end Sys2Proof.Machine

/-! # What traces, completions and measurements leave

Events, completions and the metering unit change the trace, the recorder, the host interface, the metering unit, what has left the module and
the free values. `State.hushed` is the state without those, so that one lemma for each operation says that it leaves every other part. -/

namespace Sys2Proof.Machine

/-- The state without its trace, recorder, host interface, metering unit, output and free values. -/
def State.hushed (s : State) : State :=
  { s with cmt := State.reset.cmt, evr := State.reset.evr, hif := State.reset.hif, mtr := State.reset.mtr, out := [], free := 0 }

section
variable {s t : State}

theorem hushed_clk (h : t.hushed = s.hushed) : t.clk = s.clk := (congrArg State.clk h :)
theorem hushed_tim (h : t.hushed = s.hushed) : t.tim = s.tim := (congrArg State.tim h :)
theorem hushed_sys (h : t.hushed = s.hushed) : t.sys = s.sys := (congrArg State.sys h :)
theorem hushed_rws (h : t.hushed = s.hushed) : t.rws = s.rws := (congrArg State.rws h :)
theorem hushed_rwp (h : t.hushed = s.hushed) : t.rwp = s.rwp := (congrArg State.rwp h :)
theorem hushed_pair (h : t.hushed = s.hushed) : t.pair = s.pair := (congrArg State.pair h :)
theorem hushed_net (h : t.hushed = s.hushed) : t.net = s.net := (congrArg State.net h :)
theorem hushed_fio (h : t.hushed = s.hushed) : t.fio = s.fio := (congrArg State.fio h :)
theorem hushed_vot (h : t.hushed = s.hushed) : t.vot = s.vot := (congrArg State.vot h :)
theorem hushed_lanes (h : t.hushed = s.hushed) : t.lanes = s.lanes := (congrArg State.lanes h :)
theorem hushed_tsk (h : t.hushed = s.hushed) : t.tsk = s.tsk := (congrArg State.tsk h :)
theorem hushed_prg (h : t.hushed = s.hushed) : t.prg = s.prg := (congrArg State.prg h :)
theorem hushed_wdg (h : t.hushed = s.hushed) : t.wdg = s.wdg := (congrArg State.wdg h :)
theorem hushed_fwu (h : t.hushed = s.hushed) : t.fwu = s.fwu := (congrArg State.fwu h :)
theorem hushed_rtc (h : t.hushed = s.hushed) : t.rtc = s.rtc := (congrArg State.rtc h :)
theorem hushed_txn (h : t.hushed = s.hushed) : t.txn = s.txn := (congrArg State.txn h :)

end

section
variable (s : State)

@[simp] theorem modCmt_hushed (f : Cmt → Cmt) : (s.modCmt f).hushed = s.hushed := rfl
@[simp] theorem modEvr_hushed (f : Evr → Evr) : (s.modEvr f).hushed = s.hushed := rfl
@[simp] theorem modHif_hushed (f : Hif → Hif) : (s.modHif f).hushed = s.hushed := rfl
@[simp] theorem modMtr_hushed (f : Mtr → Mtr) : (s.modMtr f).hushed = s.hushed := rfl
@[simp] theorem modOut_hushed (f : List Out → List Out) : (s.modOut f).hushed = s.hushed := rfl
@[simp] theorem modFree_hushed (f : Nat → Nat) : (s.modFree f).hushed = s.hushed := rfl
@[simp] theorem freeValue_hushed : (freeValue s).2.hushed = s.hushed := rfl
@[simp] theorem emit_hushed (o : Out) : (emit o s).hushed = s.hushed := rfl
@[simp] theorem modRing_hushed (q : RingId) (f : RingPair → RingPair) : (modRing q f s).hushed = s.hushed := rfl
@[simp] theorem waitDesc_hushed (q : RingId) (num : Nat) (b : Option Nat) : (waitDesc q num b s).hushed = s.hushed := rfl
@[simp] theorem modPoint_hushed (i : Fin 8) (f : MeterPoint → MeterPoint) : (modPoint i f s).hushed = s.hushed := rfl
@[simp] theorem countEnds_hushed (q : RingId) (es : List Outst) : (countEnds q es s).hushed = s.hushed := rfl
@[simp] theorem deliverMeter_hushed (ct : Nat) : (deliverMeter ct s).hushed = s.hushed := rfl

@[simp] theorem traceGen_hushed (typ flags source : Nat) (body : List Byte) (ct : Nat) :
    (traceGen typ flags source body ct s).hushed = s.hushed := by
  obtain ⟨_, h⟩ := traceGen_frame typ flags source body ct s
  rw [h]
  rfl

@[simp] theorem raise_hushed (v : Nat) : (raise v s).hushed = s.hushed := by
  obtain ⟨_, _, _, h⟩ := raise_frame v s
  rw [h]
  rfl

@[simp] theorem eventAt_hushed (cls source depth : Nat) (detail : W64) (ct : Nat) :
    (eventAt cls source depth detail ct s).hushed = s.hushed := by
  obtain ⟨_, _, _, _, _, _, h⟩ := eventAt_frame cls source depth detail ct s
  rw [h]
  rfl

@[simp] theorem event_hushed (cls : Nat) (detail : W64) : (event cls detail s).hushed = s.hushed := eventAt_hushed ..

/-- An operation of each element of a list leaves what each one leaves. -/
theorem foldl_hushed {α : Type} (g : State → α → State) (h : ∀ s x, (g s x).hushed = s.hushed) (l : List α) :
    ∀ s, (l.foldl g s).hushed = s.hushed := by
  induction l with
  | nil => exact fun _ => rfl
  | cons x l ih => exact fun s => (ih _).trans (h s x)

theorem recordLate_hushed (q : RingId) (ct : Nat) (l : List Outst) : ∀ s, (recordLate q ct l s).hushed = s.hushed := by
  induction l with
  | nil => exact fun _ => rfl
  | cons e l ih =>
    intro s
    rw [recordLate, ih]
    split
    · exact event_hushed ..
    · rfl

@[simp] theorem settle_hushed (q : RingId) : (settle q s).hushed = s.hushed := by
  unfold settle
  dsimp only
  split <;> simp [recordLate_hushed]

@[simp] theorem leaveService_hushed (q : RingId) (num : Nat) : (leaveService q num s).hushed = s.hushed := by
  unfold leaveService
  split
  · split <;> rfl
  · rfl

@[simp] theorem endDesc_hushed (q : RingId) (num : Nat) (d : Done) : (endDesc q num d s).hushed = s.hushed := by
  simp [endDesc]

/-! ## The metering unit -/

@[simp] theorem saturate_hushed (i : Fin 8) (which : Nat) (hit : Bool) : (saturate i which hit s).hushed = s.hushed := by
  unfold saturate
  split <;> simp

@[simp] theorem addEnergy_hushed (i : Fin 8) (e : Int) : (addEnergy i e s).hushed = s.hushed := by
  simp [addEnergy]

@[simp] theorem closeEnergy_hushed (i : Fin 8) : (closeEnergy i s).hushed = s.hushed := by
  unfold closeEnergy
  dsimp only
  split
  · rfl
  · split <;> simp

@[simp] theorem publish_hushed (i : Fin 8) (ct : Nat) : (publish i ct s).hushed = s.hushed := by
  unfold publish
  dsimp only
  split <;> simp

@[simp] theorem takePresets_hushed (i : Fin 8) : (takePresets i s).hushed = s.hushed := by
  unfold takePresets
  rw [foldl_hushed _ fun s x => by simp [applyPreset]]
  rfl

@[simp] theorem closePoint_hushed (ct : Nat) (i : Fin 8) : (closePoint ct i s).hushed = s.hushed := by
  unfold closePoint
  dsimp only
  rw [modPoint_hushed, takePresets_hushed]
  split <;> simp

@[simp] theorem stepMeter_hushed (target : Nat) : (stepMeter target s).hushed = s.hushed := by
  unfold stepMeter
  rw [modMtr_hushed, deliverMeter_hushed]
  split
  · exact foldl_hushed _ (fun s i => closePoint_hushed ..) _ _
  · rfl

end

end Sys2Proof.Machine

/-! # Chip time, its quality, and IEEE 802.1AS (R62 to R71, R342, R649) -/

namespace Sys2Proof.Machine

section
variable {s t : State}

/-! ## Rules of the operations on chip time -/

@[simp] theorem event_clk (c : Nat) (d : W64) (s : State) : (event c d s).clk = s.clk := hushed_clk (event_hushed ..)
@[simp] theorem event_tim (c : Nat) (d : W64) (s : State) : (event c d s).tim = s.tim := hushed_tim (event_hushed ..)
@[simp] theorem event_sys (c : Nat) (d : W64) (s : State) : (event c d s).sys = s.sys := hushed_sys (event_hushed ..)

/-- A record of the time quality leaves everything but the trace. -/
@[simp] theorem qualityRecord_hushed (a b : Quality) (v : Int) (s : State) : (qualityRecord a b v s).hushed = s.hushed :=
  traceGen_hushed ..

@[simp] theorem qualityRecord_tim (a b : Quality) (v : Int) (s : State) : (qualityRecord a b v s).tim = s.tim :=
  hushed_tim (qualityRecord_hushed ..)

@[simp] theorem qualityRecord_clk (a b : Quality) (v : Int) (s : State) : (qualityRecord a b v s).clk = s.clk :=
  hushed_clk (qualityRecord_hushed ..)

/-- A step of chip time sets it, and counts in the time base (R63). -/
theorem stepTime_time (target : Nat) (s : State) :
    (stepTime target s).clk = { s.clk with ct := target, frac := 0 } ∧
    (stepTime target s).tim = { s.tim with base := s.tim.base + 1, slew := false, codes := [] } := by
  have h := stepMeter_hushed s target
  simp only [stepTime, event_clk, event_tim, State.modFio, State.modTim, State.modClk, hushed_clk h, hushed_tim h]
  exact ⟨trivial, trivial⟩

/-- A change of the quality leaves the clocks, and sets only what follows the quality (R66). -/
theorem setQuality_time (q : Quality) (v : Int) (s : State) :
    (setQuality q v s).clk = s.clk ∧ (setQuality q v s).tim.quality = q ∧
    ∃ c g h, (setQuality q v s).tim = { s.tim with quality := q, codes := c, goodSyncs := g, holdoverAt := h } := by
  unfold setQuality
  split
  next h =>
    subst h
    exact ⟨rfl, rfl, _, _, _, rfl⟩
  next =>
    simp only [event_clk, event_tim, qualityRecord_clk, qualityRecord_tim]
    exact ⟨rfl, rfl, _, _, _, rfl⟩

/-- What a Sync makes of the quality leaves the clocks, the time base and the rate. -/
theorem syncQuality_time (o : Int) (s : State) :
    (syncQuality o s).clk = s.clk ∧ (syncQuality o s).tim.base = s.tim.base ∧ (syncQuality o s).tim.rate = s.tim.rate := by
  have hq : ∀ q, (setQuality q o s).clk = s.clk ∧ (setQuality q o s).tim.base = s.tim.base ∧ (setQuality q o s).tim.rate = s.tim.rate := by
    intro q
    obtain ⟨hc, -, _, _, _, ht⟩ := setQuality_time q o s
    rw [ht]
    exact ⟨hc, rfl, rfl⟩
  unfold syncQuality
  split
  · split
    · exact hq _
    · exact ⟨rfl, rfl, rfl⟩
  · split
    · split
      · exact hq _
      · exact ⟨rfl, rfl, rfl⟩
    · exact ⟨rfl, rfl, rfl⟩

/-- Chip time that is not seeded keeps its role. -/
theorem selectRole_unseeded (h : s.tim.seeded = false) : selectRole s = s := by
  simp [selectRole, h]

/-! ## Setting chip time -/

/-- TIM_SET of the host while no program runs in cycles (R63, R66). -/
theorem hostSetTime_time (target : Nat) (s : State) :
    (hostSetTime target s).clk.ct = target ∧ (hostSetTime target s).clk.now = s.clk.now ∧
    (hostSetTime target s).tim.base = s.tim.base + 1 ∧ (hostSetTime target s).tim.source = 2 ∧
    (hostSetTime target s).tim.seeded = s.tim.seeded ∧
    (hostSetTime target s).tim.quality = if s.tim.grandmaster then .locked else .free := by
  obtain ⟨hc, ht⟩ := stepTime_time target s
  generalize hn : (if s.tim.grandmaster then Quality.locked else Quality.free) = new
  simp only [hostSetTime, hn]
  split
  next hq =>
    simp only [qualityRecord_clk, qualityRecord_tim, State.modTim, hc, ht]
    exact ⟨trivial, trivial, trivial, trivial, trivial, hq⟩
  next =>
    obtain ⟨hc', hq', _, _, _, ht'⟩ := setQuality_time new ((target : Int) - s.clk.ct)
      ((stepTime target s).modTim fun t => { t with source := 2 })
    refine ⟨?_, ?_, ?_, ?_, ?_, hq'⟩
    · rw [hc']
      simp only [State.modTim, hc]
    · rw [hc']
      simp only [State.modTim, hc]
    · rw [ht']
      simp only [State.modTim, ht]
    · rw [ht']
      rfl
    · rw [ht']
      simp only [State.modTim, ht]

/-- The chip time that a write of TIM_SET_HI sets (R12). -/
def timTarget (hi : W32) (s : State) : Nat := hi.toNat * 4294967296 + ((assoc? 0x4018 s.bar.held).getD 0).toNat

/-- What a write of TIM_SET_HI leaves held. -/
def timReleased (s : State) : State := s.modBar fun b => { b with held := b.held.filter fun x => x.1 != 0x4018 }

theorem writeTimSet_eq (hi : W32) (s : State) : writeTimSet hi s =
    if inCycles s then event 0x0C02 (det [(8, timTarget hi s)]) (timReleased s)
    else selectRole (hostSetTime (timTarget hi s) (timReleased s)) := rfl

/-! ## Following and seeding -/

theorem natAbs_clampInt {b x : Int} (hb : 0 ≤ b) : (clampInt (-b) b x).natAbs ≤ b.natAbs := by
  unfold clampInt
  omega

/-- A Sync in cycles slews chip time at a bounded rate (R62). -/
theorem takeSync_slews (o : Int) (h : inCycles s = true) : (takeSync o s).clk = s.clk ∧ (takeSync o s).tim.base = s.tim.base ∧
    (takeSync o s).tim.rate.natAbs ≤ 200000000 := by
  simp only [takeSync, h, Bool.not_true, Bool.false_and, Bool.false_eq_true, if_false, syncQuality_time]
  exact ⟨rfl, rfl, natAbs_clampInt (by decide)⟩

/-- A Sync beyond 1 ms outside cycles steps chip time (R63). -/
theorem takeSync_steps {o : Int} (h : inCycles s = false) (ho : 1000000 < o.natAbs) :
    (takeSync o s).clk.ct = ((s.clk.ct : Int) - o).toNat ∧ (takeSync o s).tim.base = s.tim.base + 1 := by
  simp only [takeSync, h, Bool.not_false, Bool.true_and, ho, decide_true, if_true, qualityRecord_clk, qualityRecord_tim, stepTime_time,
    syncQuality_time]
  exact ⟨rfl, rfl⟩

/-- The port that is followed is no part of the clocks, of the quality or of the role. -/
theorem followPort_time (p : Option PortId) (s : State) : (followPort p s).clk = s.clk ∧ (followPort p s).sys = s.sys ∧
    (followPort p s).tim.quality = s.tim.quality ∧ (followPort p s).tim.grandmaster = s.tim.grandmaster := by
  unfold followPort
  split
  · exact ⟨rfl, rfl, rfl, rfl⟩
  · simp only [event_clk, event_sys, event_tim]
    exact ⟨rfl, rfl, rfl, rfl⟩

/-- An end station that is no grandmaster stays none (R70, R71). -/
theorem selectRole_endStation (hg : s.tim.grandmaster = false) (hr : timRole s = 0) :
    (selectRole s).clk = s.clk ∧ (selectRole s).sys = s.sys ∧ (selectRole s).tim.quality = s.tim.quality := by
  have hrole : (chooseRole s).1 = false := by simp only [chooseRole, hr]
  obtain ⟨hc, hs, hq, hm⟩ := followPort_time (chooseRole s).2 s
  unfold selectRole
  split
  · rw [setGrandmaster, if_pos (by rw [hm, hg, hrole])]
    exact ⟨hc, hs, hq⟩
  · exact ⟨rfl, rfl, rfl⟩

theorem pairMember_congr (hp : t.rwp = s.rwp) : pairMember t = pairMember s := by
  rw [pairMember, pairMember, hp]

theorem hasAuthority_congr (hp : t.rwp = s.rwp) (ha : t.pair = s.pair) : hasAuthority t = hasAuthority s := by
  rw [hasAuthority, hasAuthority, pairMember_congr hp, ha]

/-- The role follows the settings and the pair alone. -/
theorem timRole_congr (hw : t.rws = s.rws) (hp : t.rwp = s.rwp) (ha : t.pair = s.pair) : timRole t = timRole s := by
  rw [timRole, timRole, pairMember_congr hp, hasAuthority_congr hp ha, hw]

/-- Chip time as the calendar seeds it (R67). -/
def seededTo (ct : Nat) (s : State) : State :=
  (s.modClk fun c => { c with ct := ct, frac := 0 }).modTim fun t =>
    { t with seeded := true, source := 1, quality := .seeded, savedAt := s.clk.now }

/-- The state in which the role is chosen after chip time was seeded from the calendar. -/
def seededStep (ct : Nat) (s : State) : State :=
  (event 0x0C03 (det [(1, Quality.free.code), (1, Quality.seeded.code)]) (qualityRecord .free .seeded 0 (seededTo ct s))).modSys fun y =>
    { y with step := 6 }

theorem seedTime_calendar (ct : Nat) (s : State) : seedTime ct 1 .seeded s = selectRole (seededStep ct s) := rfl

/-- Chip time once it is seeded from the calendar (R66, R67). -/
theorem seedTime_endStation (ct : Nat) (hg : s.tim.grandmaster = false) (hr : timRole s = 0) :
    (seedTime ct 1 .seeded s).clk.ct = ct ∧ (seedTime ct 1 .seeded s).tim.quality = .seeded ∧ (seedTime ct 1 .seeded s).sys.step = 6 := by
  have he : (event 0x0C03 (det [(1, Quality.free.code), (1, Quality.seeded.code)])
      (qualityRecord .free .seeded 0 (seededTo ct s))).hushed = (seededTo ct s).hushed :=
    (event_hushed ..).trans (qualityRecord_hushed ..)
  have hclk : (seededStep ct s).clk = (seededTo ct s).clk := (hushed_clk he :)
  have htim : (seededStep ct s).tim = (seededTo ct s).tim := (hushed_tim he :)
  have hrole : timRole (seededStep ct s) = 0 :=
    (timRole_congr (s := seededTo ct s) (hushed_rws he) (hushed_rwp he) (hushed_pair he)).trans hr
  obtain ⟨hc, hs, hq⟩ := selectRole_endStation ((congrArg Tim.grandmaster htim).trans hg) hrole
  rw [seedTime_calendar, hc, hs, hq, hclk, htim]
  exact ⟨rfl, rfl, rfl⟩

/-- The low 16 bits of a word as a number. -/
theorem toNat_and_low16 (w : W32) : (w &&& 0xFFFF#32).toNat = w.toNat % 65536 := by
  rw [BitVec.toNat_and]
  exact Nat.and_two_pow_sub_one_eq_mod w.toNat 16

/-- The low 12 bits of a word as a number. -/
theorem toNat_and_low12 (w : W32) : (w &&& 0xFFF#32).toNat = w.toNat % 4096 := by
  rw [BitVec.toNat_and]
  exact Nat.and_two_pow_sub_one_eq_mod w.toNat 12

/-! ## CHIP_TIME_SEED by its conditions -/

theorem chipTimeSeed_calendar (h5 : s.sys.step = 5) (hr : s.sys.inReset = false) (hv : s.rtc.valid = true) :
    exec .chipTimeSeed s = .next (if rtcTicks s = 0 then seedFromCalendar s else s) := by
  simp only [exec, execChipTimeSeed, h5, hr, hv, ne_eq, not_true_eq_false, Bool.false_eq_true, or_self, if_false, if_true]
  split <;> rfl

theorem chipTimeSeed_saved (h5 : s.sys.step = 5) (hr : s.sys.inReset = false) (hv : s.rtc.valid = false) :
    exec .chipTimeSeed s = .next (seedTime (savedTime s + 60000000000) 0 .free s) := by
  simp only [exec, execChipTimeSeed, h5, hr, hv, ne_eq, not_true_eq_false, Bool.false_eq_true, or_self, if_false]

theorem syncReceived_followed {p : PortId} (o : Int) (hs : s.tim.seeded = true) (hp : s.tim.slavePort = some p) :
    exec (.syncReceived p ⟨ptpDomain s, o⟩) s = .next (syncFrom o s) := by
  simp [exec, execSyncReceived, hs, hp]

theorem syncReceived_ignored {p : PortId} {d : Nat} {o : Int} (h : s.tim.seeded = false ∨ s.tim.slavePort ≠ some p ∨ d ≠ ptpDomain s) :
    exec (.syncReceived p ⟨d, o⟩) s = .next s := by
  have hno : ¬ (s.tim.seeded && s.tim.slavePort == some p && d == ptpDomain s) = true := by
    simp only [Bool.and_eq_true, beq_iff_eq]
    rintro ⟨⟨hs, hp⟩, hd⟩
    rcases h with h | h | h
    · rw [hs] at h
      cases h
    · exact h hp
    · exact h hd
  simp only [exec, execSyncReceived, if_neg hno]

end

/-- Settles O16: setting and following by whether a program runs in cycles, seeding by the calendar, saving by the time passed. -/
theorem chipTime : Obligations.ChipTime := by
  refine ⟨fun hi s hc hs => ?_, fun p o s hs hp _ => syncReceived_followed o hs hp, fun s hs hv hr ht => ?_,
    fun s h5 hr => ⟨chipTimeSeed_saved h5 hr, fun hv ht => ?_, fun hv ht => ?_⟩, fun hi s hc => ?_, fun o s => takeSync_slews o,
    fun o s => takeSync_steps, fun p d o s => syncReceived_ignored, fun ct s => seedTime_endStation ct, fun s h5 => ?_, fun s ht => ?_⟩
  · obtain ⟨hct, hnow, hbase, hsrc, hseed, hq⟩ := hostSetTime_time (timTarget hi s) (timReleased s)
    have hw : writeTimSet hi s = hostSetTime (timTarget hi s) (timReleased s) := by
      rw [writeTimSet_eq, hc, if_neg Bool.false_ne_true]
      exact selectRole_unseeded (hseed.trans hs)
    exact ⟨_, congrArg Host.Outcome.next hw, hct, hnow, hbase, hsrc, hq⟩
  · simp [exec, execChipTimeSave, chipUp, hs, hv, hr, ht]
  · rw [chipTimeSeed_calendar h5 hr hv, if_pos ht]
    simp only [seedFromCalendar, toNat_and_low16]
    split <;> rfl
  · rw [chipTimeSeed_calendar h5 hr hv, if_neg ht]
  · exact congrArg _ ((writeTimSet_eq hi s).trans (if_pos hc))
  · simp only [exec, execChipTimeSeed, if_pos (Or.inl h5)]
  · simp [exec, execChipTimeSave, Nat.not_le.mpr ht]

/-- Settles O17: each row by the quality or the fault, and by the time passed. -/
theorem timeQuality : Obligations.TimeQuality := by
  intro s mv
  refine ⟨fun ⟨hq, hg, ht⟩ hp => ?_, fun hq ht => ?_, fun hf => ?_, fun b hf hb ht => ?_, fun hv ht hm => ?_, rfl,
    fun p ⟨hq, hg, ht⟩ hp => ?_, fun hq => ?_, fun hq => ?_, fun q v _ => ?_, fun hf => ?_, fun hf => ?_, fun hv ht hm hr => ?_⟩
  · simp [exec, execSyncReceiptTimeout, hq, hg, ht, hp]
  · rw [← toNat_and_low12] at ht
    simp only [exec, execHoldoverExpiry, if_pos (And.intro hq ht)]
  · simp [exec, execRefclkFaultSet, hf]
  · simp [exec, execRefclkFaultClear, hf, hb, ht]
  · simp [exec, execVbatCheck, hv, ht, Nat.not_lt.mpr hm]
  · simp [exec, execSyncReceiptTimeout, hq, hg, ht, hp]
  · simp [exec, execSyncReceiptTimeout, hq]
  · simp [exec, execHoldoverExpiry, hq]
  · obtain ⟨hc, hqq, -⟩ := setQuality_time q v s
    exact ⟨hqq, hc⟩
  · simp [exec, execRefclkFaultSet, hf]
  · simp [exec, execRefclkFaultClear, hf]
  · have hup : chipUp (s.modRtc fun r => { r with vbatAt := s.clk.now, vbatLow := true }) = true := by simp [chipUp, State.modRtc, hv, hr]
    simp [exec, execVbatCheck, hv, ht, hm, rtcEvent, hup]

section
variable {p : PortId} {s : State}

/-! ## Ports -/

/-- A module that is neither seeded nor locked keeps the Announce and does nothing more. -/
theorem announceReceived_quiet (a : PtpAnnounce) (hs : s.tim.seeded = false) (hq : s.tim.quality ≠ .locked) :
    exec (.announceReceived p ⟨ptpDomain s, a⟩) s = .next (keepAnnounce p a s) := by
  have hk : (keepAnnounce p a s).tim.seeded = false ∧ (keepAnnounce p a s).tim.quality ≠ .locked := by
    unfold keepAnnounce
    split
    · exact ⟨hs, hq⟩
    · exact ⟨hs, hq⟩
  simp only [exec, execAnnounceReceived, if_true, selectRole_unseeded hk.1, takeUtcOffset, hk.2, false_and, if_false]

/-- A port that does not take part sends no time. -/
theorem sendsTime_disabled (h : portEnabled s p = false) : sendsTime s p = false := by
  simp [sendsTime, h]

/-- Before its gate time a ring port sends nothing (R342). -/
theorem ptpMessageTransmit_closed (k : PtpKind) (h : portClosed s p = true) : exec (.ptpMessageTransmit p k) s = .next s := by
  simp only [exec, execPtpMessageTransmit, h, if_true]

/-- A port that does not take part neither answers nor sends. -/
theorem port_disabled (h : portEnabled s p = false) (m : PdelayMessage) (k : PtpKind) :
    exec (.pdelayMessageReceived p m) s = .next s ∧ exec (.ptpMessageTransmit p k) s = .next s := by
  constructor
  · simp [exec, execPdelayMessageReceived, h]
  · cases k <;> simp [exec, execPtpMessageTransmit, h, sendsTime_disabled h]

end

/-- Settles O18: each message by whether the port takes part, by its gate and by its interval. -/
theorem portMessages : Obligations.PortMessages := by
  intro p s a seq ns
  refine ⟨fun he hc ⟨hs, hq⟩ => ?_, fun ha ht => ?_, fun he hc => ?_, fun hs hc ht => ?_, fun hs hc ht => ?_, fun he hc ht => ?_,
    fun he => ?_, fun he hc => ?_, fun n h ⟨hs, hq⟩ => ?_, fun hq hp hu hne hm => ?_, fun ha => ?_, fun k => ptpMessageTransmit_closed k,
    fun he m k => port_disabled he m k⟩
  · rw [announceReceived_quiet a hs hq]
    simp [keepAnnounce, he, hc]
  · simp only [exec, execAnnounceReceiptTimeout, if_pos (And.intro ha ht)]
  · simp [exec, execPdelayMessageReceived, he, hc, answerPdelay]
  · simp [exec, execPtpMessageTransmit, hs, hc, ht]
  · simp [exec, execPtpMessageTransmit, hs, hc, ht]
  · simp [exec, execPtpMessageTransmit, he, hc, ht]
  · simp only [exec, execPdelayMessageReceived, if_pos he]
  · simp [exec, execPdelayMessageReceived, he, hc]
  · by_cases hn : n = ptpDomain s
    · subst hn
      have hno : (portEnabled s p && (s.tim.ports.get p).asCapable) = false := by
        rw [Bool.and_eq_false_iff]
        simpa using h
      rw [announceReceived_quiet a hs hq]
      simp [keepAnnounce, hno]
    · simp only [exec, execAnnounceReceived, if_neg hn]
  · have hmir : mirrors (rwpSet (fun r => { r with taiUtc := a.utcOffset.setWidth 32 }) s) = false := hm
    simp only [takeUtcOffset, if_pos (And.intro hq (And.intro hp (And.intro hu hne))), mirrorTime, mirror_alone hmir]
    rfl
  · simp [exec, execAnnounceReceiptTimeout, ha]

end Sys2Proof.Machine

/-! # The real-time clock (R554 to R570) -/

namespace Sys2Proof.Machine

section
variable {s : State}

/-! ## Counting -/

/-- A second passes once 32,768 ticks have passed, while counting is not halted (R554). -/
theorem rtcSecond_due (hh : s.rtc.halt = false) (ht : s.rtc.secAt + 32768 ≤ (crystalTick s : Int)) :
    exec .rtcSecond s = .next (secondPasses s) := by
  simp [exec, execRtcSecond, hh, ht]

theorem rtcSecond_early (h : ¬ (s.rtc.halt = false ∧ s.rtc.secAt + 32768 ≤ (crystalTick s : Int))) : exec .rtcSecond s = .next s := by
  have hno : ¬ (!s.rtc.halt && decide (s.rtc.secAt + 32768 ≤ (crystalTick s : Int))) = true := by simpa using h
  simp only [exec, execRtcSecond, if_neg hno]

/-- A second that is not the last, with no alarm armed (R554). -/
theorem secondPasses_counts (hl : s.rtc.cal.last = false) (ha : s.rtc.arm = false) :
    secondPasses s = s.modRtc fun r => { r with secAt := r.secAt + 32768, cal := r.cal.next } := by
  simp [secondPasses, hl, alarmLive, State.modRtc, ha]

/-- The last second of the calendar clears VALID (R555). -/
theorem secondPasses_wraps (hl : s.rtc.cal.last = true) (hu : chipUp s = true) :
    secondPasses s = event 0x0808 0 (s.modRtc fun r =>
      { r with secAt := r.secAt + 32768, cal := r.cal.next, valid := false, dateOk := false }) := by
  have hup : chipUp (clearValid (s.modRtc fun r => { r with secAt := r.secAt + 32768, cal := r.cal.next })) = true := hu
  simp only [secondPasses, hl, if_true, rtcEvent, hup]
  rfl

/-! ## Setting and halting -/

/-- The calendar that the held date and a word of RTC_TIME spell (R559). -/
def spelled (w : W32) (s : State) : Calendar := Calendar.ofWords ((assoc? 0x6004 s.bar.held).getD s.rtc.cal.dateWord) w

/-- What a write of RTC_TIME leaves held. -/
def dateReleased (s : State) : State := s.modBar fun b => { b with held := b.held.filter fun x => x.1 != 0x6004 }

theorem rtcTimeWrite_valid {w : W32} (h : (spelled w s).valid = true) :
    exec (.rtcTimeWrite w) s = .next (setCalendar (spelled w s) false (accepted (assoc? 0x6004 s.bar.held).isSome (dateReleased s))) :=
  congrArg Host.Outcome.next (if_pos h)

theorem rtcTimeWrite_bad {w : W32} (h : (spelled w s).valid = false) : exec (.rtcTimeWrite w) s = .next (refuseTime (dateReleased s)) :=
  congrArg Host.Outcome.next (if_neg (Bool.eq_false_iff.mp h))

/-- While counting is halted and the chip does not run, the calendar is set and nothing more (R558, R563). -/
theorem setCalendar_halted (c : Calendar) (sync : Bool) (hh : s.rtc.halt = true) (hu : chipUp s = false) :
    setCalendar c sync s = s.modRtc fun r => { r with cal := c, secAt := crystalTick s, setAt := crystalTick s } := by
  have hup : chipUp (s.modRtc fun r => { r with cal := c, secAt := crystalTick s, setAt := crystalTick s }) = false := hu
  simp [setCalendar, hh, rtcEvent, hup]

/-- Arming at or after the alarm time fires at once (R563). -/
theorem writeAlarmCtrl_late {w : W32} (hw : w.getLsbD 0 = true) (hv : s.rtc.valid = true) (hk : alarmKey s ≤ s.rtc.cal.key)
    (hu : chipUp s = true) : writeAlarmCtrl w s = raise 40 (event 0x0802 (det [(1, 1)]) (s.modRtc fun r =>
      { r with arm := false, fired := true, skipped := true })) := by
  have hlive : (alarmLive (s.modRtc fun r =>
      { r with arm := w.getLsbD 0, fired := r.fired && !w.getLsbD 1, skipped := r.skipped && !w.getLsbD 2 }) &&
      decide (alarmKey s ≤ s.rtc.cal.key)) = true := by simp [alarmLive, State.modRtc, hw, hv, hk]
  have hup : ∀ f, chipUp (s.modRtc f) = true := fun _ => hu
  have hmod : ∀ f g, (s.modRtc f).modRtc g = s.modRtc fun r => g (f r) := fun _ _ => rfl
  unfold writeAlarmCtrl
  refine (if_pos hlive).trans ?_
  simp only [fireAlarm, hmod, hup, if_true, bit]

/-- Without arming, an alarm control word clears what it names (R564). -/
theorem writeAlarmCtrl_off {w : W32} (hw : w.getLsbD 0 = false) : writeAlarmCtrl w s = s.modRtc fun r =>
    { r with arm := false, fired := r.fired && !w.getLsbD 1, skipped := r.skipped && !w.getLsbD 2 } := by
  simp only [writeAlarmCtrl, alarmLive, State.modRtc, hw, Bool.false_and, Bool.false_eq_true, if_false]

end

/-- Settles O19: the second by its ticks, a write of the time by whether it is valid, the alarm by whether it is armed and late. -/
theorem calendar : Obligations.Calendar := by
  intro s w
  refine ⟨fun ⟨hh, ht⟩ hl ha => ?_, fun hw => congrArg _ (writeAlarmCtrl_off hw), rfl, fun hc hh hu => ?_, fun hh => ?_, fun hv => ?_,
    fun hc => ?_, rtcSecond_early, fun ⟨hh, ht⟩ hl hu => ?_, fun hw hv hk hu => congrArg _ (writeAlarmCtrl_late hw hv hk hu),
    fun hh ha => ?_, fun hv => ?_⟩
  · rw [rtcSecond_due hh ht, secondPasses_counts hl ha]
  · have hset := setCalendar_halted (s := accepted (assoc? 0x6004 s.bar.held).isSome (dateReleased s)) (spelled w s) false hh hu
    rw [rtcTimeWrite_valid hc, hset]
    exact ⟨_, rfl, rfl, rfl, rfl, rfl⟩
  · simp [exec, execRtcHalt, writeHalt, hh]
  · simp only [exec, execVbatLost, hv, Bool.false_eq_true, if_false]
    refine ⟨_, rfl, rfl, rfl, rfl, ?_, ?_⟩
    · simp only [freeValue, State.modFree, State.modRtc]
    · simp only [freeValue, State.modFree, State.modRtc]
  · exact rtcTimeWrite_bad hc
  · rw [rtcSecond_due hh ht, secondPasses_wraps hl hu]
  · simp [exec, execRtcHalt, writeHalt, hh, judgeAdjust, alarmLive, State.modRtc, ha]
  · simp only [exec, execVbatLost, hv, if_true]

section
variable {s : State}

/-! ## Synchronisation, compensation and phase -/

theorem rtcSync_waits {sec : Nat} (h : s.rtc.syncTo = some sec) :
    exec .rtcSync s = .next (if sec * 1000000000 ≤ chipUtcNs s then applySync sec s else s) := by
  simp only [exec, execRtcSync, h]
  split <;> rfl

theorem rtcSync_compares (h : s.rtc.syncTo = none) : exec .rtcSync s = .next (if syncDue s then syncRead s else s) := by
  simp only [exec, execRtcSync, h]
  split <;> rfl

/-- A phase step in the tick of no write (R566, R570). -/
theorem rtcPhaseStep_none (ha : -10000000 < accNow s) (hb : accNow s < 10000000) : exec .rtcPhaseStep s = .next s := by
  simp only [exec, execRtcPhaseStep, if_neg (Int.not_le.mpr ha), if_neg (Int.not_le.mpr hb), ite_self]

end

/-- Settles O20: freezes by what is frozen, the comparison by whether it is due, the correction by the reading. -/
theorem realTimeClock : Obligations.RealTimeClock := by
  intro s firmware temp sec f
  refine ⟨rfl, fun hn => ?_, rfl, fun hf ht => ?_, fun hs hd => ?_, fun hs ht => ?_, fun ht h1 h2 => ?_, fun hs ha => ?_, rfl, fun hf => ?_,
    fun hf ht => ?_, fun hs hd => ?_, fun hs ht => ?_, fun ht h hu => ?_, fun _ ha hb => rtcPhaseStep_none ha hb⟩
  · simp only [exec, execRtcDateRead, hn, Option.isSome_none, Bool.false_eq_true, if_false]
    rfl
  · simp only [exec, execRtcFreezeTimeout, hf, if_pos ht]
    rfl
  · rw [rtcSync_compares hs, if_pos hd]
    rfl
  · rw [rtcSync_waits hs, if_pos ht]
  · have hin : ¬ (temp < -550 ∨ 1500 < temp) := by omega
    simp only [exec, execRtcCompensation, if_pos ht, if_neg hin]
    exact ⟨_, rfl, rfl, rfl, rfl, rfl⟩
  · simp only [exec, execRtcPhaseStep, if_neg hs, if_pos ha]
  · simp only [exec, execRtcDateRead, if_pos hf]
  · simp only [exec, execRtcFreezeTimeout, hf, if_neg (Nat.not_le.mpr ht)]
  · rw [rtcSync_compares hs, if_neg (Bool.eq_false_iff.mp hd)]
  · rw [rtcSync_waits hs, if_neg (Nat.not_le.mpr ht)]
  · have hup : ∀ f, chipUp (s.modRtc f) = true := fun _ => hu
    have hmod : ∀ f g, (s.modRtc f).modRtc g = s.modRtc fun r => g (f r) := fun _ _ => rfl
    simp only [exec, execRtcCompensation, if_pos ht, if_pos h, rtcEvent, hmod, hup, if_true]

end Sys2Proof.Machine

/-! # The vote, the lane monitors, and the return of a lane (R22, R23, R188, R269 to R303) -/

namespace Sys2Proof.Machine

section
variable {t : Nat} {s : State} {a b c : EffRec}

/-! ## The vote -/

theorem lanesWith_three (hl : lanesIn s = [0, 1, 2]) (ha : headOf s t 0 = some a) (hb : headOf s t 1 = some b)
    (hc : headOf s t 2 = some c) (r : EffRec) :
    (lanesWith s t r).length = (if a = r then 1 else 0) + (if b = r then 1 else 0) + (if c = r then 1 else 0) := by
  simp only [lanesWith, hl, List.filter_cons, List.filter_nil, ha, hb, hc, beq_iff_eq, Option.some.injEq]
  split_ifs <;> rfl

/-- What the heads of three lanes agree on: the first of them that a second one equals. -/
theorem agreed_three (hl : lanesIn s = [0, 1, 2]) (ha : headOf s t 0 = some a) (hb : headOf s t 1 = some b)
    (hc : headOf s t 2 = some c) :
    agreed s t = if a = b ∨ a = c then some a else if b = c then some b else none := by
  have hn := lanesWith_three hl ha hb hc
  by_cases hab : a = b
  · subst hab
    simp [agreed, hl, ha, hn]
  · by_cases hac : a = c
    · subst hac
      simp [agreed, hl, ha, hn, hab]
    · by_cases hbc : b = c
      · subst hbc
        simp [agreed, hl, ha, hb, hn, hab, Ne.symm hab]
      · simp [agreed, hl, ha, hb, hc, hn, hab, hac, hbc, Ne.symm hab, Ne.symm hac, Ne.symm hbc]

/-- The first lane of three whose head differs. -/
theorem minority_three (hl : lanesIn s = [0, 1, 2]) (ha : headOf s t 0 = some a) (hb : headOf s t 1 = some b)
    (hc : headOf s t 2 = some c) (r : EffRec) :
    minority s t r = if a ≠ r then some (0, a) else if b ≠ r then some (1, b) else if c ≠ r then some (2, c) else none := by
  simp only [minority, hl, List.findSome?_cons, List.findSome?_nil, ha, hb, hc]
  split_ifs <;> simp_all

/-- The verdict on three heads (R270, R275, R659). -/
theorem judgeOnce_three (hm : s.vot.mode = 0) (hl : lanesIn s = [0, 1, 2]) (ha : headOf s t 0 = some a) (hb : headOf s t 1 = some b)
    (hc : headOf s t 2 = some c) :
    judgeOnce t s =
      if a = b then (if a = c then some (passAgreed t a s) else some (passAgreed t a (minorityFault 2 c s)))
      else if a = c then some (passAgreed t a (minorityFault 1 b s))
      else if b = c then some (passAgreed t b (minorityFault 0 a s))
      else some (noMajority a s) := by
  have hs : ((lanesIn s).filterMap fun l => headOf s t l) = [a, b, c] := by simp [hl, ha, hb, hc]
  simp only [judgeOnce, hm, agreed_three hl ha hb hc, hs]
  by_cases hab : a = b
  · subst hab
    by_cases hac : a = c
    · subst hac
      simp [minority_three hl ha hb hc]
    · simp [minority_three hl ha hb hc, hac, Ne.symm hac]
  · by_cases hac : a = c
    · subst hac
      simp [minority_three hl ha hb hc, hab, Ne.symm hab]
    · by_cases hbc : b = c
      · subst hbc
        simp [minority_three hl ha hb hc, hab]
      · simp [hab, hac, hbc]

/-- The verdict on two heads (R270, R288). -/
theorem judgeOnce_two {x y : LaneId} (hm : s.vot.mode = 1) (hl : lanesIn s = [x, y]) (ha : headOf s t x = some a)
    (hb : headOf s t y = some b) :
    judgeOnce t s = if a = b then some (passAgreed t a s) else some (twoLaneFault 0x0102 t none (recDetail b) s) := by
  simp only [judgeOnce, hm, hl, List.filterMap_cons, List.filterMap_nil, ha, hb]

end

section
variable {l : LaneId} {s : State} {r : EffRec} {rest : List EffRec}

/-! ## Copies and monitors -/

/-- The copy at the front of the buffer of a lane in service (R269). -/
theorem recordCopyArrival_inService (ecc : Ecc) (d : Option Byte) (hb : (s.lanes.get l).buffer = r :: rest)
    (hs : (s.lanes.get l).state = .inService) :
    exec (.recordCopyArrival l ecc d) s = .next (let s1 := modLane l (fun x => { x with buffer := rest }) s
      if ecc = .bad then
        judgeAll (laneFault 0x0107 r.task.toNat l (recDetail r) (modLane l (fun x => { x with uncorr := satInc x.uncorr 1 }) s1))
      else
        let s2 := if ecc = .corrected then countCorrected (.lane l) s1 else s1
        d.elim (arrive l r s2) fun v => voterFault v s2) := by
  simp only [exec, execRecordCopyArrival, hb, hs, ne_eq, not_true_eq_false, if_false]
  split
  · rfl
  · cases d <;> rfl

/-- Outside its limits for more than 2 µs a regulator is a fault of its lane (R23). -/
theorem laneSupplyFault_eq (mv ns : Nat) :
    exec (.laneSupplyFault l ⟨mv, ns⟩) s = .next (let s1 := modLane l (fun x => { x with mv := BitVec.ofNat 16 (min 65535 mv) }) s
      if (mv < 760 ∨ 840 < mv) ∧ 2000 < ns then
        judgeAll (laneFault 0x0105 0xFF l (det [(2, mv), (1, bit (decide (800 < mv)))])
          (modLane l (fun x => { x with supplyFaults := satInc x.supplyFaults 1 }) s1))
      else s1) := by
  simp only [exec, execLaneSupplyFault]
  split <;> rfl

/-- A measurement of the clock of a lane, 10 µs after the last one (R22). -/
theorem laneFreqMeasure_due (khz : Nat) (h : (s.lanes.get l).freqAt + 10000 ≤ s.clk.now) :
    exec (.laneFreqMeasure l khz) s =
      .next (let s1 := modLane l (fun x => { x with khz := BitVec.ofNat 21 (min 2097151 khz), freqAt := s.clk.now }) s
        if khz < 960000 ∨ 1040000 < khz then judgeAll (laneFault 0x0104 0xFF l (det [(4, khz)]) s1) else s1) := by
  simp only [exec, execLaneFreqMeasure, if_neg (Nat.not_lt.mpr h)]
  split <;> rfl

end

/-- Settles O36: the vote by which heads are equal, the monitors by their limits and times. -/
theorem votingAndFaults : Obligations.VotingAndFaults := by
  intro l khz mv ns s
  refine ⟨fun r rest hb hs => ?_, fun hd h1 h2 => ?_, fun hm hn => ?_, fun r hr => ?_, fun r rest hb hs => ⟨fun v => ?_, fun d => ?_⟩,
    fun t a b c hm hl ha hb hc => ?_, fun t x y a b hm hl ha hb => ?_, fun ecc d hb => ?_, fun hd hk => ?_, fun hd => ?_, fun h => ?_,
    fun hr => ?_⟩
  · exact recordCopyArrival_inService .clean none hb hs
  · have hin : ¬ (khz < 960000 ∨ 1040000 < khz) := by omega
    rw [laneFreqMeasure_due khz hd]
    simp only [if_neg hin]
  · rw [laneSupplyFault_eq]
    simp only [if_pos (And.intro hm hn)]
  · simp only [exec, execLaneDeadline, hr]
  · exact recordCopyArrival_inService .clean (some v) hb hs
  · exact recordCopyArrival_inService .bad d hb hs
  · rw [judgeOnce_three hm hl ha hb hc]
    refine ⟨fun hab hac => ?_, fun hab hac => ?_, fun hac hab => ?_, fun hbc hab => ?_, fun hab hac hbc => ?_⟩
    · rw [if_pos hab, if_pos hac]
    · rw [if_pos hab, if_neg hac]
    · rw [if_neg hab, if_pos hac]
    · rw [if_neg hab, if_neg fun hac => hab (hac.trans hbc.symm), if_pos hbc]
    · rw [if_neg hab, if_neg hac, if_neg hbc]
  · rw [judgeOnce_two hm hl ha hb]
    exact ⟨fun hab => if_pos hab, fun hab => if_neg hab⟩
  · simp only [exec, execRecordCopyArrival, hb]
  · rw [laneFreqMeasure_due khz hd]
    simp only [if_pos hk]
  · simp only [exec, execLaneFreqMeasure, if_pos (Nat.not_le.mp hd)]
  · have hin : ¬ ((mv < 760 ∨ 840 < mv) ∧ 2000 < ns) := by omega
    rw [laneSupplyFault_eq]
    simp only [if_neg hin]
  · simp only [exec, execLaneDeadline, hr, List.find?_nil]

section
variable {l x : LaneId} {s : State} {n : Nat}

/-! ## Exclusion and return -/

/-- The lane that another one is resynchronised from is in service (R282). -/
theorem sourceLane_inService (h : sourceLane s = some x) : (s.lanes.get x).state = .inService := by
  have hm : x ∈ lanesIn s := List.mem_of_head? h
  simpa using (List.mem_filter.mp hm).2

/-- An update of one lane leaves the others. -/
theorem lane_modLane_other {y : LaneId} (h : l ≠ y) (f : Lane → Lane) (s : State) : (modLane l f s).lanes.get y = s.lanes.get y :=
  vmod_get_other _ f h

/-- The state after a final copy from lane `x` (R282, R285). -/
def finallyCopied (l x : LaneId) (n : Nat) (s : State) : State :=
  modLane l (fun y => { y with
    mem := (s.lanes.get x).mem, ctx := (s.lanes.get x).ctx, snaps := (s.lanes.get x).snaps, step := 4,
    finalDirty := (s.lanes.get l).dirty.count, finalDone := true, finalT := s.clk.ct + finalCopyNs s (s.lanes.get l).dirty.count })
    (correctedIn x n s)

theorem resyncFinalCopy_fits (hs : sourceLane s = some x) (hr : (s.lanes.get l).state = .resync) (h3 : (s.lanes.get l).step = 3)
    (hf : (s.lanes.get l).finalDone = false) (hw : windowFits s (finalCopyNs s (s.lanes.get l).dirty.count) = true)
    (hp : s.fwu.pausing = false) (hi : storeIntact s = true) :
    exec (.resyncFinalCopy l n) s = .next (finallyCopied l x n s) := by
  simp only [exec, execResyncFinalCopy, hs]
  exact if_pos ⟨hr, h3, by simp [hf], hw, by simp [hp], hi⟩

end

/-- Settles O37: the verdict, the starving and the one-lane rows by state and time, the final copy by what it takes from its source. -/
theorem laneRecovery : Obligations.LaneRecovery := by
  intro l x part us n s
  refine ⟨fun hs hv => ?_, fun hs ht => ?_, fun hm => ⟨fun ht => ?_, fun h0 => ?_, fun ht => ?_⟩, fun hs hr h3 hf hw hp hi => ?_, fun hs => ?_,
    fun hs => ?_, fun ht => ?_, fun hm => ⟨?_, ?_, ?_⟩⟩
  · simp [exec, execLaneSelfTestDone, hs, hv]
  · refine ⟨_, if_pos ⟨hs, ht⟩, ?_⟩
    rw [hushed_lanes (eventAt_hushed ..)]
    simp [closeRecovery, State.modVot]
  · simp only [exec, execOneLaneHourly, if_pos (And.intro hm ht)]
  · simp only [exec, execOneLaneExpired, if_pos (And.intro hm h0)]
  · simp only [exec, execOneLaneAllowanceSave, if_pos (And.intro hm ht)]
  · have hlx : l ≠ x := by
      rintro rfl
      have hin := sourceLane_inService hs
      rw [hr] at hin
      cases hin
    refine ⟨_, resyncFinalCopy_fits hs hr h3 hf hw hp hi, ?_⟩
    simp only [finallyCopied, lane_modLane, lane_modLane_other hlx, correctedIn, true_and]
    refine ⟨fun m hml hmx => ?_, trivial⟩
    rw [lane_modLane_other hml.symm, lane_modLane_other hmx.symm]
  · simp only [exec, execResyncFinalCopy, hs]
  · simp only [exec, execLaneSelfTestDone, if_pos (Or.inl hs)]
  · simp only [exec, execResyncStarved, if_neg fun h : _ ∧ _ => Nat.not_le.mpr ht h.2]
  · simp [exec, execOneLaneHourly, hm]
  · simp [exec, execOneLaneExpired, hm]
  · simp [exec, execOneLaneAllowanceSave, hm]

/-- Settles O38: each descriptor by the state of its lane and by the mode. -/
theorem laneDescriptors : Obligations.LaneDescriptors := by
  intro q l p s e
  refine ⟨fun h hl => next_served_finish h ?_, fun h hr => next_served_finish h ?_, fun h hm h3 hs => next_served_wait h ?_,
    fun h hm hs hx => next_served_finish h ?_, fun h hm h0 => next_served_finish h ?_, fun h hr => next_served_finish h ?_,
    fun h hm hs => next_served_finish h ?_, fun h hm h0 => next_served_finish h ?_, fun h hm hs => next_served_finish h ?_⟩
  · simp only [doLaneStatus, if_neg (Nat.not_lt.mpr hl), fields, List.append_nil]
  · simp only [doVotInject, hr, ne_eq, not_true_eq_false, if_false, fields, List.append_nil]
  · have hgo : ¬ (s.vot.mode = 3 ∨ (s.lanes.get l).state ≠ .failed) := by simp [h3, hs]
    simp only [doLaneRetest, fin?_val hm, if_neg hgo]
  · simp only [doLaneRejoin, fin?_val hm, if_pos (And.intro hs hx)]
  · simp only [doLaneExclude, fin?_val hm, h0, ne_eq, not_true_eq_false, if_false]
  · simp only [doVotInject, if_pos hr, stBadState]
  · simp only [doLaneRetest, fin?_val hm, if_pos hs, stBadState]
  · simp only [doLaneExclude, fin?_val hm, if_pos h0, stBadState]
  · have hno : ¬ (((s.lanes.get l).state = .wait ∨ (s.lanes.get l).state = .starved ∨ (s.lanes.get l).state = .hostOut) ∧
        (sourceLane s).isSome = true) := by simp [hs]
    simp only [doLaneRejoin, fin?_val hm, if_neg hno, stBadState]

end Sys2Proof.Machine

/-! # The timer and edge units, the branches, and blocks without elements

`unit_moved` says what a unit row does from what its cycle ends with: a timer's write-back is on its way into the next cycle, and an edge
writes its memory bit at once. -/

namespace Sys2Proof.Machine

/-- A unit row whose cycle ends with the working copy `e`, which holds no record and no block operation, is the move to its context and
scratchpad; where another release then takes the engine, the write-backs of the context are made at once. -/
theorem unit_moved_to {p b l en s r g} (e : Eng) (h : atBoundary s l en r) (hp : isTrigger p = true)
    (hu : unitOf p ≠ 8 ∨ (engineCtx s l r).delay = none)
    (hx : ∀ k, portsExceeded (dataPorts (engineCtx s l r).cyc p) k = false)
    (ht : trigger (envOf s l r) p b ((engOf s l r).begun p) = .ok g) (he : endCycle g = e) (hblk : e.ctx.blk = none)
    (hending : e.ctx.ending = false) (hk : e.keeps s l r) :
    moved s (issueUnit p l en b none s) l r e.ctx e.mem e.wrote ∨
      moved s (issueUnit p l en b none s) l r { e.ctx with timerWb := [] } (e.ctx.timerWb.foldl (fun m x => dataWrite m x.2.1 x.2.2) e.mem)
        (e.wrote ++ e.ctx.timerWb.flatMap fun x => linesOf x.2.1 x.2.2.length) := by
  subst he
  obtain ⟨t, hnext, hm⟩ := unit_moved h hp hu ⟨hx _, hx _⟩ ht hblk hending hk
  obtain rfl := Host.Outcome.next.inj hnext
  exact hm

/-- The same where no write-back is on its way: both cases are one move. -/
theorem unit_moved_clean {p b l en s r g} (e : Eng) (h : atBoundary s l en r) (hp : isTrigger p = true)
    (hu : unitOf p ≠ 8 ∨ (engineCtx s l r).delay = none)
    (hx : ∀ k, portsExceeded (dataPorts (engineCtx s l r).cyc p) k = false)
    (ht : trigger (envOf s l r) p b ((engOf s l r).begun p) = .ok g) (he : endCycle g = e) (hblk : e.ctx.blk = none)
    (hending : e.ctx.ending = false) (hk : e.keeps s l r) (hwb : e.ctx.timerWb = []) :
    moved s (issueUnit p l en b none s) l r e.ctx e.mem e.wrote := by
  have hsame : { e.ctx with timerWb := [] } = e.ctx := by rw [← hwb]
  have hm := unit_moved_to e h hp hu hx ht he hblk hending hk
  rw [hsame, hwb, List.foldl_nil, List.flatMap_nil, List.append_nil] at hm
  exact hm.elim id id

/-! ## Timers (R135 to R138) -/

/-- A trigger port of the timer unit (R108). -/
abbrev timerPort (p : Nat) : Prop := isTrigger p = true ∧ unitOf p = 2 ∧ ∀ t, dataPorts t p = [(t, 1, 0), (t + 1, 0, 1)]

/-- A read in one cycle and a write in the next are within the data ports (R127). -/
theorem portsExceeded_timer (t k : Nat) : portsExceeded [(t, 1, 0), (t + 1, 0, 1)] k = false := by
  by_cases hnow : t = k
  · simp [portsExceeded, hnow]
  · by_cases hnext : t + 1 = k <;> simp [portsExceeded, hnow, hnext]

/-- The context `c` with what a timer call delivers, its instance to be written back in the next cycle (R136). -/
def Ctx.timed (o : TimerOut) (off : Nat) (wb : List (Nat × Nat × List Byte)) (c : Ctx) : Ctx :=
  { c with
    tmrQ := c.tmrQ.push c.cyc 2 (flag64 o.q), tmrEt := c.tmrEt.push c.cyc 2 (BitVec.ofNat 64 o.et),
    timerWb := wb ++ [(c.cyc + 1, off, o.inst.bytes)] }

/-- A timer call on an aligned instance that is no fault (R136, R138). -/
theorem trigger_timer {env : EngEnv} {p : Nat} {b : W64} {g : Eng} {o : TimerOut} (hu : unitOf p = 2)
    (hoff : g.ctx.tmrInst.toNat % 0x400000 % 16 = 0)
    (ho : timerCall p (env.rel.ct % 2 ^ 64) g.ctx.tmrPreset.toNat (b != 0) (timerAt g.start (g.ctx.tmrInst.toNat % 0x400000)) = .ok o) :
    trigger env p b g = .ok { g with ctx := g.ctx.timed o (g.ctx.tmrInst.toNat % 0x400000) g.ctx.timerWb } := by
  simp only [trigger, hu, tmrTrig, hoff, ne_eq, not_true_eq_false, if_false, ho]
  rfl

/-- At a bundle boundary the cycle of a timer call ends with its write-back on its way. -/
theorem endCycle_timer {p l en s r} {o : TimerOut} {off : Nat} (h : atBoundary s l en r) (hp : timerPort p) :
    let c := engineCtx s l r
    endCycle { (engOf s l r).begun p with ctx := (((engOf s l r).begun p).ctx).timed o off ((engOf s l r).begun p).ctx.timerWb } =
      { engOf s l r with ctx := { c.nextBundle with
        tmrQ := c.tmrQ.push c.cyc 2 (flag64 o.q), tmrEt := c.tmrEt.push c.cyc 2 (BitVec.ofNat 64 o.et),
        timerWb := [(c.cyc + 1, off, o.inst.bytes)], resv := [(c.cyc + 1, 0, 1)] } } := by
  intro c
  obtain ⟨-, -, -, -, -, hstarted, -, -, hwb, hbranch, -⟩ := h
  have hctx : (engOf s l r).ctx = c := rfl
  have hlate : ¬ c.cyc + 1 ≤ c.cyc := by omega
  simp [endCycle, Eng.flush, Ctx.timed, Eng.begun, Ctx.nextBundle, hp.2.2, hctx, show c.timerWb = [] from hwb,
    show c.started = [] from hstarted, show c.branch = none from hbranch]

/-- The row of a timer port: the results two cycles on, and the instance written one cycle later, at once where the engine goes on to another
context (R136). -/
theorem timerRow {p b l en s r} {o : TimerOut} (h : atBoundary s l en r) (hp : timerPort p) :
    let c := engineCtx s l r
    let m := (s.lanes.get l).mem
    let off := c.tmrInst.toNat % 0x400000
    let d (wb : List (Nat × Nat × List Byte)) : Ctx := { c.nextBundle with
      tmrQ := c.tmrQ.push c.cyc 2 (flag64 o.q), tmrEt := c.tmrEt.push c.cyc 2 (BitVec.ofNat 64 o.et), timerWb := wb, resv := [(c.cyc + 1, 0, 1)] }
    off % 16 = 0 → timerCall p (r.ct % 2 ^ 64) c.tmrPreset.toNat (b != 0) (timerAt m off) = .ok o →
      moved s (issueUnit p l en b none s) l r (d [(c.cyc + 1, off, o.inst.bytes)]) m [] ∨
        moved s (issueUnit p l en b none s) l r (d []) (dataWrite m off o.inst.bytes) (linesOf off o.inst.bytes.length) := by
  intro c m off d hoff ho
  have ⟨_, _, _, _, hblk, _, _, hending, _, _, _⟩ := h
  have hm := unit_moved_to _ h hp.1 (.inl (by rw [hp.2.1]; decide)) (fun k => by rw [hp.2.2]; exact portsExceeded_timer _ k)
    (trigger_timer hp.2.1 hoff ho) (endCycle_timer h hp) hblk hending ⟨rfl, rfl, rfl, rfl, rfl, rfl, rfl, rfl, rfl⟩
  simp only [List.foldl_cons, List.foldl_nil, List.flatMap_cons, List.flatMap_nil, List.append_nil] at hm
  exact hm

/-! ## Edges (R139) -/

/-- What an edge port reports of its input and its memory bit: 0x1D0 a rising edge, 0x1D1 a falling one. -/
def edgeSeen (p : Nat) (x m : Bool) : Bool := if p = 0x1D0 then x && !m else !x && m

/-- The row of an edge port writes its memory bit, and its result is readable in the next context cycle. -/
theorem edgeRow {p b l en s r} {v : Bool} (h : atBoundary s l en r) (hp : endsAtOnce p) (hu : unitOf p = 3) :
    let c := engineCtx s l r
    let m := (s.lanes.get l).mem
    let at_ := bitAddr c.edgInst
    edgeSeen p (b != 0) (dataBit m at_) = v →
      moved s (issueUnit p l en b none s) l r { c.nextBundle with edgQ := c.edgQ.push c.cyc 1 (flag64 v) }
        (dataWrite m (at_ / 8) [setBit8 (memGet (dataBase + at_ / 8) m) (at_ % 8) (b != 0)]) (linesOf (at_ / 8) 1) := by
  intro c m at_ hv
  subst hv
  have ⟨_, _, _, _, hblk, hstarted, hresv, hending, hwb, hbranch, _⟩ := h
  let g : Eng := { (engOf s l r).begun p with
    ctx := { ((engOf s l r).begun p).ctx with edgQ := c.edgQ.push c.cyc 1 (flag64 (edgeSeen p (b != 0) (dataBit m at_))) },
    mem := dataWrite m (at_ / 8) [setBit8 (memGet (dataBase + at_ / 8) m) (at_ % 8) (b != 0)], wrote := linesOf (at_ / 8) 1 }
  have htrig : trigger (envOf s l r) p b ((engOf s l r).begun p) = .ok g := by
    simp only [trigger, hu]
    rfl
  have hend : endCycle g = { g with ctx := { c.nextBundle with edgQ := c.edgQ.push c.cyc 1 (flag64 (edgeSeen p (b != 0) (dataBit m at_))) } } := by
    have hctx : (engOf s l r).ctx = c := rfl
    rw [endCycle_of_noTimer hwb]
    simp [g, Eng.begun, Ctx.nextBundle, hctx, dataPorts_over _ hp, show c.started = [] from hstarted, show c.branch = none from hbranch,
      show c.resv = [] from hresv, show c.timerWb = [] from hwb]
  exact unit_moved_clean _ h hp.1 (.inl hp.2.2.2) (fun k => dataPorts_fit _ k hp) htrig hend hblk hending
    ⟨rfl, rfl, rfl, rfl, rfl, rfl, rfl, rfl, rfl⟩ hwb

/-- Settles O57: `timerRow` for the five timer ports and `edgeRow` for the two edge ports. -/
theorem timersAndEdges : Obligations.TimersAndEdges := by
  intro l en b s r h c m off times at_ edges
  have timer {i : Instr} (p : Nat) (hi : exec i s = .next (issueUnit p l en b none s)) (hp : timerPort p) : times i p :=
    fun o hoff ho => ⟨_, hi, timerRow h hp hoff ho⟩
  have edge {i : Instr} {v : Bool} (p : Nat) (hi : exec i s = .next (issueUnit p l en b none s)) (hp : endsAtOnce p) (hu : unitOf p = 3)
      (hv : edgeSeen p (b != 0) (dataBit m at_) = v) : edges i v :=
    ⟨_, hi, edgeRow h hp hu hv⟩
  refine ⟨timer 0x190 rfl ⟨rfl, rfl, fun _ => rfl⟩, timer 0x191 rfl ⟨rfl, rfl, fun _ => rfl⟩, timer 0x192 rfl ⟨rfl, rfl, fun _ => rfl⟩,
    timer 0x193 rfl ⟨rfl, rfl, fun _ => rfl⟩, timer 0x194 rfl ⟨rfl, rfl, fun _ => rfl⟩, edge 0x1D0 rfl (by decide) rfl rfl,
    edge 0x1D1 rfl (by decide) rfl ?_⟩
  have hnot : (!(b != 0)) = (b == 0) := by simp [bne]
  simp only [edgeSeen, hnot]
  rfl

/-! ## Bundles of one move (R104) -/

/-- The row of a unit, whatever number of block elements it may run, does what its bundle of one move does within the room of the budget. -/
theorem issueUnit_atBoundary {p b l en s r} (n : Option Nat) (h : atBoundary s l en r) :
    ∃ room, issueUnit p l en b n s =
      afterIssue l r (engineCtx s l r).stopIndex (issueMove p b (envOf s l r) room (engOf s l r)) s := by
  obtain ⟨hrun, -, -, hbudget, hblk, -⟩ := h
  have hctx : (engOf s l r).ctx = engineCtx s l r := rfl
  have hroom : ¬ (envOf s l r).entry.budget ≤ (engineCtx s l r).usedCycles := Nat.not_le.mpr hbudget
  simp only [issueUnit, atEngine, hrun, hctx, hroom, if_false, hblk, Option.isSome_none, Bool.false_eq_true]
  exact ⟨_, rfl⟩

/-- The one move of a unit row on a context with nothing begun or reserved starts its trigger. -/
theorem issueMoves_one {env : EngEnv} {p : Nat} {b : W64} {g : Eng} (hp : isTrigger p = true) (hu : unitOf p ≠ 8 ∨ g.ctx.delay = none)
    (hx : ∀ k, portsExceeded (dataPorts g.ctx.cyc p) k = false) (hs : g.ctx.started = []) (hr : g.ctx.resv = []) (hm : g.start = g.mem) :
    issueMoves env [{ guard := 0, src := .imm b, dst := p }] g = trigger env p b (g.begun p) := by
  have hguard : ∀ c : Ctx, guardOn c 0 = true := fun _ => rfl
  have hdelay : (g.ctx.delay.isSome && [unitOf p].contains 8) = false := by
    rcases hu with hu | hu
    · simp [Ne.symm hu]
    · simp [hu]
  have hbegun : ({ g with ctx := { g.ctx with started := [unitOf p], resv := dataPorts g.ctx.cyc p }, start := g.mem } : Eng) = g.begun p := by
    simp only [Eng.begun, hm]
  simp only [issueMoves, List.filter_cons, hguard, if_true, List.filter_nil, List.map_cons, List.map_nil, hp, moveValue, hs, hr, List.nil_append,
    List.flatMap_cons, List.flatMap_nil, List.append_nil, hasRepeat, hx, Bool.or_self, List.contains_nil, Bool.not_true,
    Bool.false_eq_true, if_false, List.foldl_nil, hdelay, runTriggers, hbegun]
  cases trigger env p b (g.begun p) <;> rfl

/-- A branch in a delay bundle is fault 5 of the bundle (R112). -/
theorem issueMoves_branch_in_delay {env : EngEnv} {p : Nat} {b : W64} {g : Eng} (hp : isTrigger p = true) (hu : unitOf p = 8)
    (hd : g.ctx.delay.isSome = true) (hs : g.ctx.started = []) :
    issueMoves env [{ guard := 0, src := .imm b, dst := p }] g = .error 5 := by
  have hguard : ∀ c : Ctx, guardOn c 0 = true := fun _ => rfl
  simp only [issueMoves, List.filter_cons, hguard, if_true, List.filter_nil, List.map_cons, List.map_nil, hp, hs, List.nil_append, hasRepeat,
    List.contains_nil, Bool.or_self, Bool.false_eq_true, if_false, hd, hu]
  rfl

/-! ## Branches (R110 to R112) -/

/-- A trigger port of the branch unit reserves no data port. -/
abbrev branchPort (p : Nat) : Prop := isTrigger p = true ∧ unitOf p = 8 ∧ ∀ t, dataPorts t p = []

theorem trigger_br {env : EngEnv} {p : Nat} {b : W64} {g : Eng} (hu : unitOf p = 8) : trigger env p b g = brTrig p b g := by
  simp only [trigger, hu]

/-- The row of a branch port: its target takes effect after the delay bundle (R111). -/
theorem branchRow {p b l en s r} {t : Int} {k : W64} (h : atBoundary s l en r) (hp : branchPort p) (hdelay : (engineCtx s l r).delay = none) :
    let c := engineCtx s l r
    brTrig p b ((engOf s l r).begun p) =
        .ok { (engOf s l r).begun p with ctx := { ((engOf s l r).begun p).ctx with branch := some t, link := k } } →
      moved s (issueUnit p l en b none s) l r { c.nextBundle with delay := some t, link := k } (s.lanes.get l).mem [] := by
  intro c ht
  have ⟨_, _, _, _, hblk, hstarted, hresv, hending, hwb, hbranch, _⟩ := h
  have hend : endCycle { (engOf s l r).begun p with ctx := { ((engOf s l r).begun p).ctx with branch := some t, link := k } } =
      { engOf s l r with ctx := { c.nextBundle with delay := some t, link := k } } := by
    have hctx : (engOf s l r).ctx = c := rfl
    rw [endCycle_of_noTimer hwb]
    simp [Eng.begun, Ctx.nextBundle, hctx, hp.2.2, show c.started = [] from hstarted, show c.branch = none from hbranch,
      show c.resv = [] from hresv, show c.timerWb = [] from hwb]
  exact unit_moved_clean _ h hp.1 (.inr hdelay) (fun k => by rw [hp.2.2]; rfl) ((trigger_br hp.2.1).trans ht) hend hblk hending
    ⟨rfl, rfl, rfl, rfl, rfl, rfl, rfl, rfl, rfl⟩ hwb

/-- The row of a branch port in a delay bundle is fault 5 of the code, and the bundle has no effect (R112). -/
theorem branchRow_in_delay {p b l en s r} (h : atBoundary s l en r) (hp : branchPort p) (hdelay : (engineCtx s l r).delay.isSome = true) :
    issueUnit p l en b none s = codeFault l r 5 (engineCtx s l r).stopIndex (commitEng l r (engOf s l r) s) := by
  have ⟨_, _, _, _, _, hstarted, _⟩ := h
  obtain ⟨room, hrow⟩ := issueUnit_atBoundary (p := p) (b := b) none h
  rw [hrow, issueMove, issueMoves_branch_in_delay (g := engOf s l r) hp.1 hp.2.1 hdelay hstarted]
  rfl

/-! ## Block operations of no elements (R140 to R143) -/

/-- A block operation that has no element left ends, whatever room it has. -/
theorem blkRun_of_empty {fs : List Forced} (fuel : Nat) {g : Eng} {p : Nat} {b : W64} {i : Int} (hb : g.ctx.blk = some (p, b, i))
    (hcnt : g.ctx.blkCnt = 0) : blkRun fs fuel g = (none, { g with ctx := blkEnd p g.ctx }) := by
  cases fuel with
  | zero => simp only [blkRun, hb, hcnt, if_true]
  | succ n => simp only [blkRun, hb, hcnt, if_true]

/-- A block trigger with a good element size and aligned ends begins its operation (R141, R144). -/
theorem trigger_blk {env : EngEnv} {p : Nat} {b : W64} {g : Eng} (hu : unitOf p = 4)
    (hn : g.ctx.blkSize = 1 ∨ g.ctx.blkSize = 2 ∨ g.ctx.blkSize = 4 ∨ g.ctx.blkSize = 8)
    (hsrc : g.ctx.blkSrc.toNat % g.ctx.blkSize.toNat = 0) (hdst : g.ctx.blkDst.toNat % g.ctx.blkSize.toNat = 0) :
    trigger env p b g = .ok { g with ctx := { g.ctx with blkRes := 0, blk := some (p, b, g.ctx.pc) } } := by
  have hsize : ¬ (g.ctx.blkSize.toNat ≠ 1 ∧ g.ctx.blkSize.toNat ≠ 2 ∧ g.ctx.blkSize.toNat ≠ 4 ∧ g.ctx.blkSize.toNat ≠ 8) := by
    rcases hn with hn | hn | hn | hn <;> simp [hn]
  simp only [trigger, hu, blkTrig, if_neg hsize, hsrc, hdst, ne_eq, not_true_eq_false, and_false, or_self, if_false]

/-- The context of a block operation of no elements when its bundle has ended (R141, R143). -/
def Ctx.blockEnded (c : Ctx) (v : W64) (q : Nat × Nat) : Ctx := { c.nextBundle with blkRes := v, blk := none, resv := [(c.cyc + 1, q)] }

theorem Ctx.blockEnded_eq {c : Ctx} (h : c.blk = none) (v : W64) (q : Nat × Nat) :
    c.blockEnded v q = { c.nextBundle with blkRes := v, resv := [(c.cyc + 1, q)] } := by
  rw [Ctx.blockEnded, ← show c.nextBundle.blk = none from h]

/-- The row of a block port with BLK_CNT 0 ends in its own bundle. -/
theorem blockRow {p l en s r} (b : W64) (n : Nat) (v : W64) (q : Nat × Nat) (h : atBoundary s l en r) (hp : isTrigger p = true) (hu : unitOf p = 4)
    (hq : ∀ t, dataPorts t p = [(t + 1, q)]) (hv : (if p = 0x212 ∨ p = 0x213 then 0xFFFFFFFFFFFFFFFF else 0) = v) (hfit : q.1 ≤ 2 ∧ q.2 ≤ 1) :
    let c := engineCtx s l r
    (c.blkSize = 1 ∨ c.blkSize = 2 ∨ c.blkSize = 4 ∨ c.blkSize = 8) → c.blkSrc.toNat % c.blkSize.toNat = 0 →
      c.blkDst.toNat % c.blkSize.toNat = 0 → c.blkCnt = 0 →
      moved s (issueUnit p l en b (some n) s) l r (c.blockEnded v q) (s.lanes.get l).mem [] := by
  intro c hsize hsrc hdst hcnt
  have ⟨hrun, hcur, hown, _, hblk, hstarted, hresv, hending, hwb, hbranch, hengine⟩ := h
  have hctx : (engOf s l r).ctx = c := rfl
  have hfits (k : Nat) : portsExceeded (dataPorts (engOf s l r).ctx.cyc p) k = false := by
    rw [hq, portsExceeded]
    by_cases hk : (engOf s l r).ctx.cyc + 1 = k <;> simp [hk, hfit]
  obtain ⟨room, hrow⟩ := issueUnit_atBoundary (p := p) (b := b) (some n) h
  let g : Eng := { (engOf s l r).begun p with ctx := { ((engOf s l r).begun p).ctx with blkRes := 0, blk := some (p, b, c.pc) } }
  have hmoves : issueMoves (envOf s l r) [{ guard := 0, src := .imm b, dst := p }] (engOf s l r) = .ok g :=
    (issueMoves_one hp (.inl (by rw [hu]; decide)) hfits hstarted hresv rfl).trans (trigger_blk hu hsize hsrc hdst)
  have hend : endCycle g = { g with ctx := { c.nextBundle with blkRes := 0, blk := some (p, b, c.pc), resv := [(c.cyc + 1, q)] } } := by
    rw [endCycle_of_noTimer hwb]
    simp [g, Eng.begun, Ctx.nextBundle, hctx, hq, show c.started = [] from hstarted, show c.branch = none from hbranch,
      show c.timerWb = [] from hwb]
  let e : Eng := { engOf s l r with ctx := c.blockEnded v q }
  have hrun' : blkRun (envOf s l r).forced room (endCycle g) = (none, e) := by
    have hended : blkEnd p (endCycle g).ctx = c.blockEnded v q := by
      rw [hend, blkEnd, ← hv]
      split <;> rfl
    rw [blkRun_of_empty room (i := c.pc) (b := b) (p := p) (by rw [hend]) (by rw [hend]; exact hcnt), hended, hend]
    rfl
  have hissue : issueMove p b (envOf s l r) room (engOf s l r) = (none, e) := by
    have hsome : (endCycle g).ctx.blk = some (p, b, c.pc) := by rw [hend]
    simp only [issueMove, hmoves, hsome, hrun']
  have hafter : afterIssue l r c.stopIndex (none, e) s = schedule l r.entry.engine (commitEng l r e s) := by
    have hno : e.ctx.ending = false := hending
    simp only [afterIssue, hno, Bool.false_and, Bool.false_eq_true, if_false]
  obtain ⟨hm, hrels, hlane, herr⟩ := commit_moved (g := e) hcur hown ⟨rfl, rfl, rfl, rfl, rfl, rfl, rfl, rfl, rfl⟩
  rw [hrow, hissue, hafter, hengine]
  have hwb' : (c.blockEnded v q).timerWb = [] := hwb
  have hsame : ({ c.blockEnded v q with timerWb := [] } : Ctx) = c.blockEnded v q := by rw [← hwb']
  have hdone := moved_schedule hcur hm ((running_congr hrels hlane).trans hrun) (runningEntry_congr herr)
  rw [show e.ctx = c.blockEnded v q from rfl, hsame, hwb', List.foldl_nil, List.flatMap_nil, List.append_nil] at hdone
  exact hdone.elim id id

/-! ## The end of a task, and whole bundles -/

/-- TSK_END puts the context back one bundle on, and the release's code ends there (R113). -/
theorem taskEndRow {l en s r} (b : W64) (h : atBoundary s l en r) :
    ∃ t, issueUnit 0x348 l en b none s = codeEnd l r t ∧
      moved s t l r { (engineCtx s l r).nextBundle with ending := true } (s.lanes.get l).mem [] := by
  have ⟨_, hcur, hown, _, hblk, hstarted, hresv, _, hwb, hbranch, _⟩ := h
  have hctx : (engOf s l r).ctx = engineCtx s l r := rfl
  let g : Eng := { (engOf s l r).begun 0x348 with ctx := { ((engOf s l r).begun 0x348).ctx with ending := true } }
  let e : Eng := { engOf s l r with ctx := { (engineCtx s l r).nextBundle with ending := true } }
  have htrig : trigger (envOf s l r) 0x348 b ((engOf s l r).begun 0x348) = .ok g := rfl
  have hend : endCycle g = e := by
    rw [endCycle_of_noTimer hwb]
    simp [g, e, Eng.begun, Ctx.nextBundle, hctx, hstarted, hbranch, hresv, hwb, dataPorts]
  have hnone : (endCycle g).ctx.blk = none := by rw [hend]; exact hblk
  refine ⟨commitEng l r e s, ?_, (commit_moved (g := e) hcur hown ⟨rfl, rfl, rfl, rfl, rfl, rfl, rfl, rfl, rfl⟩).1⟩
  have hno : (e.ctx.ending && (e.ctx.blk.isNone || decide ((runningEntry s l r).budget ≤ e.ctx.usedCycles))) = true := by
    rw [show e.ctx.blk = none from hblk]
    rfl
  obtain ⟨room, hrow⟩ := issueUnit_atBoundary (p := 0x348) (b := b) none h
  have hissue : issueMove 0x348 b (envOf s l r) room (engOf s l r) = (none, e) := by
    have hmoves : issueMoves (envOf s l r) [{ guard := 0, src := .imm b, dst := 0x348 }] (engOf s l r) = .ok g :=
      (issueMoves_one rfl (.inl (by decide)) (fun _ => rfl) hstarted hresv rfl).trans htrig
    simp only [issueMove, hmoves, hnone]
    rw [hend]
  rw [hrow, hissue]
  simp only [afterIssue, hno, if_true]

/-- BUNDLE_ISSUE of undamaged code at a bundle boundary issues the bundle at the program counter (R104). -/
theorem bundleIssue_clean {l en s r} (n : Nat) (h : atBoundary s l en r) :
    exec (.bundleIssue l en ⟨.clean, n⟩) s = .next (afterIssue l r (engineCtx s l r).stopIndex
      (issueBundle (envOf s l r) (fetchCode s) (min ((runningEntry s l r).budget - (engineCtx s l r).usedCycles - 1) n) (engOf s l r)) s) := by
  obtain ⟨hrun, -, -, hbudget, hblk, -⟩ := h
  have hctx : (engOf s l r).ctx = engineCtx s l r := rfl
  have hroom : ¬ (envOf s l r).entry.budget ≤ (engineCtx s l r).usedCycles := Nat.not_le.mpr hbudget
  refine congrArg Host.Outcome.next ?_
  simp only [atEngine, hrun, hctx, hroom, if_false, hblk, Option.isSome_none, Bool.false_eq_true, reduceCtorEq, Option.getD_some]
  rfl

/-- BUNDLE_ISSUE of damaged code is a fault of the lane (R37). -/
theorem bundleIssue_bad {l en s r} (n : Nat) (h : running s l en = some r) :
    exec (.bundleIssue l en ⟨.bad, n⟩) s = .next (judgeAll (laneFault 0x0106 r.task l
      (det [(4, (engineCtx s l r).pc.toNat * 16 + s.prg.fetch.val * 0x400000)]) (modLane l (fun x => { x with uncorr := satInc x.uncorr 1 }) s))) := by
  show execBundleIssue l en ⟨.bad, n⟩ s = _
  simp only [execBundleIssue, if_true, h]
  rfl

/-- An engine that no release holds issues nothing. -/
theorem bundleIssue_idle {l en s} (x : Within Ecc) (hx : x.value = .clean ∨ x.value = .bad) (h : running s l en = none) :
    exec (.bundleIssue l en x) s = .next s := by
  show execBundleIssue l en x s = _
  rcases hx with hx | hx
  · simp only [execBundleIssue, hx, reduceCtorEq, if_false, atEngine, h]
  · simp only [execBundleIssue, hx, if_true, h]

/-- Settles O59: `branchRow` and `branchRow_in_delay`, `blockRow`, `taskEndRow`, and the rows of a whole bundle. -/
theorem blocksAndBranches : Obligations.BlocksAndBranches := by
  intro l en b n s r c goes ends
  have branch {i : Instr} {t : Int} {k : W64} (p : Nat) (hi : exec i s = .next (issueUnit p l en b none s)) (hp : branchPort p)
      (ht : brTrig p b ((engOf s l r).begun p) =
        .ok { (engOf s l r).begun p with ctx := { ((engOf s l r).begun p).ctx with branch := some t, link := k } }) : goes i t k :=
    fun h hdelay => ⟨_, hi, branchRow h hp hdelay ht⟩
  have block {i : Instr} {v : W64} {q : Nat × Nat} (p : Nat) (hi : exec i s = .next (issueUnit p l en b (some n) s)) (hp : isTrigger p = true)
      (hu : unitOf p = 4) (hq : ∀ t, dataPorts t p = [(t + 1, q)]) (hv : (if p = 0x212 ∨ p = 0x213 then 0xFFFFFFFFFFFFFFFF else 0) = v)
      (hfit : q.1 ≤ 2 ∧ q.2 ≤ 1) : ends i v q :=
    fun h hsize hsrc hdst hcnt =>
      have ⟨_, _, _, _, hblk, _⟩ := h
      ⟨_, hi, Ctx.blockEnded_eq hblk v q ▸ blockRow b n v q h hp hu hq hv hfit hsize hsrc hdst hcnt⟩
  have ports : ∀ p, p ∈ [0x300, 0x301, 0x302, 0x303] → branchPort p := by
    simp only [List.mem_cons, List.not_mem_nil, or_false]
    rintro p (rfl | rfl | rfl | rfl) <;> exact ⟨rfl, rfl, fun _ => rfl⟩
  refine ⟨branch 0x300 rfl (ports _ (by simp)) rfl, branch 0x301 rfl (ports _ (by simp)) rfl, branch 0x302 rfl (ports _ (by simp)) rfl,
    branch 0x303 rfl (ports _ (by simp)) rfl, fun h => ?_, bundleIssue_clean n,
    block 0x210 rfl rfl rfl (fun _ => rfl) rfl (by decide), block 0x211 rfl rfl rfl (fun _ => rfl) rfl (by decide),
    block 0x212 rfl rfl rfl (fun _ => rfl) rfl (by decide), block 0x213 rfl rfl rfl (fun _ => rfl) rfl (by decide),
    fun task k => ⟨_, rfl, modLane_onlyLane .., ?_, (lane_modCtx ..).1⟩, fun h hdelay i hi => ?_, bundleIssue_bad n,
    fun h => ⟨?_, bundleIssue_idle _ (.inl rfl) h, bundleIssue_idle _ (.inr rfl) h⟩⟩
  · obtain ⟨t, ht, hm⟩ := taskEndRow 0 h
    exact ⟨t, congrArg Host.Outcome.next ht, hm⟩
  · rw [ctx_modCtx task.isLt]
    exact vmod_get_same ..
  · simp only [List.mem_cons, List.not_mem_nil, or_false] at hi
    obtain rfl | rfl | rfl | rfl := hi
    · exact congrArg Host.Outcome.next (branchRow_in_delay h (ports 0x300 (by simp)) hdelay)
    · exact congrArg Host.Outcome.next (branchRow_in_delay h (ports 0x301 (by simp)) hdelay)
    · exact congrArg Host.Outcome.next (branchRow_in_delay h (ports 0x302 (by simp)) hdelay)
    · exact congrArg Host.Outcome.next (branchRow_in_delay h (ports 0x303 (by simp)) hdelay)
  · exact congrArg Host.Outcome.next (issueUnit_of_idle h 0x348 0 none)

end Sys2Proof.Machine

/-! # The metering unit

A point changes by `modPoint` alone (`pointOf_modPoint`); the events that the unit records leave all its points. -/

namespace Sys2Proof.Machine

/-! ## Points -/

section
variable {i j : Fin 8} {f : MeterPoint → MeterPoint} {s t : State}

@[simp] theorem pointOf_modPoint_same : pointOf (modPoint i f s) i = f (pointOf s i) := vmod_get_same _ _ _

theorem pointOf_modPoint_other (h : j ≠ i) : pointOf (modPoint i f s) j = pointOf s j := vmod_get_other _ _ (Ne.symm h)

theorem pointOf_congr (h : t.mtr.points = s.mtr.points) (j : Fin 8) : pointOf t j = pointOf s j := by
  rw [pointOf, h]
  rfl

@[simp] theorem handOver_points (x : EvItem) : (handOver x s).mtr.points = s.mtr.points := by
  unfold handOver
  split <;> rfl

@[simp] theorem eventAt_points (cls source depth : Nat) (detail : W64) (ct : Nat) :
    (eventAt cls source depth detail ct s).mtr.points = s.mtr.points := by
  unfold eventAt
  split <;> simp

@[simp] theorem pointOf_event (cls : Nat) (detail : W64) (j : Fin 8) : pointOf (event cls detail s) j = pointOf s j :=
  pointOf_congr (eventAt_points ..) j

/-! ## Energy (R491 to R494) -/

/-- An accumulator at its limit sets the status bit of its point, and no more of it. -/
theorem pointOf_saturate_same (which : Nat) (hit : Bool) :
    pointOf (saturate i which hit s) i = { pointOf s i with saturated := hit || (pointOf s i).saturated } := by
  cases hit <;> simp [saturate]

theorem pointOf_saturate_other (h : j ≠ i) (which : Nat) (hit : Bool) : pointOf (saturate i which hit s) j = pointOf s j := by
  cases hit
  · rfl
  · simp [saturate, pointOf_modPoint_other h]

/-- An interval that lost a stream discards its energy and is counted (R494). -/
theorem closeEnergy_lost (h : (pointOf s i).lostSeen = true) :
    closeEnergy i s = modPoint i (fun p => { p with noload := false, lostInt := satInc p.lostInt 1 }) s := by
  simp only [closeEnergy, h, Bool.true_or, if_true]

/-- An interval below the no-load threshold adds no energy (R492). -/
theorem closeEnergy_noload (hl : (pointOf s i).lostSeen = false) (hv : (pointOf s i).vLost = false) (hi : (pointOf s i).iLost = false)
    (h : (pointOf s i).sumP.natAbs * 16 < (pointOf s i).noloadW * (pointOf s i).n * mjUnit) :
    closeEnergy i s = modPoint i (fun p => { p with noload := true }) s := by
  simp only [closeEnergy, hl, hv, hi, Bool.or_self, Bool.false_eq_true, if_false, h, if_true]

/-- The energy of an interval goes to IMPORT or EXPORT by its sign and to SEL, and only to its own point (R493). -/
theorem addEnergy_points (i : Fin 8) (e : Int) (s : State) :
    let p := pointOf s i
    let t := addEnergy i e s
    ((pointOf t i).imp = if 0 < e then min accTop (p.imp + e.natAbs) else p.imp) ∧
      ((pointOf t i).exp = if e < 0 then min accTop (p.exp + e.natAbs) else p.exp) ∧
      ((pointOf t i).sel = if p.sel.natAbs = selTop.natAbs then p.sel
        else clampInt (-selTop) selTop (p.sel + if p.selAbs then (e.natAbs : Int) else e)) ∧
      ∀ j, j ≠ i → pointOf t j = pointOf s j := by
  refine ⟨?_, ?_, ?_, fun j hj => ?_⟩
  · simp only [addEnergy, pointOf_saturate_same, pointOf_modPoint_same]
  · simp only [addEnergy, pointOf_saturate_same, pointOf_modPoint_same]
  · simp only [addEnergy, pointOf_saturate_same, pointOf_modPoint_same]
  · simp only [addEnergy, pointOf_saturate_other hj, pointOf_modPoint_other hj]

/-! ## Samples (R478, R479) -/

/-- A sample of a DC point with no phase correction adds to its sums, and only to them (R491). -/
theorem samplePoint_dc (k : Nat) (xv xi : Int) (hmode : (pointOf s i).mode = 1) (hinv : (pointOf s i).cfg.getLsbD 4 = false)
    (hphase : (s.rwp.mtrPhase.get i).extractLsb' 0 9 = 0) (hbegun : s.mtr.begun = true) :
    let p := pointOf s i
    let v := scaled xv (s.rwp.mtrCalV.get i) p.vFs
    let c := scaled xi (s.rwp.mtrCalI.get i) p.iFs
    ∃ f, samplePoint i k xv xi s = modPoint i f s ∧ (f p).n = p.n + 1 ∧ (f p).sumP = p.sumP + v * c ∧
      (f p).sumV2 = p.sumV2 + v.natAbs * v.natAbs ∧ (f p).sumI2 = p.sumI2 + c.natAbs * c.natAbs ∧ (f p).imp = p.imp ∧ (f p).exp = p.exp := by
  intro p v c
  have hon : (pointOf s i).on = true := by simp [MeterPoint.on, hmode]
  have hac : (pointOf s i).ac = false := by simp [MeterPoint.ac, hmode]
  have hzero : ((s.rwp.mtrPhase.get i).extractLsb' 0 9).toInt = 0 := by rw [hphase]; rfl
  unfold samplePoint
  simp only [hon, if_true, hinv, Bool.false_eq_true, if_false, hzero, hbegun, hac, Bool.false_and]
  exact ⟨_, rfl, rfl, rfl, rfl, rfl, rfl, rfl⟩

end

/-- Settles O25: the rows by `exec`'s arms, a sample by `samplePoint_dc`, energy by `addEnergy_points`. -/
theorem metering : Obligations.Metering := by
  refine ⟨?_, ?_, ?_⟩
  · intro x s iv
    refine ⟨fun hk hstep hreset => if_pos ⟨hk, hstep, by simp [hreset]⟩, fun hb hreset => ?_, fun hk => if_neg fun h => h.1 hk,
      fun hb => if_pos (.inl hb)⟩
    refine (if_neg (by simp [hb, hreset])).trans (congrArg Host.Outcome.next ?_)
    cases hbegun : s.mtr.begun <;> simp [iv]
  · intro i k xv xi s
    refine ⟨fun hoff => ?_, ?_⟩
    · simp only [samplePoint, hoff, Bool.false_eq_true, if_false]
    · intro hmode hinv hphase hbegun p v c t
      obtain ⟨f, hf, hn, hp, hv2, hi2, himp, hexp⟩ := samplePoint_dc k xv xi hmode hinv hphase hbegun
      simp only [t, hf, pointOf_modPoint_same]
      exact ⟨hn, hp, hv2, hi2, himp, hexp, fun j hj => pointOf_modPoint_other hj, rfl, rfl⟩
  · intro i e s p t
    obtain ⟨himp, hexp, hsel, hother⟩ := addEnergy_points i e s
    exact ⟨himp, hexp, fun h => hsel.trans (if_neg h), fun h => hsel.trans (if_pos h), hother, closeEnergy_lost, closeEnergy_noload⟩

/-! ## Supervision (R480, R485, R488 to R490) -/

/-- A point without a sag takes the begin of one where U falls below the threshold (R488, R489). -/
theorem pqJudge_sag (i : Fin 8) (u : Int) (ct : Nat) (s : State) (hsag : (pointOf s i).sag = none) :
    pqJudge i u ct s 1 =
      if (pointOf s i).vLost = false ∧ u * 100 < (s.rws.mtrPqCfg.extractLsb' 0 8).toNat * (pointOf s i).unom then
        eventAt 0x0608 0xFFFF 0 (det [(1, i.val), (1, 1)]) ct (modPoint i (fun p => { p with sag := some { start := ct, extreme := u } }) s)
      else s := by
  have hnone : (pointOf s i).pq 1 = none := hsag
  simp only [pqJudge, hnone, pqLimits, if_true, Bool.and_eq_true, Bool.not_eq_true', Nat.reduceEqDiff, if_false, decide_eq_true_eq]
  rfl

/-- Settles O26: each row by its condition, a sag by `pqJudge_sag`. -/
theorem meterSupervision : Obligations.MeterSupervision := by
  intro c us i s j cur lost
  have hrow : exec (.streamLost ⟨c, us⟩) s =
      if (pointOf s j).lost cur || decide (us < 250) then .next s else .next ((if cur then id else cutShort j) lost) := rfl
  refine ⟨fun hlost hus => ?_, fun hlost hus => if_pos ?_, fun hi hon hspan hdue => if_pos ⟨hi, hon, hspan, hdue⟩,
    fun hac hzc hdue => if_pos ?_, fun h => ?_, fun h => if_neg ?_, fun hac => if_neg ?_, fun hi => if_neg fun h => absurd h.1 (by omega),
    fun u ct hsag hu => ?_, fun u ct hsag hv hu => ?_⟩
  · simp only [hrow, hlost, Bool.false_or, decide_eq_true_eq, Nat.not_lt.mpr hus, if_false]
    cases cur <;> rfl
  · simpa using ⟨hlost, hus⟩
  · simp only [hac, hzc, Bool.not_false, Bool.and_self, Bool.true_and, decide_eq_true_eq]
    exact hdue
  · rw [hrow, if_pos (by simpa using h)]
  · rcases h with h | h
    · exact fun k => absurd (Bool.and_eq_true_iff.mp k).1 (by rw [h]; decide)
    · exact fun k => absurd (of_decide_eq_true (Bool.and_eq_true_iff.mp k).2) (Nat.not_le.mpr h)
  · simp [hac]
  · rw [pqJudge_sag i u ct s hsag]
    exact if_neg fun h => absurd h.2 (not_lt.mpr hu)
  · rw [pqJudge_sag i u ct s hsag]
    exact if_pos ⟨hv, hu⟩

/-! ## The save and the descriptors (R497, R504, R505) -/

/-- ENERGY_SAVE at a new whole second of a unit whose intervals run, outside reset. -/
theorem energySave_due {s : State} (fails : Fin 3) (inTime : Bool)
    (h : s.mtr.begun = true ∧ s.clk.ct / 1000000000 ≠ s.mtr.savedSec ∧ s.sys.inReset = false) :
    let u := s.modMtr fun m => { m with savedSec := s.clk.ct / 1000000000 }
    exec (.energySave fails inTime) s =
      .next (if (inTime && firmwareRuns u && u.pst.ready) = true then writeSave fails.val u else skipSave u) := by
  intro u
  obtain ⟨hbegun, hsec, hreset⟩ := h
  exact (if_neg (by simp [hbegun, hsec, hreset])).trans (apply_ite Host.Outcome.next _ _ _).symm

@[simp] theorem leaveService_mtr (q : RingId) (num : Nat) (s : State) : (leaveService q num s).mtr = s.mtr := by
  unfold leaveService
  split
  · split <;> rfl
  · rfl

/-- A preset whose password is right waits on its point (R505). -/
theorem doMtrPreset_ok {q : RingId} {dma : List Byte} {e : Outst} {s : State} {i : Fin 8} (hi : e.desc.par 24 1 = i.val)
    (hc : (checkPwd 2 true (slice (bufRead e.desc dma s) 0 16) s).1 = true) :
    doMtrPreset q dma e s = (leaveService q e.num (modPoint i (fun p => { p with presets := p.presets ++
      [{ ring := q, num := e.num, imp := e.desc.par 32 8, exp := e.desc.par 40 8, sel := (BitVec.ofNat 64 (e.desc.par 48 8)).toInt }] })
        (checkPwd 2 true (slice (bufRead e.desc dma s) 0 16) s).2), .wait e.bound) := by
  simp only [doMtrPreset, fin?_val hi, hc, Bool.not_true, Bool.false_eq_true, if_false]

/-- Settles O27: a save by `energySave_due`, a preset by `doMtrPreset_ok`, and the reads by their rows. -/
theorem meterSaveAndReads : Obligations.MeterSaveAndReads := by
  intro q dma fails i s e fin u c due
  refine ⟨fun hdue hfw hready => (energySave_due fails true hdue).trans (congrArg Host.Outcome.next (if_pos ?_)),
    fun h hlen => next_served_finish h (if_neg (Nat.not_lt.mpr hlen)), fun h hi hlen => next_served_finish h ?_, fun h hi hc => ?_,
    fun hdue => energySave_due fails false hdue, fun b hbegun => if_pos (by simp [hbegun]), fun h hlen => next_served_finish h (if_pos hlen),
    fun h hi hc => next_served_finish h ?_⟩
  · simpa using ⟨hfw, hready⟩
  · simp only [doMtrHarm, fin?_val hi, if_neg (Nat.not_lt.mpr hlen)]
  · refine ⟨_, next_served_wait h (doMtrPreset_ok hi hc), ?_⟩
    rw [pointOf_congr (congrArg Mtr.points (leaveService_mtr ..)), pointOf_modPoint_same]
  · have hc' : (checkPwd 2 true (slice (bufRead e.desc dma s) 0 16) s).1 = false := hc
    simp only [doMtrPreset, fin?_val hi, hc', Bool.not_false, if_true]
    rfl

end Sys2Proof.Machine

/-! # Firmware update

A slot changes by `modSlot` alone; events and passwords leave the slots (`event_fwu`, `checkPwd_fwu`). -/

namespace Sys2Proof.Machine

section
variable {i j : Fin 2} {f : FwSlot → FwSlot} {s t : State}

@[simp] theorem fwSlot_modSlot_same : fwSlot (modSlot i f s) i = f (fwSlot s i) := vmod_get_same _ _ _

theorem fwSlot_modSlot_other (h : j ≠ i) : fwSlot (modSlot i f s) j = fwSlot s j := vmod_get_other _ _ (Ne.symm h)

theorem fwSlot_congr (h : t.fwu.slots = s.fwu.slots) (j : Fin 2) : fwSlot t j = fwSlot s j := by
  rw [fwSlot, h]
  rfl

theorem otherSlot_ne (i : Fin 2) : otherSlot i ≠ i := by decide +revert

@[simp] theorem event_fwu (cls : Nat) (detail : W64) (s : State) : (event cls detail s).fwu = s.fwu := hushed_fwu (event_hushed ..)

/-- The check of a password changes nothing of the firmware. -/
theorem checkPwd_fwu {r : Fin 3} {write : Bool} {given : List Byte} : (checkPwd r write given s).2.fwu = s.fwu := by
  have hmod (f : PwdRegion → PwdRegion) (t : State) : (modPwd r f t).fwu = t.fwu := rfl
  have hfail (k : Nat) : (failedAttempt r k s).fwu = s.fwu := by
    simp only [failedAttempt]
    split <;> simp [hmod]
  have hok : (if (s.pst.pwd.get r).fails = 0 ∧ (s.pst.pwd.get r).next = 1 then s
      else modPwd r (fun x => { x with fails := 0, next := 1 }) s).fwu = s.fwu := by
    split
    · rfl
    · exact hmod _ _
  simp only [checkPwd]
  generalize (if write = true then (s.pst.pwd.get r).write else (s.pst.pwd.get r).read) = want
  split
  · rfl
  · split
    · rfl
    · split
      · exact hok
      · exact hfail _

/-! ## The transfer (R612 to R617) -/

/-- FWU_BEGIN while a transfer is open or a trial runs (R614). -/
theorem doFwuBegin_busy {e : Outst} (h : s.fwu.transfer.isSome = true ∨ trialRuns s = true) :
    doFwuBegin e s = (s, .finish (doneWith 0x07 0)) := if_pos (by simpa using h)

/-- FWU_BEGIN with a slot to use: the password decides (R614). -/
theorem doFwuBegin_free {e : Outst} (ht : s.fwu.transfer = none) (hr : trialRuns s = false) (hi : targetSlot s = some i) :
    doFwuBegin e s =
      if (checkPwd 1 true (slice e.desc.param 16 16) s).1 = true then
        (event 0x0B01 (det [(1, i.val), (3, 0), (4, e.desc.par 24 4)])
          ((modSlot i (fun _ => { state := .receiving, version := 0, svn := 0, tries := 0, total := e.desc.par 24 4, good := false })
            (checkPwd 1 true (slice e.desc.param 16 16) s).2).modFwu fun u => { u with transfer := some i, next := 0 }),
          .finish (doneOk (fields [(1, i.val)])))
      else ((checkPwd 1 true (slice e.desc.param 16 16) s).2, .finish (doneWith 0x0E 0)) := by
  simp only [doFwuBegin, ht, hr, hi, Option.isSome_none, Bool.or_self, Bool.false_eq_true, if_false]

/-- FWU_BLOCK in a transfer: its CRC, a repeated block, the next one, another one (R615). -/
theorem doFwuBlock_open {q : RingId} {dma : List Byte} {e : Outst} (h : s.fwu.transfer = some i) :
    doFwuBlock q dma e s =
      if (crc32c (bufRead e.desc dma s)).toNat ≠ e.desc.par 28 4 then (s, .finish (doneRefused 0x70 0 0 0))
      else if e.desc.par 24 4 + 1 = s.fwu.next then (s, .finish (doneOk (fields [(4, s.fwu.next)])))
      else if e.desc.par 24 4 = s.fwu.next ∧ e.desc.par 24 4 < blocksOf (min maxImage (fwSlot s i).total) then
        (queueBlock q e.num i (e.desc.par 24 4) (bufRead e.desc dma s) s, .wait e.bound)
      else (s, .finish (doneWith stBadState 0)) := by
  simp only [doFwuBlock, h]

/-- FWU_VERIFY ends the transfer, with its slot VERIFIED or EMPTY (R616). -/
theorem doFwuVerify_ends {e : Outst} (h : s.fwu.transfer = some i) :
    ∃ d t, doFwuVerify e s = (t, .finish d) ∧ t.fwu.transfer = none ∧ t.fwu.next = 0 ∧
      ((d.status = 0x00 ∧ (fwSlot t i).state = .verified) ∨ (d.status = 0x05 ∧ (fwSlot t i).state = .empty)) := by
  have closed (f : FwSlot → FwSlot) (u : State) : fwSlot (closeTransfer i f u) i = f (fwSlot u i) := fwSlot_modSlot_same
  simp only [doFwuVerify, h]
  split
  · exact ⟨_, _, rfl, rfl, rfl, .inr ⟨rfl, by rw [closed]⟩⟩
  · exact ⟨_, _, rfl, rfl, rfl, .inl ⟨rfl, by rw [closed]⟩⟩

/-- A transfer that is abandoned leaves its slot EMPTY (R617). -/
theorem abandonTransfer_open (why : Nat) (h : s.fwu.transfer = some i) :
    (abandonTransfer why s).fwu.transfer = none ∧ (fwSlot (abandonTransfer why s) i).state = .empty := by
  have hfwu : (abandonTransfer why s).fwu =
      ((modSlot i (fun x => { x with state := .empty }) s).modFwu fun u => { u with transfer := none, next := 0 }).fwu := by
    simp only [abandonTransfer, h, event_fwu]
  refine ⟨by rw [hfwu]; rfl, ?_⟩
  rw [fwSlot_congr (congrArg Fwu.slots hfwu)]
  exact congrArg FwSlot.state (fwSlot_modSlot_same (s := s))

/-- FWU_IDLE_TIMEOUT of a transfer (R617). -/
theorem fwuIdleTimeout_due (ht : s.fwu.transfer.isSome = true) (h : s.fwu.lastOpAt + 600000000000 ≤ s.clk.now) :
    exec .fwuIdleTimeout s = .next (abandonTransfer 2 s) := if_pos (by simpa [ht] using h)

theorem fwuIdleTimeout_early (h : s.clk.now < s.fwu.lastOpAt + 600000000000) : exec .fwuIdleTimeout s = .next s :=
  if_neg (by simp [h])

end

/-- Settles O28: each row's function has its lemma; a firmware descriptor first begins the idle time anew (`touchFwu`), which no condition
reads. -/
theorem firmwareTransfer : Obligations.FirmwareTransfer := by
  intro q dma i s e u fin c bs k
  refine ⟨fun h => next_served_finish h ?_, fun ht => ⟨fun h hcrc hk hlt => next_served_wait h ?_, fun h => ?_, fun h => next_served_finish h ?_,
      fun hdue => fwuIdleTimeout_due (by rw [ht]; rfl) hdue⟩,
    fun h ht hr hi hc => ?_, fun ht => ⟨fun why => abandonTransfer_open why ht, fun h hcrc => next_served_finish h ?_,
      fun h hcrc hk => next_served_finish h ?_⟩, fun h hbusy => next_served_finish h (doFwuBegin_busy hbusy),
    fun h ht hr hi hc => next_served_finish h ?_, fwuIdleTimeout_early⟩
  · simp only [doFwuStatus, fields, List.append_assoc, List.append_nil]
    rfl
  · refine (doFwuBlock_open (s := touchFwu s) ht).trans ?_
    rw [if_neg (not_not.mpr hcrc), if_neg (by have : k = (touchFwu s).fwu.next := hk; omega)]
    exact if_pos ⟨hk, hlt⟩
  · obtain ⟨d, t, hd, htr, hn, hslot⟩ := doFwuVerify_ends (s := touchFwu s) (e := e) ht
    exact ⟨d, t, next_served_finish h hd, htr, hn, hslot⟩
  · exact if_pos (by rw [show (touchFwu s).fwu.transfer = some i from ht]; rfl)
  · have hslot (j : Fin 2) : fwSlot c.2 j = fwSlot s j := fwSlot_congr (by rw [checkPwd_fwu]; rfl) j
    refine ⟨_, next_served_finish h ((doFwuBegin_free (s := touchFwu s) ht hr hi).trans (if_pos hc)), ?_⟩
    generalize hX : ((modSlot i (fun _ => ({ state := .receiving, version := 0, svn := 0, tries := 0, total := k, good := false } : FwSlot)) c.2).modFwu
      fun u => { u with transfer := some i, next := 0 }) = X
    have hsame : fwSlot X i = { state := .receiving, version := 0, svn := 0, tries := 0, total := k, good := false } := by
      rw [← hX]
      exact fwSlot_modSlot_same
    have hother : fwSlot X (otherSlot i) = fwSlot s (otherSlot i) := by
      rw [← hslot, ← hX]
      exact fwSlot_modSlot_other (otherSlot_ne i)
    have hevent (cls : Nat) (d : W64) (j : Fin 2) : fwSlot (event cls d X) j = fwSlot X j := fwSlot_congr (by rw [event_fwu]) j
    refine ⟨?_, ?_, ?_, ?_, ?_⟩
    · rw [event_fwu, ← hX]
      rfl
    · rw [event_fwu, ← hX]
      rfl
    · rw [hevent, hsame]
    · rw [hevent, hsame]
    · rw [hevent, hother]
  · exact (doFwuBlock_open (s := touchFwu s) ht).trans (if_pos hcrc)
  · exact (doFwuBlock_open (s := touchFwu s) ht).trans ((if_neg (not_not.mpr hcrc)).trans (if_pos hk))
  · exact (doFwuBegin_free (s := touchFwu s) ht hr hi).trans (if_neg (by rw [show (checkPwd 1 true _ (touchFwu s)).1 = false from hc]; decide))

/-! ## Activation, confirmation and fallback (R618 to R625) -/

section
variable {i : Fin 2} {s : State}

/-- FWU_ACTIVATE of a slot that may be activated, on a module alone outside SAFE_TALK: it waits for the pause (R618, R619). -/
theorem doFwuActivate_waits {q : RingId} {e : Outst} (hi : e.desc.par 24 1 = i.val) (hbar : activateBarred s = false)
    (hact : activatable s i = true) (hrun : s.sys.run ≠ .safeTalk) (hpair : pairMember s = false) :
    doFwuActivate q e s = (s.modFwu fun w => { w with activating := some ((q, e.num), i), joinAfter := false }, .wait e.bound) := by
  simp only [doFwuActivate, fin?_val hi, hbar, hact, hpair, Bool.not_true, Bool.or_self, Bool.and_false, Bool.false_eq_true, if_false,
    hrun]

/-- A pause puts the slot of its activation on TRIAL, and the service cores stop serving (R619). -/
theorem beginPause_trial (i : Fin 2) (s : State) :
    let t := beginPause i false s
    (fwSlot t i).state = .trial ∧ (fwSlot t i).tries = 1 ∧ t.fwu.pausing = true ∧ t.fwu.pauseAt = s.clk.now ∧ servesDescs t = false := by
  intro t
  have hslot : fwSlot t i = { fwSlot s i with state := .trial, tries := 1 } :=
    (fwSlot_modSlot_same (f := fun x => { x with state := .trial, tries := 1 }) :)
  exact ⟨by rw [hslot], by rw [hslot], rfl, rfl, Bool.and_false _⟩

/-- A trial that is confirmed: its slot is CONFIRMED, and the lowest security version rises to that of the slot (R622). -/
theorem confirmTrial_slots (s : State) :
    (fwSlot (confirmTrial s) s.fwu.running).state = .confirmed ∧ (confirmTrial s).fwu.trialAt = none ∧
      (fwSlot s s.fwu.running).svn.toNat ≤ (confirmTrial s).fwu.svnMin.toNat ∧ s.fwu.svnMin.toNat ≤ (confirmTrial s).fwu.svnMin.toNat := by
  let x := fwSlot s s.fwu.running
  let s1 := modSlot (otherSlot s.fwu.running) (fun y => if y.state == .empty then y else { y with state := .previous })
    (modSlot s.fwu.running (fun y => { y with state := .confirmed }) s)
  have hfwu : (confirmTrial s).fwu = { s1.fwu with
      trialAt := none, goodSince := none, hostConfirm := false, joinAfter := false,
      svnMin := if s.fwu.svnMin.toNat < x.svn.toNat then x.svn else s.fwu.svnMin } := by
    simp only [confirmTrial, event_fwu]
    split <;> rfl
  refine ⟨?_, by rw [hfwu], ?_, ?_⟩
  · have hslot : fwSlot (confirmTrial s) s.fwu.running = fwSlot s1 s.fwu.running := fwSlot_congr (by rw [hfwu]) _
    rw [hslot, fwSlot_modSlot_other (otherSlot_ne _).symm, fwSlot_modSlot_same]
  · simp only [hfwu, x]
    split <;> omega
  · simp only [hfwu, x]
    split <;> omega

/-- FIRMWARE_TRIAL_TIMEOUT of a trial, outside a pause (R625). -/
theorem firmwareTrialTimeout_eq {a : Nat} (h : s.fwu.trialAt = some a) :
    exec .firmwareTrialTimeout s = .next (if (!s.fwu.pausing && decide (a + 60000000000 ≤ s.clk.now)) = true then fallBack s else s) := by
  show execFirmwareTrialTimeout s = _
  simp only [execFirmwareTrialTimeout, h]
  exact (apply_ite Host.Outcome.next _ _ _).symm

end

/-- Settles O29: the slots by `beginPause_trial` and `confirmTrial_slots`, an activation by `doFwuActivate_waits`, and the rows by their
conditions. -/
theorem firmwareActivation : Obligations.FirmwareActivation := by
  intro q intact s e i u us
  refine ⟨fun h hi hbar hact hrun hpair => next_served_wait h (doFwuActivate_waits (s := touchFwu s) hi hbar hact hrun hpair),
    fun d ha hp => ?_, fun hp => ?_, fun h ht => next_served_finish h (if_pos ht), fun h => if_pos h, fun a ha hp hdue => ?_,
    confirmTrial_slots s, beginPause_trial i s, fun hf => ?_, fun hfb => if_pos hfb, fun h hi => next_served_finish h ?_, fun ha => ?_,
    fun h => if_neg (by simp [h]), fun a ha hdue => ?_⟩
  · show execServicePauseStart s = _
    simp only [execServicePauseStart, ha, hp, Bool.false_eq_true, if_false]
  · show execServicePauseEnd intact s = _
    simp only [execServicePauseEnd, hp]
    rfl
  · exact (firmwareTrialTimeout_eq ha).trans (congrArg Host.Outcome.next (if_pos (by simpa [hp] using hdue)))
  · have hresult : pauseResult i true s = beginTrial i s := by simp only [pauseResult, hf, Bool.false_eq_true, if_false, if_true]
    rw [hresult]
    exact ⟨rfl, rfl, rfl, rfl⟩
  · have hnone : fin? 2 (e.desc.par 24 1) = none := by simp [fin?, Nat.not_lt.mpr hi]
    simp only [doFwuActivate, hnone]
    rfl
  · show execServicePauseStart s = _
    simp only [execServicePauseStart, ha]
  · exact (firmwareTrialTimeout_eq ha).trans (congrArg Host.Outcome.next (if_neg (by simp [hdue])))

end Sys2Proof.Machine

/-! # Resets, restarts and the watchdog -/

namespace Sys2Proof.Machine

/-! ## SAFE_TALK -/

/-- A module that enters SAFE_TALK is in SAFE_TALK (R600). -/
@[simp] theorem enterSafeTalk_run (cause : Nat) (s : State) : (enterSafeTalk cause s).sys.run = .safeTalk := by
  have raised (v c : Nat) (d : W64) (t : State) : (raise v (event c d t)).sys = t.sys := hushed_sys (by simp)
  simp only [enterSafeTalk]
  split
  · assumption
  · rw [raised]
    rfl

@[simp] theorem failStep_run (n : Nat) (s : State) : (failStep n s).sys.run = .safeTalk := enterSafeTalk_run ..

/-! ## Resets (R588, R638, R639) -/

section
variable {s : State} {kind : Nat}

@[simp] theorem abandonTransfer_sys (why : Nat) (s : State) : (abandonTransfer why s).sys = s.sys := by
  unfold abandonTransfer
  split
  · exact (hushed_sys (event_hushed ..)).trans rfl
  · rfl

@[simp] theorem abandonTransfer_pst (why : Nat) (s : State) : (abandonTransfer why s).pst = s.pst := by
  unfold abandonTransfer
  split
  · exact event_pst ..
  · rfl

/-- Counting the forces that a reset takes changes their count alone. -/
theorem noteForces_eq (s : State) : ∃ n, noteForces s = s.modSys fun y => { y with forcesLost := n } := by
  unfold noteForces
  split
  · exact ⟨s.sys.forcesLost, rfl⟩
  · exact ⟨_, rfl⟩

/-- What a chip reset keeps of the reset, power and start-up registers, and of the store (R588). -/
theorem chipReset_sys (kind : Nat) (s : State) :
    ∃ n auto now, (chipReset kind s).sys = resetSys kind auto now { s.sys with forcesLost := n } ∧ (chipReset kind s).pst = resetPst s.pst := by
  obtain ⟨n, hn⟩ := noteForces_eq s
  exact ⟨n, _, _, by simp only [chipReset, abandonTransfer_sys, hn]; rfl, by simp only [chipReset, abandonTransfer_pst, hn]; rfl⟩

/-- A chip held in reset has lost DRAM and its registers, and keeps the queue and the store (R588, R654). -/
theorem assertReset_lost (s : State) (hk : kind ≤ 3) :
    let t := assertReset kind s
    t.sys.inReset = true ∧ t.mem = State.resetMem ∧ t.hif.rings = State.resetHif.rings ∧ t.pending = s.pending ∧
      t.pst.pages = s.pst.pages ∧ t.sys.powerLostAt = some (opTicks s) := by
  intro t
  let u := s.modSys fun y => { y with powerLostAt := some (opTicks s) }
  obtain ⟨n, auto, now, hsys, hpst⟩ := chipReset_sys kind u
  have hpending : t.pending = s.pending := congrArg Prod.fst (chipReset_fixed kind u)
  have hmem : t.mem = State.resetMem := if_neg (by simp; omega)
  refine ⟨rfl, hmem, rfl, hpending, ?_, ?_⟩
  · exact (congrArg Pst.pages hpst :)
  · exact (congrArg Sys.powerLostAt hsys :)

/-- A supply or external reset of a chip that runs. -/
theorem noteKind_running (k : Nat) (h : s.sys.inReset = false) : noteKind k s = s.modSys fun y => { y with nextKind := k } := by
  simp only [noteKind, h, Bool.false_eq_true, if_false]

theorem supplyReset_running (mv : W16) (h : s.sys.inReset = false) :
    supplyReset mv s = assertReset 3 ((s.modSys fun y => { y with vinMv := mv }).modSys fun y => { y with nextKind := 3 }) := by
  simp only [supplyReset, h, Bool.false_eq_true, if_false]
  exact congrArg _ (noteKind_running (s := s.modSys fun y => { y with vinMv := mv }) 3 h)

theorem supplyReset_held (mv : W16) (h : s.sys.inReset = true) : supplyReset mv s = s := if_pos h

/-- The loss of VIN holds the chip in reset and latches the operating time (R500, R638). -/
theorem vinAbsent_holds (h : s.sys.vinPresent = true) :
    ∃ t, exec .vinAbsent s = .next t ∧ t.sys.vinPresent = false ∧ t.sys.inReset = true ∧
      t.sys.powerLostAt = some (opTicks s) ∧ t.sys.lostEvent = some (opTicks s) := by
  refine ⟨_, if_pos h, rfl, ?_, rfl, rfl⟩
  by_cases hr : s.sys.inReset = true
  · simp only [hr, if_true]
    exact hr
  · simp only [hr, Bool.false_eq_true, if_false]
    rfl

/-! ## The power-up and the self-test (R592, R597) -/

/-- POWER_UP_RELEASE of a chip held in reset runs the sequence from its state after the reset (R592). -/
theorem powerUpRelease_held {pairId agree storeOk marchOk : Bool} (hv : s.sys.vinPresent = true) (hh : s.sys.hotStop = false)
    (hr : s.sys.inReset = true) :
    exec (.powerUpRelease pairId agree storeOk marchOk) s = .next (powerUp pairId agree storeOk marchOk (chipReset s.sys.nextKind s)) := by
  have hrel : releaseChip s = chipReset s.sys.nextKind s := if_pos hr
  refine (if_neg (by simp [hv, hh])).trans ?_
  simp only [hrel]
  exact if_pos rfl

/-- BUILT_IN_SELF_TEST in step 6 of the sequence (R595, R597). -/
theorem builtInSelfTest_step6 {f : SelfTestFails} {us ms : W16} {d : Nat} (h6 : s.sys.step = 6) (hr : s.sys.inReset = false) :
    let bad := bistFailures f.blocks f.laneParts f.pattern
    let ended := endSelfTest ms (blockResults bad f.pattern d (laneResults bad.isEmpty f.laneParts us s))
    exec (.builtInSelfTest f us d ms) s =
      .next (if (!bad.isEmpty) = true then failSelfTest bad ended else if s.fuse.fault = true then enterSafeTalk 10 ended else afterSelfTest ended) := by
  intro bad ended
  refine (if_neg (by simp [h6, hr])).trans ?_
  rw [apply_ite Host.Outcome.next, apply_ite Host.Outcome.next]

/-- A lane that fails a part of its self-test is FAILED, and no other one (R280). -/
theorem laneResults_failed (b : Bool) (parts : Vector Byte 3) (us : W16) (s : State) (l : LaneId) :
    ((laneResults b parts us s).lanes.get l).state = .failed ↔ parts.get l ≠ 0 := by
  simp only [laneResults, State.modLanes, Vector.get_ofFn]
  cases b <;> by_cases hl : parts.get l = 0 <;> simp [hl]

end

/-- Settles O30: the resets by `assertReset_lost` and `chipReset_sys`, the power-up by `powerUpRelease_held` and `builtInSelfTest_step6`. -/
theorem resetAndPowerUp : Obligations.ResetAndPowerUp := by
  intro mv us ms d pairId agree storeOk marchOk failed parts p s supply bad ended
  refine ⟨fun hr => congrArg Host.Outcome.next (supplyReset_running mv hr), fun hr => ?_, fun hr => ?_, vinAbsent_holds, fun hv => ?_,
    powerUpRelease_held, fun h6 hr hf hb => ?_, rfl, fun h6 hr hb => ?_, fun k hk => assertReset_lost s hk, ?_,
    ⟨?_, ?_, enterSafeTalk_run .., laneResults_failed _ parts us s⟩, fun hr => ⟨congrArg Host.Outcome.next (supplyReset_held mv hr), if_pos hr⟩,
    fun hv => if_pos hv, fun hv => ?_, fun h => if_pos ?_⟩
  · refine (if_neg (by simp [hr])).trans ?_
    rw [noteKind_running 2 hr]
  · exact congrArg (fun t : State => Host.Outcome.next (t.modSys fun y => { y with hotStop := true })) (supplyReset_running mv hr)
  · exact if_neg (by simp [hv])
  · have hnone : (bistFailures failed parts p).isEmpty = true := List.isEmpty_iff.mpr hb
    refine (builtInSelfTest_step6 h6 hr).trans (congrArg Host.Outcome.next ((if_neg (by simp [hnone])).trans (if_neg (by simp [hf]))))
  · have hsome : (bistFailures failed parts p).isEmpty = false := List.isEmpty_eq_false_iff.mpr hb
    exact (builtInSelfTest_step6 h6 hr).trans (congrArg Host.Outcome.next (if_pos (by simp [hsome])))
  · obtain ⟨n, auto, now, hsys, -⟩ := chipReset_sys s.sys.nextKind s
    rw [hsys]
    refine ⟨rfl, rfl, ?_⟩
    simp only [resetSys]
    split <;> simp
  · simp only [powerUp, Bool.not_false, if_true, failStep_run]
  · simp only [powerUp, Bool.not_true, Bool.not_false, Bool.false_eq_true, if_false, if_true, failStep_run]
  · exact if_neg (by simp [hv])
  · rcases h with h | h <;> simp [h]

/-! ## Restarts, fuses and scrubs (R31, R35 to R38, R604 to R609) -/

/-- A restart that is asked for is due within 25 ms (R604). -/
theorem requestRestart_due (k : Nat) (s : State) :
    ∃ r, (requestRestart k s).sys.restart = some r ∧ r.kind = k ∧ s.clk.now ≤ r.at_ ∧ r.at_ ≤ s.clk.now + 25000000 := by
  refine ⟨_, rfl, rfl, Nat.le_add_right .., Nat.add_le_add_left ?_ _⟩
  exact Nat.le_of_lt_succ (Nat.mod_lt _ (by decide))

/-- FUSE_PROGRAM: BAD_STATE, or the field is programmed (R609). -/
theorem doFuseProgram_eq (vpp : Bool) (e : Outst) (s : State) :
    doFuseProgram vpp e s =
      if (s.sys.run ≠ .stopped ∧ s.sys.run ≠ .safeTalk) ∨ fuseFree s (e.desc.par 24 1) = false ∨ vpp = false then (s, .finish (doneWith 0x07 0))
      else (event 0x0A08 (det [(1, e.desc.par 24 1)]) (s.modFuse (programFuse e.desc)), .finish (doneOk [])) := by
  simp only [doFuseProgram, Bool.or_eq_true, Bool.not_eq_true', Bool.or_eq_false_iff, beq_eq_false_iff_ne, ne_eq, or_assoc]

/-- Settles O31: each row by its condition, a restart by `requestRestart_due`, a fuse by `doFuseProgram_eq`. -/
theorem restartsFusesAndScrubs : Obligations.RestartsFusesAndScrubs := by
  intro q w p n own bad s e fin hit
  refine ⟨fun h hr => next_served_finish h (if_neg (by simp [hr])), fun hc hr => congrArg Host.Outcome.next (if_pos ⟨hc, rfl, by simp [hr]⟩),
    fun h hrun hfree => next_served_finish h ((doFuseProgram_eq ..).trans (if_neg ?_)), fun hr hn => if_neg (by simp [hr, hn]),
    fun hf hdue => if_pos (by simpa [hf] using hdue), fun hr hdue => if_neg ?_, fun h => next_served_finish h ?_,
    fun k => requestRestart_due k s, fun r hr hdue hheld => ?_, fun hheld => ?_, fun k f hk => ?_, fun k f hk hf => ?_,
    fun h hr => next_served_finish h (if_pos hr), fun h => congrArg Host.Outcome.next (if_neg ?_),
    fun vpp h hbad => next_served_finish h ((doFuseProgram_eq ..).trans (if_pos hbad))⟩
  · rcases hrun with hrun | hrun <;> simp [hrun, hfree]
  · simp only [hr, Bool.false_or, decide_eq_true_eq]
    exact Nat.not_lt.mpr hdue
  · simp only [doStartInfo, fields, List.append_assoc, List.append_nil]
  · simp only [dueRestart, hr, hdue, hheld, Bool.not_false, and_self, if_true]
  · simp only [dueRestart, hheld, Bool.not_true, Bool.false_eq_true, and_false, if_false]
    split <;> rfl
  · simp only [resetFuse, if_neg (Nat.not_le.mpr hk)]
    trivial
  · simp only [resetFuse, if_pos hk, hf]
    trivial
  · rintro ⟨hc, hw, -⟩
    exact h.elim (absurd hc) (absurd hw)

/-! ## The watchdog (R573 to R576, R581 to R585) -/

/-- WDG_SERVICE of a watchdog that runs: too early, too late, right, or wrong (R575). -/
theorem wdgService_running {a : W32} {s : State} (h : s.wdg.running = true) :
    let t := s.modWdg fun w => { w with answer := a }
    exec (.wdgService a) s = .next (
      if wdgElapsed s < wdgOpening s then
        systemFault (advanceQuestion (event 0x0901 (det [(2, wdgOpening s - wdgElapsed s), (2, s.wdg.question.toNat)]) t))
      else if s.wdg.len ≤ wdgElapsed s then
        systemFault (advanceQuestion (event 0x0902 (det [(2, s.wdg.question.toNat), (2, 0), (1, 1)]) t))
      else if a.extractLsb' 16 16 = s.wdg.question ∧ a.extractLsb' 0 16 = tokenOf s.wdg.question then newPeriod (advanceQuestion t)
      else systemFault (advanceQuestion (event 0x0903
        (det [(2, s.wdg.question.toNat), (2, (a.extractLsb' 16 16).toNat), (2, (a.extractLsb' 0 16).toNat)]) t))) := if_pos h

/-- Settles O32: a service by `wdgService_running`, the other rows and the ladder by their conditions. -/
theorem watchdog : Obligations.Watchdog := by
  intro a s t
  refine ⟨fun hrun hr hhw => ?_, fun hrun hopen hlen hgiven htoken => ?_, fun hrun hlen => if_pos (by simp [hrun, hlen]),
    ⟨_, rfl, fun x => ?_⟩, fun hrun hr hhw hcfg hbist => ?_, fun hrun hearly => ?_, fun hrun hopen hlate => ?_,
    fun hrun hopen hlen htoken => ?_, fun hrun => if_pos (by simp [hrun]), fun hrun => if_neg (by simp [hrun]),
    fun hlen => if_neg (by simp [hlen]), fun c hrecent => if_pos (by simp [hrecent]), fun c hrecent hsafe => ⟨fun hn => ?_, fun hn => ?_⟩,
    fun _ => rfl⟩
  · exact (if_neg (by simp [hrun, hr])).trans (if_pos hhw)
  · refine (wdgService_running hrun).trans (congrArg Host.Outcome.next ?_)
    rw [if_neg (Nat.not_lt.mpr hopen), if_neg (Nat.not_le.mpr hlen), if_pos ⟨hgiven, htoken⟩]
    rfl
  · simp [State.modWdg, liveStamps, List.mem_filter]
  · exact (if_neg (by simp [hrun, hr])).trans ((if_neg (by simp [hhw])).trans (if_pos (by simp [hcfg, hbist])))
  · exact (wdgService_running hrun).trans (congrArg Host.Outcome.next (if_pos hearly))
  · refine (wdgService_running hrun).trans (congrArg Host.Outcome.next ?_)
    rw [if_neg (Nat.not_lt.mpr hopen), if_pos hlate]
  · refine (wdgService_running hrun).trans (congrArg Host.Outcome.next ?_)
    rw [if_neg (Nat.not_lt.mpr hopen), if_neg (Nat.not_le.mpr hlen), if_neg fun h => htoken h.2]
  · exact (if_neg (by simp [hrecent, hsafe])).trans (if_pos hn)
  · exact (if_neg (by simp [hrecent, hsafe])).trans (if_neg (Nat.not_le.mpr hn))

end Sys2Proof.Machine

/-! # Local field I/O

A channel changes by `modChan` alone; events and the reports of points leave the channels (`chanOf_event`, `chanOf_reportPoints`), so a
diagnostic bit changes its channel as `chanOf_setDiag` and `chanOf_clearDiag` say. -/

namespace Sys2Proof.Machine

/-! ## Channels -/

section
variable {n m : ChanId} {f : Chan → Chan} {s t : State}

@[simp] theorem chanOf_modChan_same : chanOf (modChan n f s) n = f (chanOf s n) := vmod_get_same _ _ _

theorem chanOf_modChan_other (h : m ≠ n) : chanOf (modChan n f s) m = chanOf s m := vmod_get_other _ _ (Ne.symm h)

theorem chanOf_congr (h : t.fio.chans = s.fio.chans) (m : ChanId) : chanOf t m = chanOf s m := by
  rw [chanOf, h]
  rfl

@[simp] theorem chanOf_event (cls : Nat) (d : W64) (s : State) (m : ChanId) : chanOf (event cls d s) m = chanOf s m :=
  chanOf_congr (congrArg Fio.chans (hushed_fio (event_hushed ..))) m

@[simp] theorem pairSend_fio (x : NarrowsMsg) (s : State) : (pairSend x s).fio = s.fio := by
  obtain ⟨p, o, hp⟩ := pairSend_frame x s
  rw [hp]

@[simp] theorem chanOf_reportPoints (ps : List Nat) (s : State) (m : ChanId) : chanOf (reportPoints ps s) m = chanOf s m := by
  unfold reportPoints
  dsimp only
  split
  · exact chanOf_congr (by rw [pairSend_fio]; rfl) m
  · rfl

/-! ## Diagnostic bits (R471) -/

/-- Bits that a byte holds already add nothing to it. -/
theorem or_of_held {a b : Byte} (h : b &&& ~~~ a = 0) : a ||| b = a := by
  apply BitVec.eq_of_getLsbD_eq
  intro i hi
  have := congrArg (fun x : Byte => x.getLsbD i) h
  simp [hi] at this
  simp only [BitVec.getLsbD_or]
  cases hb : b.getLsbD i <;> simp_all

/-- Bits that a byte does not hold take nothing from it. -/
theorem and_of_clear {a b : Byte} (h : b &&& a = 0) : a &&& ~~~ b = a := by
  apply BitVec.eq_of_getLsbD_eq
  intro i hi
  have := congrArg (fun x : Byte => x.getLsbD i) h
  simp [hi] at this
  simp only [BitVec.getLsbD_and, BitVec.getLsbD_not, hi, decide_true, Bool.true_and]
  cases ha : a.getLsbD i <;> simp_all

theorem held_iff {a b : Byte} : b &&& ~~~ a = 0 ↔ b &&& a = b := by
  constructor
  · intro h
    rw [← or_of_held h]
    apply BitVec.eq_of_getLsbD_eq
    intro i hi
    rw [BitVec.getLsbD_and, BitVec.getLsbD_or]
    cases b.getLsbD i <;> simp
  · intro h
    rw [← h, BitVec.and_assoc]
    simp

/-- Setting bits of a diagnostic byte changes that byte of its channel, and the latched one. -/
theorem chanOf_setDiag (n : ChanId) (b : Byte) (s : State) :
    ∃ l, chanOf (setDiag n b s) n = { chanOf s n with diag := (chanOf s n).diag ||| b, latched := l } := by
  simp only [setDiag]
  split
  · rename_i h
    exact ⟨(chanOf s n).latched, by rw [or_of_held h]⟩
  · rw [chanOf_reportPoints, chanOf_event, chanOf_modChan_same]
    exact ⟨_, rfl⟩

/-- Clearing bits of a diagnostic byte changes that byte of its channel, and the start of its readback comparison. -/
theorem chanOf_clearDiag (n : ChanId) (b : Byte) (s : State) :
    ∃ t, chanOf (clearDiag n b s) n = { chanOf s n with diag := (chanOf s n).diag &&& ~~~ b, cmpFrom := t } := by
  simp only [clearDiag]
  split
  · rename_i h
    exact ⟨(chanOf s n).cmpFrom, by rw [and_of_clear h]⟩
  · rw [chanOf_reportPoints, chanOf_event, chanOf_modChan_same]
    exact ⟨_, rfl⟩

/-- A change of bits that are set already changes nothing. -/
theorem setDiag_held {b : Byte} (h : b &&& (chanOf s n).diag = b) : setDiag n b s = s := if_pos (held_iff.mpr h)

/-! ## Output stages (R465) -/

/-- Driving a channel makes its stage what its command and its protection decide, and leaves the rest of the channel and the other ones. -/
theorem chanOf_drive (n : ChanId) (s : State) :
    chanOf (drive n s) n = { chanOf s n with on := stageOn s n } ∧ ∀ m, m ≠ n → chanOf (drive n s) m = chanOf s m := by
  have emitted (o : Out) (t : State) (m : ChanId) : chanOf (emit o t) m = chanOf t m := rfl
  unfold drive
  split
  · rename_i h
    exact ⟨by rw [← h], fun _ _ => rfl⟩
  · exact ⟨by rw [emitted, chanOf_modChan_same], fun m hm => by rw [emitted, chanOf_modChan_other hm]⟩

end

/-! ## Inputs and time-outs (R455, R457, R459 to R465) -/

section
variable {n : ChanId} {s : State}

theorem input_not_mode4 {c : ChanCfg} (h : c.input = true) : c.mode ≠ 4 := by
  intro h4
  simp [ChanCfg.input, h4] at h

/-- FIELD_INPUT_CHANGE of a channel that is no readback: taken by an input that is not pulsed (R459, R460). -/
theorem fieldInputChange_eq (v : Bool) (h : (chanOf s n).cfg.mode ≠ 4) :
    let t := modChan n (fun c => { c with land := v }) s
    exec (.fieldInputChange n v) s = .next (if ((chanOf s n).cfg.input && !(chanOf s n).cfg.pulsed) = true then takeRaw n v t else t) :=
  (if_neg h).trans (apply_ite Host.Outcome.next _ _ _).symm

/-- FIELD_EDGE_REPORT takes the oldest edge (R453, R463). -/
theorem fieldEdgeReport_eq {e : FieldEdge} {r : List FieldEdge} (h : s.fio.edges = e :: r) :
    let u := rollEdges (s.modFio fun x => { x with edges := r })
    exec .fieldEdgeReport s = .next (if (lastReports u).length < 64 then reportEdge e u else loseEdge e u) := by
  show execFieldEdgeReport s = _
  simp only [execFieldEdgeReport, h]

end

/-- Settles O33: the rows by their conditions, the diagnostic bits by `chanOf_setDiag` and `chanOf_clearDiag`. -/
theorem fieldInputsAndTimeouts : Obligations.FieldInputsAndTimeouts := by
  intro n v us cause s c t
  refine ⟨fun hin hp => ?_, fun hp hin => if_pos (by simpa using ⟨hp, hin⟩), fun hin hp => if_pos (by simpa using ⟨hin, hp⟩),
    fun hw hin hst hus => if_pos ?_, fun hd hus => if_pos ?_, fun e r he => ?_, fun hout => if_pos hout,
    fun hsafe hdue => if_pos ⟨by simp [hsafe], hdue⟩, fun hf hdue => if_pos ⟨by simp [hf], hdue⟩, fun hout => if_pos hout,
    fun h4 => if_pos h4, fun h4 hno => ?_, fun hr hdue => if_pos ⟨hr, hdue⟩, fun hdue => if_neg fun h => absurd h.2 (Nat.not_le.mpr hdue),
    fun hr => if_pos hr, ?_, fun h => if_neg ?_, fun hus => if_neg ?_, fun hdue => if_neg fun h => absurd h.2 (Nat.not_le.mpr hdue),
    fun hsafe => if_neg fun h => by simp [hsafe] at h, fun he => ?_⟩
  · exact (fieldInputChange_eq v (input_not_mode4 hin)).trans (congrArg Host.Outcome.next (if_pos (by simpa using ⟨hin, hp⟩)))
  · simpa using ⟨⟨⟨hw, hin⟩, hst⟩, hus⟩
  · simpa using ⟨hd, hus⟩
  · exact ⟨fun hl => (fieldEdgeReport_eq he).trans (congrArg Host.Outcome.next (if_pos hl)),
      fun hl => (fieldEdgeReport_eq he).trans (congrArg Host.Outcome.next (if_neg (Nat.not_lt.mpr hl)))⟩
  · refine (fieldInputChange_eq v h4).trans (congrArg Host.Outcome.next (if_neg ?_))
    rcases hno with h | h
    · simp [show (chanOf s n).cfg.input = false from h]
    · simp [show (chanOf s n).cfg.pulsed = true from h]
  · obtain ⟨l, hset⟩ := chanOf_setDiag n 1 s
    obtain ⟨k, hclear⟩ := chanOf_clearDiag n 1 s
    exact ⟨by rw [hset], by rw [hclear]; rfl⟩
  · rcases h with h | h
    · simp [show (chanOf s n).state = true from h]
    · simp [h]
  · simp [hus]
  · show execFieldEdgeReport s = _
    simp only [execFieldEdgeReport, he]

/-! ## The barrier and the readback (R452 to R454, R466, R467) -/

section
variable {n : ChanId} {s : State}

/-- READBACK_DISCREPANCY of a channel whose readback has been comparable for 1 ms (R466, R467). -/
theorem readbackDiscrepancy_due (hc : (chanOf s n).comparable = true) (hdue : (chanOf s n).comparedSince + 1000000 ≤ s.clk.now) :
    exec (.readbackDiscrepancy n) s = .next (
      if ((chanOf s n).cmd && !(chanOf s n).readback) = true then setDiag n 2 s
      else if (!(chanOf s n).cmd && (chanOf s n).readback && !(chanOf s n).cfg.wiredOr) = true then setDiag n 4 s else s) := by
  refine (if_pos (by simpa using ⟨hc, hdue⟩)).trans ?_
  rw [apply_ite Host.Outcome.next, apply_ite Host.Outcome.next]

/-- FIELD_OUTPUT_APPLY of the earliest command (R454). -/
theorem fieldOutputApply_eq {d : FieldCommand} (h : firstCommand s.fio.commands = some d) :
    let u := s.modFio fun x => { x with commands := x.commands.erase d }
    exec .fieldOutputApply s = .next (
      if d.instant ≤ s.clk.ct then
        if d.instant ≤ s.fio.applied then u.modFio fun x => { x with cmdsDropped := x.cmdsDropped + 1 }
        else d.states.foldl (fun t y => command (finOr y.1) y.2 t) (u.modFio fun x => { x with applied := d.instant })
      else s) := by
  intro u
  rw [apply_ite Host.Outcome.next, apply_ite Host.Outcome.next]
  show execFieldOutputApply s = _
  simp only [execFieldOutputApply, h]
  rfl

/-- FIELD_OUTPUT_COMMAND of the next command (R454). -/
theorem fieldOutputCommand_eq {t o : Nat} {img : List (W32 × IoValue)} (h : nextCommand s = some (t, o, img)) :
    let kept := s.modFio fun x => { x with sent := (t, o) :: x.sent.filter fun y => decide (s.clk.ct < y.2 + 1000000000) }
    let out := emit (.fieldCommand o (commandBits (ownStates s img))) kept
    exec .fieldOutputCommand s = .next (
      if (commandsOutputs s && !s.fio.faulted) = true then
        if (s.fio.safe || decide (o < s.clk.ct + 1000)) = true then out.modFio fun x => { x with cmdsDropped := x.cmdsDropped + 1 }
        else out.modFio fun x => { x with commands := x.commands ++ [{ instant := o, states := ownStates s img }] }
      else kept) := by
  intro kept out
  rw [apply_ite Host.Outcome.next, apply_ite Host.Outcome.next]
  show execFieldOutputCommand s = _
  simp only [execFieldOutputCommand, h]
  rfl

end

/-- Settles O34: the rows by their conditions, a command by `fieldOutputCommand_eq` and `fieldOutputApply_eq`. -/
theorem barrierAndReadback : Obligations.BarrierAndReadback := by
  intro n ns s c mod kept
  refine ⟨fun hdue hr hstep => (if_pos ⟨hdue, by simp [hr], hstep⟩).trans (if_pos rfl), rfl, fun hc hdue hcmd hrb => ?_,
    fun heq hd hdue => ?_, fun d hd hnow hnew => ?_, fun t o img hn hout hf hsafe ho => ?_, fun d hd => ⟨fun hnow hold => ?_, fun hnow => ?_⟩,
    fun t o img hn hno => ?_, fun t o img hn hout hf hdrop => ?_, fun hc hdue => ⟨fun hcmd hrb hw => ?_, fun heq => ?_⟩,
    rfl, fun hdue b => if_neg fun h => absurd h.1 (Nat.not_le.mpr hdue), fun hn => ?_, fun hn => ?_⟩
  · refine (readbackDiscrepancy_due hc hdue).trans (congrArg Host.Outcome.next (if_pos ?_))
    simpa using ⟨hcmd, hrb⟩
  · refine (if_pos hdue).trans ?_
    have hbits : ((if ((chanOf s n).cmd && !(chanOf s n).readback) = true then 0 else 2 : Byte) |||
        (if (!(chanOf s n).cmd && (chanOf s n).readback) = true then 0 else 4 : Byte)) = 6 := by
      rw [show (chanOf s n).cmd = (chanOf s n).readback from heq]
      cases (chanOf s n).readback <;> rfl
    simp only [hbits]
    exact if_neg hd
  · exact (fieldOutputApply_eq hd).trans (congrArg Host.Outcome.next ((if_pos hnow).trans (if_neg (Nat.not_le.mpr hnew))))
  · refine (fieldOutputCommand_eq hn).trans (congrArg Host.Outcome.next ((if_pos (by simp [hout, hf])).trans (if_neg ?_)))
    simpa [hsafe] using ho
  · exact (fieldOutputApply_eq hd).trans (congrArg Host.Outcome.next ((if_pos hnow).trans (if_pos hold)))
  · exact (fieldOutputApply_eq hd).trans (congrArg Host.Outcome.next (if_neg (Nat.not_le.mpr hnow)))
  · refine (fieldOutputCommand_eq hn).trans (congrArg Host.Outcome.next (if_neg ?_))
    rcases hno with h | h <;> simp [h]
  · refine (fieldOutputCommand_eq hn).trans (congrArg Host.Outcome.next ((if_pos (by simp [hout, hf])).trans (if_pos ?_)))
    simpa using hdrop
  · refine (readbackDiscrepancy_due hc hdue).trans (congrArg Host.Outcome.next ((if_neg ?_).trans (if_pos ?_)))
    · simp [show (chanOf s n).cmd = false from hcmd]
    · simpa using ⟨⟨hcmd, hrb⟩, hw⟩
  · have heq' : (chanOf s n).cmd = (chanOf s n).readback := heq
    refine (readbackDiscrepancy_due hc hdue).trans (congrArg Host.Outcome.next ((if_neg ?_).trans (if_neg ?_)))
    · simp [heq']
    · simp [heq']
  · show execFieldOutputCommand s = _
    simp only [execFieldOutputCommand, hn]
  · show execFieldOutputApply s = _
    simp only [execFieldOutputApply, hn]

/-! ## Protection and sags (R465, R468 to R470) -/

section
variable {n : ChanId} {s : State}

/-- A channel that shuts down is off, and the shutdown is counted (R465). -/
theorem thermalShutdown_off (hout : (chanOf s n).cfg.output = true) (hon : (chanOf s n).on = true) :
    ∃ t, exec (.thermalShutdown n) s = .next t ∧ (chanOf t n).on = false ∧ (chanOf t n).shutdowns = satInc (chanOf s n).shutdowns 1 := by
  refine ⟨_, if_pos (by simpa using ⟨hout, hon⟩), ?_⟩
  generalize hl : (s.clk.now :: (chanOf s n).shutAt.filter fun t => decide (s.clk.now < t + 10000000000)) = l
  generalize hb : (if 32 ≤ l.length then (0x30 : Byte) else 0x10) = b
  obtain ⟨k, hk⟩ := chanOf_setDiag n b (modChan n (fun c => { c with shutdowns := satInc c.shutdowns 1, shutAt := l }) s)
  rw [chanOf_modChan_same] at hk
  have hbit : b.getLsbD 4 = true := by
    rw [← hb]
    split <;> rfl
  rw [(chanOf_drive ..).1, hk]
  refine ⟨?_, rfl⟩
  simp only [stageOn, hk, Chan.has, BitVec.getLsbD_or, hbit, Bool.or_true, Bool.not_true, Bool.and_false, Bool.false_and]

/-- LATCH_OFF_RELEASE of a channel that is commanded on (R465). -/
theorem latchOffRelease_on (h : (chanOf s n).cmd = true) : exec (.latchOffRelease n) s = .next s := if_neg (by simp [h])

/-- GROUP_OVERLOAD: the bit follows the current (R468). -/
theorem groupOverload_eq (g : Fin 4) (mv : W16) (us : Nat) :
    let x := s.fio.groups.get g
    let above := decide (2200 < mv.toNat) && (x.overload || decide (100000 ≤ us))
    let t := modGroup g (fun x => { x with ma := mv, overload := above }) s
    exec (.groupOverload g ⟨mv, us⟩) s = .next (if (above && !x.overload) = true then event 0x0507 (det [(1, g.val), (2, mv.toNat)]) t else t) :=
  (apply_ite Host.Outcome.next _ _ _).symm

end

/-- Settles O35: the rows by their conditions, a shutdown by `thermalShutdown_off`, a stage by `chanOf_drive`. -/
theorem outputProtection : Obligations.OutputProtection := by
  intro n g mv us s c x u all sag
  refine ⟨thermalShutdown_off, fun h => if_pos h, fun hl hcmd hdue => if_pos ?_, fun hmv => ?_,
    fun hmv hus h1 h2 => if_pos ⟨hmv, hus, by rw [show (s.fio.groups.get g).sag1 = false from h1]; rfl,
      by rw [show (s.fio.groups.get g).sag2 = false from h2]; rfl⟩,
    fun hmv hus h2 => if_pos ⟨hmv, hus, by rw [show (s.fio.groups.get g).sag2 = false from h2]; rfl⟩,
    fun hmv hus hsag => if_pos ⟨hmv, hus, hsag⟩,
    fun hmv hx hus => ?_, fun h => if_neg fun hh => ?_, fun h => if_neg fun hh => ?_, fun h => if_neg fun hh => ?_,
    ⟨by rw [(chanOf_drive n s).1], (chanOf_drive n s).2⟩, fun b _ => ?_, fun b hb => setDiag_held hb, latchOffRelease_on⟩
  · simpa using ⟨⟨hl, hcmd⟩, hdue⟩
  · have habove : decide (2200 < mv.toNat) = false := by simpa using hmv
    refine (groupOverload_eq g mv us).trans (congrArg Host.Outcome.next ?_)
    simp only [habove, Bool.false_and, Bool.false_eq_true, if_false]
  · have hover : (s.fio.groups.get g).overload = false := hx
    refine (groupOverload_eq g mv us).trans (congrArg Host.Outcome.next ?_)
    simp only [hmv, hus, hover, decide_true, Bool.or_true, Bool.and_self, Bool.not_false, if_true]
  · exact h.elim (Nat.not_le.mpr hh.1) (Nat.not_lt.mpr hh.2.1)
  · exact h.elim (Nat.not_le.mpr hh.1) (Nat.not_lt.mpr hh.2.1)
  · exact h.elim (Nat.not_lt.mpr hh.1) (Nat.not_lt.mpr hh.2.1)
  · obtain ⟨l, hl⟩ := chanOf_setDiag n b s
    rw [hl]

end Sys2Proof.Machine

/-! # The rings of the Strait network -/

namespace Sys2Proof.Machine

/-! ## Rings and stations -/

section
variable {r : StraitId} {n : Nat} {s t : State}

@[simp] theorem ringOf_modStrait (f : Ring → Ring) : ringOf (modStrait r f s) r = f (ringOf s r) := vmod_get_same _ _ _

@[simp] theorem stationOf_modStation (f : Station → Station) : stationOf (modStation r n f s) r n = f (stationOf s r n) := by
  rw [stationOf, modStation, ringOf_modStrait]
  exact vmod_get_same ..

/-- A change of a ring that leaves its stations. -/
theorem stationOf_modStrait {f : Ring → Ring} (h : (f (ringOf s r)).stations = (ringOf s r).stations) :
    stationOf (modStrait r f s) r n = stationOf s r n := by
  rw [stationOf, ringOf_modStrait, h]
  rfl

theorem stationOf_congr (h : t.net = s.net) : stationOf t r n = stationOf s r n := by
  rw [stationOf, ringOf, h]
  rfl

@[simp] theorem event_net (cls : Nat) (d : W64) (s : State) : (event cls d s).net = s.net := hushed_net (event_hushed ..)

theorem foldl_net {α : Type} (g : State → α → State) (h : ∀ t x, (g t x).net = t.net) (l : List α) (s : State) :
    (l.foldl g s).net = s.net := by
  induction l generalizing s with
  | nil => rfl
  | cons x l ih => exact (ih _).trans (h s x)

@[simp] theorem modRun_net (k : Nat) (f : TaskRun → TaskRun) (s : State) : (modRun k f s).net = s.net := by
  unfold modRun
  split <;> rfl

/-- The cause of a station goes to the tasks, and leaves the network. -/
@[simp] theorem stationCause_net (b ring station : Nat) (s : State) : (stationCause b ring station s).net = s.net :=
  foldl_net _ (fun _ _ => modRun_net ..) _ _

end

/-! ## Acceptance (R305, R306, R310, R320 to R322, R361) -/

section
variable {p : PortId} {r : StraitId} {bs : List Byte} {s : State}

/-- FRAME_RECEIVE on a port that is up. -/
theorem frameReceive_up (bad : Bool) (h : portUp s p = true) :
    exec (.frameReceive p bad bs) s =
      .next ((portRing p).elim (if bad then countFcs p s else s) fun r => receiveOn p r bad bs s) := by
  refine (if_pos h).trans ?_
  cases portRing p <;> rfl

/-- BACKBONE_FRAME_RECEIVE of an IP frame with a buffer that waits for it (R361). -/
theorem backboneFrameReceive_waits {q : RingId} {e : Outst} (hp : 8 ≤ p.val) (ht : rdBe bs 12 2 = 0x0800)
    (hw : waitingDesc 0x47 (fun d => d.par 24 1 == p.val) s = some (q, e)) :
    exec (.backboneFrameReceive p bs) s = .next (
      if e.desc.len < 16 + bs.length then endDesc q e.num (doneWith 0x11 0) s
      else endDesc q e.num (doneOk (fields [(2, bs.length)]))
        (bufWrite e.desc 0 (fields [(8, s.clk.ct), (2, bs.length), (6, 0)] ++ bs) s)) := by
  rw [apply_ite Host.Outcome.next]
  show execBackboneFrameReceive p bs s = _
  simp only [execBackboneFrameReceive, ht, hw, Nat.not_lt.mpr hp, Nat.reduceEqDiff, if_false, or_self]

/-- A Strait frame with a good FCS on a ring in use. -/
theorem receiveOn_strait (hb : s.sys.selfTestEnded = true) (hf : noFirmware s = false) (ha : (ringOf s r).active = true)
    (hs : isStrait bs = true) : receiveOn p r false bs s = takeStrait p r bs s := by
  simp only [receiveOn, hb, hf, ha, hs, Bool.not_false, Bool.and_self, Bool.false_eq_true, if_false, if_true]

/-- The reference of a stream after a time of silence: emptied when nothing was accepted for 10 ms (R321). -/
def StreamRef.aged (now : Nat) (y : StreamRef) : StreamRef :=
  if y.ref.isSome && decide (y.at_ + reuseNs ≤ now) then { y with ref := none } else y

theorem StreamRef.aged_late {now : Nat} {y : StreamRef} (h : y.at_ + reuseNs ≤ now) : (y.aged now).ref = none := by
  unfold StreamRef.aged
  split
  · rfl
  · rename_i hn
    simpa [h] using hn

theorem StreamRef.aged_early {now : Nat} {y : StreamRef} (h : now < y.at_ + reuseNs) : y.aged now = y :=
  if_neg (by simp [Nat.not_le.mpr h])

/-- STREAM_SILENCE ages both references of every station. -/
theorem streamSilence_stations (s : State) :
    ∃ t, exec .streamSilence s = .next t ∧ ∀ (q : StraitId) (n : Fin 256),
      (t.net.rings.get q).stations.get n =
        { (s.net.rings.get q).stations.get n with
          inRef := ((s.net.rings.get q).stations.get n).inRef.aged s.clk.now,
          aRef := ((s.net.rings.get q).stations.get n).aRef.aged s.clk.now } := by
  refine ⟨_, rfl, fun q n => ?_⟩
  simp only [State.modNet, Vector.get_eq_getElem, Vector.getElem_map]
  rfl

end

/-- Settles O39: reception by `frameReceive_up` and `receiveOn_strait`, silence by `streamSilence_stations`, acceptance branch by branch. -/
theorem ringFrames : Obligations.RingFrames := by
  intro p r bs s
  refine ⟨fun hup hr bad => ?_, ?_, fun q e hp ht hw => ⟨fun hlen => ?_, fun hlen => ?_⟩, ?_,
    fun hup bad => if_neg (by simp [hup]), fun hup hr => ?_, fun hp => if_pos (.inl hp), fun hb hf ha hs => ⟨fun hown => ?_, fun hown => ⟨fun hh => ?_, fun hh => ?_⟩⟩,
    fun hv h0 h13 => ⟨fun hdst => ?_, fun hdst hcrc => ?_⟩, fun hv => if_pos (.inl hv), fun n len f y o ho => ?_⟩
  · rw [frameReceive_up bad hup, hr]
    rfl
  · obtain ⟨t, ht, hst⟩ := streamSilence_stations s
    refine ⟨t, ht, fun q n => ?_⟩
    simp only [hst]
    exact ⟨StreamRef.aged_late, StreamRef.aged_early, StreamRef.aged_late, StreamRef.aged_early⟩
  · rw [backboneFrameReceive_waits hp ht hw, if_neg (Nat.not_lt.mpr hlen)]
    simp only [fields, List.append_nil, List.append_assoc]
  · rw [backboneFrameReceive_waits hp ht hw, if_pos hlen]
  · intro up speed full t hsame
    exact if_pos hsame
  · rw [frameReceive_up false hup, hr]
    rfl
  · exact (receiveOn_strait hb hf ha hs).trans (if_pos hown)
  · exact (receiveOn_strait hb hf ha hs).trans ((if_neg (by simp [hown])).trans (if_pos hh))
  · exact (receiveOn_strait hb hf ha hs).trans ((if_neg (by simp [hown])).trans (if_neg (Nat.not_le.mpr hh)))
  · refine (if_neg ?_).trans (if_pos hdst)
    rintro (h | h | h) <;> omega
  · refine (if_neg ?_).trans ((if_neg (not_not.mpr hdst)).trans (if_pos hcrc))
    rintro (h | h | h) <;> omega
  · simp only [acceptSeq, ho]
    exact ⟨fun h => if_pos h, fun h => (if_neg (by omega)).trans (if_pos h), fun h => (if_neg (by omega)).trans (if_neg (by omega))⟩

/-! ## The ring cycle (R331, R332, R335) -/

section
variable {r : StraitId} {n : Nat} {s : State}

/-- A missed cycle counts at its station, and the third in a row drops it (R332). -/
theorem missCycle_station :
    ∃ x, stationOf (missCycle r n s) r n = x ∧ x.misses = (stationOf s r n).misses + 1 ∧
      x.dropped = ((stationOf s r n).dropped || decide ((stationOf s r n).misses = 2)) := by
  refine ⟨_, rfl, ?_⟩
  generalize hs1 : modStrait r (fun k => { k with miss := satInc k.miss 1 })
    (modStation r n (fun x => { x with misses := x.misses + 1, missCount := satInc x.missCount 1, good := 0 }) s) = s1
  have hx : stationOf s1 r n = { stationOf s r n with
      misses := (stationOf s r n).misses + 1, missCount := satInc (stationOf s r n).missCount 1, good := 0 } := by
    rw [← hs1, stationOf_modStrait (s := modStation ..) rfl, stationOf_modStation]
  simp only [missCycle, hs1]
  split
  · rename_i h
    have hdrop : stationOf (dropStation r n 1 s1) r n = { stationOf s1 r n with dropped := true, cause := 1, good := 0 } := by
      rw [dropStation, stationOf_congr (stationCause_net ..), stationOf_congr (event_net ..), stationOf_modStation]
    have h2 : (stationOf s r n).misses = 2 := by
      simp at h
      omega
    rw [hdrop, hx]
    exact ⟨rfl, by simp [h2]⟩
  · rename_i h
    rw [hx]
    refine ⟨rfl, ?_⟩
    cases hd : (stationOf s r n).dropped
    · simp [hd] at h
      simpa using h
    · rfl

/-- A cycle with its frame clears the misses of a station that is neither dropped nor lagging (R331). -/
theorem takeCycle_station (f : InFrame) (hd : (stationOf s r n).dropped = false) (hl : (stationOf s r n).lagging = false) :
    (stationOf (takeCycle r n f s) r n).misses = 0 ∧ (stationOf (takeCycle r n f s) r n).used = some f := by
  simp only [takeCycle, hd, hl, Bool.or_self, Bool.false_and, Bool.false_eq_true, false_and, if_false, stationOf_modStation]
  trivial

/-- The due instant of a ring that runs its cycle (R331, R380). -/
theorem dueRing_alone (ha : (ringOf s r).active = true) (hc : (ringOf s r).count ≠ 0) (hk : (ringOf s r).sched.isSome = true)
    (hrun : runsProgram s = true) (hdue : dueCt s r (ringOf s r).cycle ≤ s.clk.ct) (hsync : synced s = false) :
    dueRing r s = settleCycle r (ownMap s r) s := by
  have hgo : ((ringOf s r).active && (ringOf s r).count != 0 && (ringOf s r).sched.isSome && runsProgram s &&
      decide (dueCt s r (ringOf s r).cycle ≤ s.clk.ct)) = true := by
    simp [ha, hc, hk, hrun, hdue]
  simp only [dueRing, hgo, if_true, hsync, Bool.false_eq_true, if_false]

theorem dueRing_early (h : s.clk.ct < dueCt s r (ringOf s r).cycle) : dueRing r s = s :=
  if_neg (by simp [Nat.not_le.mpr h])

end

/-- Settles O40: the rows by their definitions and conditions, misses by `missCycle_station` and `takeCycle_station`. -/
theorem ringCycle : Obligations.RingCycle := by
  intro r n f s all
  refine ⟨rfl, fun h => if_pos h, fun h => ?_, rfl, rfl, rfl, fun hp => if_neg (by simp [hp]), fun h => if_pos h,
    fun h => if_neg (by simp [h]), fun hp => if_pos hp, dueRing_alone, dueRing_early, fun _ h2 hd => ?_, fun _ h2 => ?_,
    fun _ hd hl => takeCycle_station f hd hl⟩
  · intro t
    have hopen : exec (.gateOpen r) s = if originates t r then .next (catchUps r (sendMode r t)) else .next t := if_neg (by simp [h])
    exact ⟨fun ho => hopen.trans (if_pos ho), fun ho => hopen.trans (if_neg (by simp [ho]))⟩
  · obtain ⟨x, hx, hm, hdr⟩ := missCycle_station (r := r) (n := n) (s := s)
    rw [hx, hm, hdr, h2]
    simp
  · obtain ⟨x, hx, hm, hdr⟩ := missCycle_station (r := r) (n := n) (s := s)
    rw [hx, hm, hdr]
    simp only [Nat.ne_of_lt h2, decide_false, Bool.or_false]
    trivial

/-! ## Requests and cut-offs (R193, R328, R337, R361) -/

section
variable {r : StraitId} {s : State} {q : RingId} {dma : List Byte} {e : Outst}

/-- NET_A_SEND of a request that its fields allow (R319, R337). -/
theorem doNetASend_fields (hr : e.desc.par 24 1 = r.val) (hop : requestOp (e.desc.par 27 1) = true) (h1 : 1 ≤ e.desc.par 28 2)
    (h2 : e.desc.par 28 2 ≤ 16384) (hlen : roundUp (e.desc.par 28 2) 8 + e.desc.par 32 4 ≤ e.desc.len) :
    doNetASend q dma e s =
      if (!originates s r || (ringOf s r).sched.isNone || (ringOf s r).count == 0) = true then (s, .finish (doneWith 0x07 0))
      else if (ringOf s r).count ≤ e.desc.par 25 1 then (s, .finish (doneWith 0x08 0))
      else (meetsDeadline s r (e.desc.par 25 1) (e.desc.par 28 2) (longestRsp (e.desc.par 27 1)) (max e.fetchCt (ringOf s r).sentUntil)
          e.desc.deadline).elim
        (openA r (some (q, e.num)) (e.desc.par 25 1) (e.desc.par 26 1) (e.desc.par 27 1) ((bufRead e.desc dma s).take (e.desc.par 28 2))
          (e.desc.par 32 4) (roundUp (e.desc.par 28 2) 8) e.desc.deadline s, .wait e.bound)
        fun t => (s, .finish (doneWith 0x02 (min 4294967295 ((t - e.desc.deadline) / 1000)))) := by
  have hrange : (!requestOp (e.desc.par 27 1) || outRange 1 16384 (e.desc.par 28 2) ||
      decide (e.desc.len < roundUp (e.desc.par 28 2) 8 + e.desc.par 32 4)) = false := by
    simp [hop, outRange, Nat.not_lt.mpr hlen]
    omega
  simp only [doNetASend, fin?_val hr, hrange, Bool.false_eq_true, if_false]
  split
  · rfl
  · split
    · rfl
    · cases meetsDeadline s r (e.desc.par 25 1) (e.desc.par 28 2) (longestRsp (e.desc.par 27 1)) (max e.fetchCt (ringOf s r).sentUntil)
        e.desc.deadline <;> rfl

/-- A request without a deadline is never late. -/
theorem meetsDeadline_none {n req rsp from_ : Nat} : meetsDeadline s r n req rsp from_ 0 = none := by
  unfold meetsDeadline
  split
  · rfl
  · simp

/-- NET_RAW_SEND on port 8 with a frame length that a port may send. -/
theorem doNetRawSend_port8 (hp : e.desc.par 24 1 = 8) (h1 : 60 ≤ e.desc.par 28 2) (h2 : e.desc.par 28 2 ≤ 1514)
    (hlen : roundUp (e.desc.par 28 2) 8 ≤ e.desc.len) :
    doNetRawSend dma e s =
      if (!portUp s 8) = true then (s, .finish (doneWith 0x07 0))
      else (emitFrame 8 ((bufRead e.desc dma s).take (e.desc.par 28 2)) s, .finish (doneOk (fields [(8, s.clk.ct)]))) := by
  have hrange : (outRange 60 1514 (e.desc.par 28 2) || decide (e.desc.len < roundUp (e.desc.par 28 2) 8)) = false := by
    simp [outRange, Nat.not_lt.mpr hlen]
    omega
  simp only [doNetRawSend, hp, show backbonePort 8 = some 8 from rfl, hrange, Bool.false_eq_true, if_false]

/-- A release of a task and cycle stands among the releases. -/
def hasRelease (s : State) (task cycle : Nat) (p : Release → Prop) : Prop :=
  ∃ y ∈ s.tsk.rels, y.task = task ∧ y.cycle = cycle ∧ p y

theorem lateRelease_rels (x : Release) (s : State) : (lateRelease x s).tsk.rels = s.tsk.rels := by
  have hrun (k : Nat) (f : TaskRun → TaskRun) : (modRun k f s).tsk.rels = s.tsk.rels := by
    unfold modRun
    split <;> rfl
  exact (congrArg Tsk.rels (hushed_tsk (eventAt_hushed ..))).trans (hrun ..)

/-- A cut-off marks the release of its task and cycle, and keeps those that are past theirs (R193). -/
theorem cutRelease_rels (x : Release) (s : State) :
    ∃ f : Release → Release, (cutRelease x s).tsk.rels = s.tsk.rels.map (fun y => if y.task = x.task ∧ y.cycle = x.cycle then f y else y) ∧
      ∀ y, (f y).task = y.task ∧ (f y).cycle = y.cycle ∧ (f y).cut = true := by
  refine ⟨fun y => { y with cut := true, image := x.outs.map fun e => (e.point, outputValue s x e), late := y.open_ }, ?_,
    fun _ => ⟨rfl, rfl, rfl⟩⟩
  unfold cutRelease
  dsimp only
  split
  · rw [lateRelease_rels]
    rfl
  · rfl

/-- What a cut-off keeps of a release, with its mark if that is the one that is cut. -/
theorem hasRelease_cutRelease {x : Release} {task cycle : Nat} {b : Bool} (h : hasRelease s task cycle fun y => b = true → y.cut = true) :
    hasRelease (cutRelease x s) task cycle fun y => (b || (x.task == task && x.cycle == cycle)) = true → y.cut = true := by
  obtain ⟨y, hy, ht, hc, hcut⟩ := h
  obtain ⟨f, hrels, hf⟩ := cutRelease_rels x s
  obtain ⟨hft, hfc, hfcut⟩ := hf y
  refine ⟨if y.task = x.task ∧ y.cycle = x.cycle then f y else y, hrels ▸ List.mem_map_of_mem hy, ?_⟩
  split
  · exact ⟨hft.trans ht, hfc.trans hc, fun _ => hfcut⟩
  · rename_i hne
    refine ⟨ht, hc, fun hb => hcut ?_⟩
    have hother : (x.task == task && x.cycle == cycle) = false := by
      rw [Bool.eq_false_iff]
      intro h
      obtain ⟨htask, hcycle⟩ := Bool.and_eq_true_iff.mp h
      exact hne ⟨ht.trans (eq_of_beq htask).symm, hc.trans (eq_of_beq hcycle).symm⟩
    simpa [hother] using hb

/-- After the cut-offs of a list of releases, each of them is past its cut-off. -/
theorem hasRelease_cutAll {task cycle : Nat} (l : List Release) : ∀ {s : State} {b : Bool},
    hasRelease s task cycle (fun y => b = true → y.cut = true) →
      hasRelease (l.foldl (fun t x => cutRelease x t) s) task cycle
        fun y => (b || l.any fun x => x.task == task && x.cycle == cycle) = true → y.cut = true := by
  induction l with
  | nil => simp
  | cons x l ih =>
    intro s b h
    have := ih (hasRelease_cutRelease (x := x) h)
    simpa [Bool.or_assoc] using this

end

/-- Settles O42: requests by `doNetASend_fields`, raw frames by `doNetRawSend_port8`, the cut-off by `hasRelease_cutAll`. -/
theorem requestsAndCutOffs : Obligations.RequestsAndCutOffs := by
  intro q r dma s e n len fin
  refine ⟨rfl, fun h hp h1 h2 hlen => ⟨fun hup => next_served_finish h ?_, fun hup => next_served_finish h ?_⟩,
    fun h hp hlen => next_served_wait h ?_, fun h hr hop h1 h2 hlen => ⟨fun ho hk hc => ⟨fun hn hdl => next_served_wait h ?_, fun hn => next_served_finish h ?_,
      fun t hn hlate => next_served_finish h ?_⟩, fun ho => next_served_finish h ?_⟩,
    fun hno => if_neg (by simp [hno]), fun hrels htails => ?_, fun x hx hcut hdue => ?_⟩
  · rw [doNetRawSend_port8 hp h1 h2 hlen, if_neg (by simp [hup])]
    simp only [fields, List.append_nil]
    rfl
  · rw [doNetRawSend_port8 hp h1 h2 hlen, if_pos (by simp [hup])]
  · refine if_neg ?_
    rcases hp with hp | hp
    · simp [hp, show backbonePort 8 = some 8 from rfl, hlen]
    · simp [hp, show backbonePort 9 = some 9 from rfl, hlen]
  · have hgo : ¬ (!originates s r || (ringOf s r).sched.isNone || (ringOf s r).count == 0) = true := by
      simp [ho, hc, Option.isSome_iff_ne_none.mp hk]
    rw [doNetASend_fields hr hop h1 h2 hlen, if_neg hgo, if_neg (Nat.not_le.mpr hn), hdl, meetsDeadline_none]
    rfl
  · have hgo : ¬ (!originates s r || (ringOf s r).sched.isNone || (ringOf s r).count == 0) = true := by
      simp [ho, hc, Option.isSome_iff_ne_none.mp hk]
    rw [doNetASend_fields hr hop h1 h2 hlen, if_neg hgo, if_pos hn]
  · have hgo : ¬ (!originates s r || (ringOf s r).sched.isNone || (ringOf s r).count == 0) = true := by
      simp [ho, hc, Option.isSome_iff_ne_none.mp hk]
    rw [doNetASend_fields hr hop h1 h2 hlen, if_neg hgo, if_neg (Nat.not_le.mpr hn), hlate]
    rfl
  · rw [doNetASend_fields hr hop h1 h2 hlen, if_pos (by simp [ho])]
  · have hcut : cutTails (cutDue s) = s := by
      have hdue : cutDue s = s := by rw [cutDue, hrels]; rfl
      rw [hdue, cutTails, htails]
      rfl
    refine congrArg Host.Outcome.next ?_
    rw [hcut, sendDue, hrels]
    simp [htails]
  · have hin : x ∈ s.tsk.rels.filter fun r => !r.cut && decide (r.instant ≤ s.clk.ct + r.lead) := by
      simp [hx, hcut, hdue]
    have hhas : hasRelease s x.task x.cycle fun y => false = true → y.cut = true := ⟨x, hx, rfl, rfl, fun h => absurd h (by decide)⟩
    obtain ⟨y, hy, ht, hc, hdone⟩ := hasRelease_cutAll (s.tsk.rels.filter fun r => !r.cut && decide (r.instant ≤ s.clk.ct + r.lead)) hhas
    refine ⟨y, hy, ht, hc, hdone ?_⟩
    simp only [Bool.false_or, List.any_eq_true]
    exact ⟨x, hin, by simp⟩

end Sys2Proof.Machine

/-! # The Narrows link: its cells, its failures and its claims (O43 to O45)

A cell row is `takeCell` of its number; the rows of the link and the interlock line are one condition each. -/

namespace Sys2Proof.Machine

/-! ## Cells (R367) -/

/-- A cell not yet taken, at a module that sends cells, does what it carries. -/
theorem takeCell_fresh {n : Nat} {s : State} (hc : sendsCells s = true) (hn : s.pair.rxSeen.contains n = false) (f : State → State) :
    takeCell n f s = f (noteCell n s) := by
  rw [takeCell, if_pos hc, hn, if_neg Bool.false_ne_true]

/-- A cell taken before is acknowledged alone. -/
theorem takeCell_repeat {n : Nat} {s : State} (hc : sendsCells s = true) (hn : s.pair.rxSeen.contains n = true) (f : State → State) :
    takeCell n f s = noteCell n s := by
  rw [takeCell, if_pos hc, if_pos hn]

/-- A module that sends no cells takes none. -/
theorem takeCell_silent {n : Nat} {s : State} (hc : sendsCells s = false) (f : State → State) : takeCell n f s = s := by
  rw [takeCell, hc, if_neg Bool.false_ne_true]

/-- The row of a mirrored item that can be acknowledged is that of its cell. -/
theorem execNarrowsMirror_prepared {i : MirrorItem} {s : State} (hi : unprepared i s = false) (n : Nat) (src : Option (RingId × Nat)) :
    execNarrowsMirror n i src s = .next (takeCell n (takeMirror i src) s) :=
  if_neg (by simp [hi])

/-- A transaction that the standby cannot prepare takes effect there without an acknowledgement. -/
theorem execNarrowsMirror_unprepared {n : Nat} {i : MirrorItem} {s : State} (hc : sendsCells s = true)
    (hn : s.pair.rxSeen.contains n = false) (hi : unprepared i s = true) (src : Option (RingId × Nat)) :
    execNarrowsMirror n i src s = .next (takeMirror i src s) :=
  if_pos (by simp only [hc, hn, hi, Bool.not_false, Bool.and_self])

/-- Settles O43: each cell row is `takeCell`, which has one equation per case. -/
theorem narrowsCells : Obligations.NarrowsCells := by
  intro n s
  refine ⟨fun hc hn => ?_, fun ct c h => ?_, fun ct h => ?_, fun hc hn => takeCell_repeat hc hn, takeCell_silent⟩
  · intro got
    have hrow (f : State → State) : Host.Outcome.next (takeCell n f s) = (.next (got f) : Host.Outcome State Fault Refusal) :=
      congrArg Host.Outcome.next (takeCell_fresh hc hn f)
    exact ⟨fun _ _ _ _ _ => hrow _, fun _ => hrow _, fun _ _ _ _ => hrow _, fun _ _ => hrow _, fun _ => hrow _, fun _ => hrow _,
      fun i src hi => (execNarrowsMirror_prepared hi n src).trans (hrow _), hrow _, hrow _,
      fun i src hi => execNarrowsMirror_unprepared hc hn hi src⟩
  · show execNarrowsCellAck n ct s = _
    simp only [execNarrowsCellAck, h]
  · show execNarrowsCellAck n ct s = _
    simp only [execNarrowsCellAck, h]

/-! ## The link (R366 to R368, R384, R399) -/

/-- One overdue cell with repeats left is sent once more. -/
theorem execCellRepeat_one {s : State} {c : PairCell} (hl : overdueCells s = [c]) (hc : c.tries < 3) :
    execCellRepeat s = .next (repeatCell c s) := by
  have hge : ¬ 3 ≤ c.tries := by omega
  simp [execCellRepeat, hl, hc, hge]

/-- With no overdue cell nothing is repeated. -/
theorem execCellRepeat_none {s : State} (hl : overdueCells s = []) : execCellRepeat s = .next s := by
  simp [execCellRepeat, hl]

/-- The 1 s row where it is due: chip time goes along, and the CRC with the release that began last. -/
theorem execRetentiveCrcMirror_due {s : State} (hm : mirrors s = true) (hd : s.pair.crcAt + 1000000000 ≤ s.clk.now)
    (hq : quiet s = true) :
    execRetentiveCrcMirror s =
      match latestRelease s with
      | some (t, c) => .next (if hasRetentive s then mirror (.retentive t c (retentiveCrc s))
          (mirrorTime (s.modPair fun p => { p with crcAt := s.clk.now })) else mirrorTime (s.modPair fun p => { p with crcAt := s.clk.now }))
      | none => .next (mirrorTime (s.modPair fun p => { p with crcAt := s.clk.now })) :=
  if_pos (by simp only [hm, hd, hq, decide_true, Bool.and_self])

/-- Settles O44, one condition per row. -/
theorem narrowsLink : Obligations.NarrowsLink := by
  intro s n feats o clock p d c
  have hdelay (hdue : p.delayAt + 1000000 ≤ s.clk.now) :
      exec (.narrowsDelayMeasure n) s = if (pairMember s && decide (10000 < n / 2)) = true then .next (failLink 2 d) else .next d :=
    if_pos hdue
  refine ⟨fun hu hd => if_pos ?_, fun hp => if_pos hp, fun hd hn => (hdelay hd).trans (if_neg ?_), fun c hl ht => execCellRepeat_one hl ht,
    fun hc hd => if_pos ?_, fun hm hd hq hr => ?_, fun hp ha hd => if_pos ?_, fun hl => if_pos hl, fun hl => if_neg ?_,
    fun hd hn hp => (hdelay hd).trans (if_pos ?_), fun hd => if_neg (Nat.not_le.2 hd), fun hd => if_neg ?_, fun hd => if_neg ?_,
    fun hp => if_neg ?_, fun hl => execCellRepeat_none hl, fun r hr hm hd hq hret => ?_, fun hm => if_neg ?_, fun ha => if_neg ?_⟩
  · rw [show s.pair.up = true from hu, decide_eq_true hd]; rfl
  · simp [Nat.not_lt.2 hn]
  · rw [hc, decide_eq_true hd]; rfl
  · show execRetentiveCrcMirror s = _
    rw [execRetentiveCrcMirror_due hm hd hq, hr]
  · rw [hp, ha, decide_eq_true hd]; rfl
  · rw [hl]; exact Bool.false_ne_true
  · rw [hp, decide_eq_true hn]; rfl
  · simpa using fun _ => hd
  · simpa using fun _ => hd
  · rw [hp]; exact Bool.false_ne_true
  · show execRetentiveCrcMirror s = _
    rw [execRetentiveCrcMirror_due hm hd hq, hr]
    simp only [hret, if_true]
    rfl
  · simp [hm]
  · simp [ha]

/-! ## Claims (R369 to R376) -/

/-- The start time-out where the link is not up: the module claims where it may, and is detached else. -/
theorem execPairStartTimeout_due {s : State} (hc : sendsCells s = true) (hw : s.pair.state = .waiting) (hu : s.pair.up = false)
    (hd : s.pair.startAt + 2000000000 ≤ s.clk.now) :
    execPairStartTimeout s = .next (if claimOpen s then claimIf s else detach false s) :=
  if_pos (by simp [hc, hw, hu, hd])

/-- The test pulse where it is due: a pulse that is not seen on the readback is recorded. -/
theorem execIlkTestPulse_due {s : State} (hp : pairMember s = true) (ht : s.pair.toggling = false)
    (hd : s.pair.pulseSentAt + 10000000000 ≤ s.clk.now) (seen : Bool) :
    execIlkTestPulse seen s =
      .next (if seen then emit .ilkPulse (s.modPair fun p => { p with pulseSentAt := s.clk.now })
        else event 0x030F 0 (emit .ilkPulse (s.modPair fun p => { p with pulseSentAt := s.clk.now }))) :=
  if_pos (by simp only [hp, ht, hd, Bool.not_false, decide_true, Bool.and_self])

/-- Settles O45, one condition per row. -/
theorem pairClaims : Obligations.PairClaims := by
  intro s p run pulse
  refine ⟨fun hi => if_neg ?_, fun hi hd => if_pos ?_, fun hs ht hd hi ho => if_pos ?_, fun t hb ht => ?_,
    fun hp ht hd => execIlkTestPulse_due hp ht hd true, rfl, fun hp ht hd => if_pos ?_, fun hc hw hu hd => ?_, fun hp hi => if_pos ?_,
    fun hp ht hd => execIlkTestPulse_due hp ht hd false, fun hd => if_neg ?_, fun hs => if_neg ?_, fun hb => ?_,
    fun ht b => if_neg ?_, fun ht => if_neg ?_, fun hu => if_neg ?_⟩
  · simp [show s.pair.ilkIn = true from hi]
  · rw [show s.pair.ilkIn = true from hi, decide_eq_true hd]; rfl
  · rw [show s.pair.state = .claiming from hs, show s.pair.toggling = true from ht, decide_eq_true hd, show s.pair.ilkIn = false from hi,
      decide_eq_true ho]; rfl
  · show execClaimBackoffEnd s = _
    rw [execClaimBackoffEnd, show s.pair.backoff = some t from hb]
    exact if_pos ht
  · rw [hp, show s.pair.toggling = true from ht, decide_eq_true hd]; rfl
  · have hrow := execPairStartTimeout_due hc hw hu hd
    exact ⟨fun ho => hrow.trans (by rw [if_pos ho]), fun ho => hrow.trans (by rw [ho]; rfl)⟩
  · rw [hp, show s.pair.ilkIn = false from hi]; rfl
  · simpa using fun _ => hd
  · simp [show s.pair.state ≠ .claiming from hs]
  · show execClaimBackoffEnd s = _
    rw [execClaimBackoffEnd, show s.pair.backoff = none from hb]
  · simp [show s.pair.toggling = true from ht]
  · simp [show s.pair.toggling = false from ht]
  · simp [show s.pair.up = true from hu]

end Sys2Proof.Machine

/-! # The pair: its changes and its descriptors (O46, O47) -/

namespace Sys2Proof.Machine

/-! ## Reverts (R395 to R397) -/

/-- A cell sent leaves the account of the reverts. -/
theorem pairSend_reverts (m : NarrowsMsg) (s : State) :
    (pairSend m s).pair.reverts = s.pair.reverts ∧ (pairSend m s).pair.revertOff = s.pair.revertOff := by
  unfold pairSend pairSendFor
  split <;> exact ⟨rfl, rfl⟩

/-- A module that stays healthy keeps the instant since which it has been so. -/
theorem trackHealth_since {s : State} {a : Nat} (hh : healthy s = true) (ha : s.pair.healthySince = some a) :
    (trackHealth s).pair.healthySince = some a := by
  simp [trackHealth, State.modPair, hh, ha]

/-- The revert row of a preferred module that has been healthy for HOLD_OFF: it asks for the role unless it has done so twice within
the last hour. -/
theorem execRevertHoldOff_due {s : State} {a : Nat} (hm : pairMember s = true) (hp : preferred s = true)
    (hc : s.rwp.pairCfg.getLsbD 2 = true) (ho : s.pair.revertOff = false) (hh : healthy s = true) (ha : s.pair.healthySince = some a)
    (hd : a + holdOffNs s ≤ s.clk.now) :
    execRevertHoldOff s =
      if 2 ≤ (lastHour s s.pair.reverts).length then
        .next (event 0x030B 0 ((trackHealth s).modPair fun p => { p with revertOff := true }))
      else .next (pairSend .revertReq ((trackHealth s).modPair fun p =>
        { p with reverts := lastHour s s.pair.reverts ++ [s.clk.now], healthySince := some s.clk.now })) := by
  have hsince := trackHealth_since hh ha
  have hdue : ((trackHealth s).pair.healthySince.map fun t =>
      decide (t + holdOffNs (trackHealth s) ≤ (trackHealth s).clk.now)).getD false = true := by
    rw [hsince, Option.map_some, Option.getD_some]
    exact decide_eq_true hd
  have hcond : (pairMember (trackHealth s) && preferred (trackHealth s) && (trackHealth s).rwp.pairCfg.getLsbD 2 &&
      !(trackHealth s).pair.revertOff && ((trackHealth s).pair.healthySince.map fun t =>
        decide (t + holdOffNs (trackHealth s) ≤ (trackHealth s).clk.now)).getD false) = true := by
    rw [hdue, show pairMember (trackHealth s) = true from hm, show preferred (trackHealth s) = true from hp,
      show (trackHealth s).rwp.pairCfg.getLsbD 2 = true from hc, show (trackHealth s).pair.revertOff = false from ho]
    rfl
  unfold execRevertHoldOff
  exact if_pos hcond

/-! ## Joins (R377, R378) -/

/-- The final copy of an active module that serves a join: in a quiet window that is long enough, or the count of the dirty lines
alone. -/
theorem execJoinFinalCopy_serving {n : Nat} {s : State} (hm : pairMember s = true) (hs : s.pair.state = .activeAlone)
    (hj : s.pair.joinStep = 3) (hu : s.pair.up = true) :
    execJoinFinalCopy n s =
      let d := s.modPair fun p => { p with dirty := p.lines.count }
      if quiet d && (((nextPeriodic d).map fun x => decide (d.clk.ct + joinFinNs d + 20000 ≤ x)).getD true) then
        .next (sendFinal ((correctedIn (readLane s) n d).modPair fun p =>
          { p with joinStep := 4, joinFinal := true, joinT := d.clk.ct + joinFinNs d }))
      else .next d :=
  if_pos (by simp [hm, hs, hj, hu])

/-- Settles O46: the rows by their conditions, the revert row by the number of reverts within the last hour. -/
theorem pairChanges : Obligations.PairChanges := by
  intro a n s p last d may
  refine ⟨fun hs hm hf hd => if_pos ?_, fun hs hm hi hf hd => if_pos ?_, fun hm hd hs hj => ?_, rfl, rfl, fun hm hs hj hu hq hn => ?_,
    ?_, ?_, fun hm hs hj hu hq => ?_, fun hs => if_neg ?_, fun hi => if_neg ?_, fun hj => if_neg ?_, fun hd => if_neg ?_,
    fun hm => if_neg ?_⟩
  · rw [show s.pair.state = .activeSynced from hs, hm, failedSince, if_pos (show s.pair.failed = true from hf), after100us,
      Option.map_some, decide_eq_true hd]
    rfl
  · rw [show s.pair.state = .standbySynced from hs, hm, show s.pair.ilkIn = true from hi, failedSince,
      if_pos (show s.pair.failed = true from hf), after100us, Option.map_some, decide_eq_true hd]
    rfl
  · have hrow : execJoinTimeout s = _ := if_pos (by rw [hm, decide_eq_true hd]; rfl)
    refine hrow.trans ?_
    rw [show s.pair.state = .standbyJoining from hs]
    exact if_neg hj
  · refine (execJoinFinalCopy_serving hm hs hj hu).trans (if_pos ?_)
    rw [hq, hn]
    rfl
  · rintro ⟨hm, hp, hc, ho, hh, ha, hd⟩ hl
    obtain ⟨hr, hoff⟩ := pairSend_reverts .revertReq ((trackHealth s).modPair fun p =>
      { p with reverts := last ++ [s.clk.now], healthySince := some s.clk.now })
    exact ⟨_, (execRevertHoldOff_due hm hp hc ho hh ha hd).trans (if_neg (Nat.not_le.2 hl)), hr, hoff.trans ho⟩
  · rintro ⟨hm, hp, hc, ho, hh, ha, hd⟩ hl
    exact ⟨_, (execRevertHoldOff_due hm hp hc ho hh ha hd).trans (if_pos hl), by rw [hushed_pair (event_hushed ..)]; rfl⟩
  · refine (execJoinFinalCopy_serving hm hs hj hu).trans (if_neg ?_)
    rw [hq]
    exact Bool.false_ne_true
  · simp [show s.pair.state ≠ .activeSynced from hs]
  · simp [show s.pair.ilkIn = false from hi]
  · simp [show s.pair.joinStep ≠ 3 from hj]
  · simpa using fun _ => hd
  · rw [show pairMember (trackHealth s) = false from hm]
    exact Bool.false_ne_true

/-! ## Descriptors (R396, R397, R401, R402) -/

/-- A synchronised active module exercises authority. -/
theorem hasAuthority_of_activeSynced {s : State} (h : s.pair.state = .activeSynced) : hasAuthority s = true := by
  simp [hasAuthority, h]

/-- What PAIR_DETACH does on a pair member with a role. -/
theorem doPairDetach_role {e : Outst} {s : State} (hm : pairMember s = true)
    (hs : s.pair.state = .standbySynced ∨ s.pair.state = .activeSynced) :
    doPairDetach e s = (detachPair s, .finish (doneOk [])) := by
  refine if_pos ?_
  cases hs with
  | inl h => simp [hm, h]
  | inr h => simp [hm, hasAuthority_of_activeSynced h]

/-- Settles O47: each row is its descriptor's work, which one condition decides. -/
theorem pairDescriptors : Obligations.PairDescriptors := by
  intro q s e fin
  refine ⟨fun h hl => next_served_finish h ((if_neg (Nat.not_lt.2 hl)).trans ?_), fun h hm hn => next_served_wait h (if_pos ?_),
    fun h hm hs => next_served_finish h ?_, fun h hm hs => next_served_finish h ((doPairDetach_role hm (.inl hs)).trans ?_),
    fun h => next_served_finish h rfl, fun h hm hs => next_served_finish h ((doPairDetach_role hm (.inr hs)).trans ?_),
    fun h hl => next_served_finish h (if_pos hl), fun h hm => ⟨fun ha => next_served_finish h ?_, fun ha => next_served_finish h ?_⟩,
    fun hm => ⟨fun h => next_served_finish h (if_pos ?_), fun h => next_served_finish h (if_neg ?_)⟩⟩
  · simp only [fields, List.append_nil]
  · rw [hm, hn]; rfl
  · simp [doPairJoin, hm, hs]
  · simp only [detachPair, hs]
  · simp only [detachPair, hs]
  · simp [doPairSwitch, hm, ha]
  · simp [doPairSwitch, hm, ha]
  · rw [hm]; rfl
  · rw [hm]; exact Bool.false_ne_true

end Sys2Proof.Machine

/-! # Programs and their switch (O48, O49) -/

namespace Sys2Proof.Machine

/-! ## Descriptors that are mirrored when their work is done -/

section
variable {q : RingId} {op : Nat} {s : State} {e : Outst} {item : Outst → State → MirrorItem} {f : Outst → State → State × Done}

/-- The row of an opcode that mirrors what it has done, on a module that mirrors nothing. -/
theorem next_done_alone (hm : mirrors s = false) (h : served s q op e) :
    (Host.Outcome.next (serveThenMirror q op item f s) : Host.Outcome State Fault Refusal) = .next (endDesc q e.num (f e s).2 (f e s).1) := by
  have hrow : serveThenMirror q op item f s = serve q op s fun e s => ((f e s).1, .finish (f e s).2) := by
    simp only [serveThenMirror, h.1, hm, Bool.false_and, Bool.false_eq_true, if_false]
  rw [hrow]
  exact next_served_finish h rfl

end

/-! ## PRG_LOAD (R228, R230) -/

/-- An image that passes its checks is loaded only into an EMPTY bank, outside a resynchronisation, where every lane in service reads
back the same code. -/
theorem loadBank_checked {k : Nat} {b : Fin 2} {bs : List Byte} {bad : List LaneId} {i : Image} {s : State} (hk : k = b.val)
    (hi : checkImage s.prg.key bs = .ok i) :
    loadBank k bs bad s =
      if (bankOf s b).state ≠ .empty then (s, doneRefused 7 0 0 0)
      else if resyncing s then (s, doneRefused 8 0 0 0)
      else if (lanesIn s).any fun l => bad.contains l then
        ((freeValue s).2, doneWith (BitVec.ofNat 8 (2 + (freeValue s).1.toNat % 16)) 0)
      else (modBank b (fun _ => ⟨.loaded, some i, none⟩) s, doneOk (leBytes 8 i.id.toNat)) := by
  have hf : fields [(8, i.id.toNat)] = leBytes 8 i.id.toNat := List.append_nil _
  unfold loadBank
  rw [hi, ← hf]
  simp only [fin?_val hk]

/-- The free status of a load whose code does not read back is not 0. -/
theorem freeStatus_ne_zero (n : Nat) : BitVec.ofNat 8 (2 + n % 16) ≠ 0 := by
  intro h
  have hn := congrArg BitVec.toNat h
  simp only [BitVec.toNat_ofNat, Nat.reducePow, BitVec.ofNat_eq_ofNat, Nat.zero_mod] at hn
  omega

/-! ## PRG_SAVE and PRG_KEY_SET (R229, R260) -/

/-- PRG_SAVE of a bank that holds an image: its password comes first. -/
theorem doPrgSave_image {q : RingId} {e : Outst} {b : Fin 2} {i : Image} {s : State} (hb : e.desc.par 24 1 = b.val)
    (hs : e.desc.par 25 1 ≤ 1) (hi : bankImage s b = some i) :
    doPrgSave q e s =
      let c := checkPwd 0 true (slice e.desc.param 16 16) s
      if c.1 && i.damaged then (c.2, .finish (doneWith stMediaError 0))
      else if c.1 then
        (queueImage q e.num (e.desc.par 25 1) (e.desc.par 26 1 == 1) (pagesOf (i.raw.length / 256 + 1) i.raw) c.2, .wait e.bound)
      else (c.2, .finish (doneWith stAccessDenied 0)) := by
  simp only [doPrgSave, fin?_val hb, fin?_val (i := ⟨e.desc.par 25 1, Nat.lt_succ_of_le hs⟩) rfl, hi]

/-- PRG_SAVE of a bank without an image. -/
theorem doPrgSave_none {q : RingId} {e : Outst} {b : Fin 2} {s : State} (hb : e.desc.par 24 1 = b.val) (hs : e.desc.par 25 1 ≤ 1)
    (hi : bankImage s b = none) : doPrgSave q e s = (s, .finish (doneWith stBadState 0)) := by
  simp only [doPrgSave, fin?_val hb, fin?_val (i := ⟨e.desc.par 25 1, Nat.lt_succ_of_le hs⟩) rfl, hi]

/-- PRG_KEY_SET that installs a key: refused where one is installed. -/
theorem doPrgKeySet_install {q : RingId} {dma : List Byte} {e : Outst} {s : State} (ha : e.desc.par 24 1 = 0) (hl : e.desc.len = 104) :
    doPrgKeySet q dma e s =
      if s.prg.key.isSome = true then (s, .finish (doneWith stBadState 0))
      else
        let k := some ((bufRead e.desc dma s).take 97)
        (mirror (.storePage keyPage (keyBody k)) (queuePage 4 keyPage (keyBody k) (.keySet q e.num k) s), .wait e.bound) := by
  simp [doPrgKeySet, ha, hl]

/-- Settles O48. -/
theorem programs : Obligations.Programs := by
  intro q dma bad b s e at_ ends p bs
  refine ⟨fun h => ⟨_, ?_, next_served_finish h rfl⟩, fun k h ha hl hk hkk => next_served_wait h ?_, fun hb =>
    ⟨fun i c hs h hi hd hc hg => next_served_wait h ?_, fun i h hi he hr hall => ?_,
      fun c hs h hc hg hi => ?_, fun hs h hi => next_served_finish h (doPrgSave_none hb hs hi), fun i h hi => ⟨fun he => ?_, fun he hr => ?_,
      fun l he hr hl hbad => ?_⟩⟩, fun h ha hl hk => next_served_finish h ?_⟩
  · simp only [fields, List.append_nil, List.length_append, leBytes_length]
  · subst hkk
    rw [doPrgKeySet_install ha hl, if_neg (by simp [hk])]
  · subst hc
    rw [doPrgSave_image hb hs hi]
    simp [hg, hd]
    rfl
  · refine (next_done_alone h.2 h.1).trans ?_
    rw [show doPrgLoad dma bad e s = _ from loadBank_checked hb hi, if_neg (not_not.2 he), if_neg (by simp [hr]), if_neg (by simpa using hall)]
  · subst hc
    obtain ⟨i, hi, -⟩ := (Option.any_eq_true ..).1 hi
    refine next_served_finish h ((doPrgSave_image hb hs hi).trans ?_)
    simp only [hg, Bool.false_and, Bool.false_eq_true, if_false]
  · refine (next_done_alone h.2 h.1).trans ?_
    rw [show doPrgLoad dma bad e s = _ from loadBank_checked hb hi, if_pos he]
  · refine (next_done_alone h.2 h.1).trans ?_
    rw [show doPrgLoad dma bad e s = _ from loadBank_checked hb hi, if_neg (not_not.2 he), if_pos hr]
  · refine ⟨doneWith (BitVec.ofNat 8 (2 + (freeValue s).1.toNat % 16)) 0, (next_done_alone h.2 h.1).trans ?_,
      freeStatus_ne_zero (freeValue s).1.toNat⟩
    rw [show doPrgLoad dma bad e s = _ from loadBank_checked hb hi, if_neg (not_not.2 he), if_neg (by simp [hr]),
      if_pos (List.any_eq_true.2 ⟨l, hl, hbad⟩)]
  · rw [doPrgKeySet_install ha hl, if_pos hk]

/-! ## The switch (R235, R238, R243, R259) -/

/-- PRG_SWITCH_STAGE of the owner: it names its bank and its instant. -/
theorem doPrgSwitchStage_named {q : RingId} {e : Outst} {b : Fin 2} {x : Nat} {s : State} (ho : ownsTxn s q = true)
    (hb : e.desc.par 24 1 = b.val) (hm : e.desc.par 25 1 ≤ 1)
    (hx : namedInstant s (e.desc.par 25 1) (e.desc.par 26 1) (e.desc.par 32 8) = some x) :
    doPrgSwitchStage q e s = (mirror (.txnSwitch b.val x) (stageSwitch b.val x s), .finish (doneOk (leBytes 8 x))) := by
  simp only [doPrgSwitchStage, ho, Bool.not_true, Bool.false_eq_true, if_false, if_neg (Nat.not_lt.2 hm), fin?_val hb, hx, fields,
    List.append_nil]

/-- PRG_RELEASE of a bank: it is emptied unless it is held. -/
theorem doPrgRelease_bank {e : Outst} {b : Fin 2} {s : State} (hb : e.desc.par 24 1 = b.val) :
    doPrgRelease e s =
      if bankHeld s b then (s, .finish (doneWith stBadState 0)) else (modBank b (fun _ => ⟨.empty, none, none⟩) s, .finish (doneOk [])) := by
  simp only [doPrgRelease, fin?_val hb]

/-- The commit point of a committed switch. -/
theorem execSwitchCommit_some {w : SwitchRun} {s : State} (h : s.prg.sw = some w) :
    execSwitchCommit s =
      if (!w.done && decide (w.x ≤ s.clk.ct + w.w)) = true then
        let t := (confirmQuiet (modBank w.bank (fun x => { x with state := .switching }) s)).modPrg fun p =>
          { p with sw := some { w with done := true }, fetch := w.bank }
        .next (((lanesIn t).foldl (fun t l => modLane l (switchLane (switchMapOf s w.bank)) t) t).modPrg fun p =>
          { p with edges := (switchMapOf s w.bank).entries.filter fun e => e.kind == 5 || e.kind == 6 })
      else .next s := by
  simp only [execSwitchCommit, h]

/-- The switch instant of a committed switch. -/
theorem execSwitchInstant_some {w : SwitchRun} {s : State} (h : s.prg.sw = some w) :
    execSwitchInstant s = if (w.done && decide (w.x ≤ s.clk.ct)) = true then .next (switchNow w s) else .next s := by
  simp only [execSwitchInstant, h]

/-- Without a committed switch neither row does anything. -/
theorem execSwitch_none {s : State} (h : s.prg.sw = none) : execSwitchCommit s = .next s ∧ execSwitchInstant s = .next s := by
  constructor
  · simp only [execSwitchCommit, h]
  · simp only [execSwitchInstant, h]

/-- A bank at X: the new one is ACTIVE without its map, one that was ACTIVE is RETAINED, and another stays as it was. -/
theorem bankOf_swapBanks (b c : Fin 2) (s : State) :
    bankOf (swapBanks b s) c =
      if c = b then { bankOf s c with state := .active, map := none }
      else if (bankOf s c).state = .active then { bankOf s c with state := .retained } else bankOf s c := by
  simp only [bankOf, swapBanks, State.modPrg, Vector.get_ofFn]
  rfl

/-- Settles O49. -/
theorem switchOfAProgram : Obligations.SwitchOfAProgram := by
  intro q dma b s e
  refine ⟨fun m c h hm hc => (next_done_alone hm h).trans ?_, fun x h ho hb hmode hx => next_served_finish h
      (doPrgSwitchStage_named ho hb hmode hx), fun h hb hh => next_served_finish h ?_, fun w hw hd hx => ?_, fun w t m hw hd hx hm ht => ?_,
    fun h hb hh => next_served_finish h ?_, fun r h hm hc => (next_done_alone hm h).trans ?_, fun h ho => next_served_finish h ?_,
    execSwitch_none, fun w hw hx hd => ⟨?_, ?_⟩, ?_, ?_, fun c hc ha => ?_⟩
  · simp only [doPrgMapLoad, loadMap, hc, fields, List.append_nil]
  · rw [doPrgRelease_bank hb, hh, if_neg Bool.false_ne_true]
  · refine (execSwitchInstant_some hw).trans (if_pos ?_)
    rw [hd, decide_eq_true hx]
    rfl
  · subst ht hm
    refine (execSwitchCommit_some hw).trans (if_pos ?_)
    rw [hd, decide_eq_true hx]
    rfl
  · rw [doPrgRelease_bank hb, if_pos hh]
  · simp only [doPrgMapLoad, loadMap, hc]
  · simp only [doPrgSwitchStage, ho, Bool.not_false, if_true]
  · exact (execSwitchInstant_some hw).trans (if_neg (by simp [Nat.not_le.2 hx]))
  · exact (execSwitchCommit_some hw).trans (if_neg (by simp [hd]))
  · rw [bankOf_swapBanks, if_pos rfl]
  · rw [bankOf_swapBanks, if_pos rfl]
  · rw [bankOf_swapBanks, if_neg hc, if_pos ha]

end Sys2Proof.Machine

/-! # Running a program: RUN, STOP and the releases (O50, O51) -/

namespace Sys2Proof.Machine

/-! ## RUN (R217, R219, R220) -/

/-- A new pair state leaves the run state. -/
theorem setPairState_sys (p : PairState) (s : State) : (setPairState p s).sys = s.sys := by
  unfold setPairState
  split
  · rfl
  · exact event_sys ..

/-- The shadow copy leaves the run state. -/
theorem shadowCopyAll_sys (s : State) : (shadowCopyAll s).sys = s.sys := by
  unfold shadowCopyAll
  split <;> rfl

/-- The check of the retentive need leaves the run state. -/
theorem retentiveFits_sys (s : State) : (retentiveFits s).sys = s.sys := by
  unfold retentiveFits
  split
  · split
    · exact event_sys ..
    · rfl
  · rfl

/-- After step 4 of R219 the module is RUNNING. -/
theorem enterRunning_run (s : State) : (enterRunning s).sys.run = .running := by
  unfold enterRunning
  rw [retentiveFits_sys, shadowCopyAll_sys]
  show (if _ then setPairState .activeAlone _ else _ : State).sys.run = .running
  split
  · rw [setPairState_sys]
    rfl
  · rfl

/-- A start whose image and configuration fit ends RUNNING, with the anchor as its answer. -/
theorem startHost_fits {i : Image} {k : Schedule} {s t : State} (hi : startImage s = (.ok i, t)) (hk : t.tsk.sched = some k)
    (hid : k.imageId = i.id) :
    startHost s = (.ok (enterRunning (startData i t)).tsk.anchor, enterRunning (startData i t)) := by
  simp only [startHost, hi, hk, if_neg (not_not.2 hid)]

/-- RUN in STOPPED answers the anchor of the start. -/
theorem doRun_started {q : RingId} {e : Outst} {a : Nat} {s t : State} (h : s.sys.run = .stopped) (hr : startHost s = (.ok a, t)) :
    doRun q e s = (t, .finish (doneOk (leBytes 8 a))) := by
  simp only [doRun, h, hr, fields, List.append_nil]

/-- RUN in STOPPED whose start fails is refused with the STOP_REASON. -/
theorem doRun_failed {q : RingId} {e : Outst} {r : Nat} {s t : State} (h : s.sys.run = .stopped) (hr : startHost s = (.error r, t)) :
    doRun q e s = (t, .finish (doneRefused r 0 0 0)) := by
  simp only [doRun, h, hr]

/-- RUN outside STOPPED is refused. -/
theorem doRun_other {q : RingId} {e : Outst} {s : State} (h : s.sys.run ≠ .stopped) :
    doRun q e s = (s, .finish (doneWith stBadState 0)) := by
  unfold doRun
  split
  · next hs => exact absurd hs h
  · rfl

/-- The autonomous start where the program and its configuration are there already: it waits for the rings alone. -/
theorem execAutonomousStart_loaded {s : State} (hs : s.sys.run = .starting) (ht : s.sys.selfTestEnded = true)
    (hi : (activeImage s).isSome = true) (hk : s.tsk.sched.isSome = true) :
    execAutonomousStart s = if ringsReady s = true then .next (enterRunning s) else .next s := by
  simp only [execAutonomousStart, hs, ht, hi, hk, Bool.not_true, Bool.false_eq_true, if_false, Bool.and_self, if_true, Bool.true_and]

/-- The autonomous start waits for the end of the self-test. -/
theorem execAutonomousStart_testing {s : State} (h : s.sys.run ≠ .starting ∨ s.sys.selfTestEnded = false) :
    execAutonomousStart s = .next s := by
  unfold execAutonomousStart
  split
  · next hs => exact if_pos (by rw [h.resolve_left (not_not.2 hs)]; rfl)
  · rfl

/-! ## STOP and overruns (R186, R187, R193, R218) -/

/-- STOP where no stop may begin is refused. -/
theorem doStop_refused {q : RingId} {e : Outst} {s : State} (h : runsProgram s = false ∨ s.tsk.stopAt.isSome = true) :
    doStop q e s = (s, .finish (doneWith stBadState 0)) :=
  if_pos (by cases h with
    | inl h => rw [h]; rfl
    | inr h => rw [h, Bool.or_true])

/-- The end of a stop that a STOP descriptor began: STOPPED is entered, and the descriptor completes. -/
theorem execStopComplete_stopper {s : State} {t n : Nat} {q : RingId} (h : s.tsk.stopAt = some t) (ho : stopOver s t = true)
    (hq : s.tsk.stopper = some (q, n)) :
    execStopComplete s = .next (endDesc q n (doneOk (leBytes 8 t)) (enterStopped 1 s)) := by
  simp only [execStopComplete, h, ho, if_true, hq, fields, List.append_nil]

/-- The end of a stop without a descriptor. -/
theorem execStopComplete_alone {s : State} {t : Nat} (h : s.tsk.stopAt = some t) (ho : stopOver s t = true)
    (hq : s.tsk.stopper = none) : execStopComplete s = .next (enterStopped 1 s) := by
  simp only [execStopComplete, h, ho, if_true, hq]

/-- An engine without a release has no overrun. -/
theorem overrun_idle {l : LaneId} {en : Fin 4} {s : State} (h : running s l en = none) :
    execBudgetOverrun l en s = .next s ∧ execErrorTaskOverrun l en s = .next s := by
  constructor
  · simp only [execBudgetOverrun, h]
  · simp only [execErrorTaskOverrun, h]

/-- Settles O50. -/
theorem runAndStop : Obligations.RunAndStop := by
  intro q l en s e
  refine ⟨fun a t h hs hr => next_served_finish h (doRun_started hs hr), fun h hm hr hs => next_alone_wait hm h (if_neg ?_), fun t qn n h ho hq => execStopComplete_stopper h ho hq,
    fun hs ht hi hk hr => (execAutonomousStart_loaded hs ht hi hk).trans (if_pos hr), fun o ho => ?_, fun r hr hn hb => ?_,
    fun r x hr hx hn hb => ?_, fun h hs r t hr => next_served_finish h (doRun_failed hs hr), fun i k t hs hi hk hid => ?_,
    fun h hm hs => next_alone_finish hm h (doStop_refused (.inr hs)), fun h hs => next_served_finish h (doRun_other hs),
    fun h hm hr => next_alone_finish hm h (doStop_refused (.inl hr)), fun h => ?_, fun t h ho hq => execStopComplete_alone h ho hq, execAutonomousStart_testing,
    fun hs hi hk hr => ?_, fun ho => ?_, overrun_idle⟩
  · rw [hr, hs]
    exact Bool.false_ne_true
  · show execOutputInstant s = _
    simp only [execOutputInstant, ho]
  · show execBudgetOverrun l en s = _
    simp only [execBudgetOverrun, hr, hn, Bool.not_false, Bool.true_and, decide_eq_true hb, if_true]
  · show execErrorTaskOverrun l en s = _
    simp only [execErrorTaskOverrun, hr, hx, hn, Bool.true_and, decide_eq_true hb, if_true]
  · rw [startHost_fits hi hk hid]
    exact ⟨rfl, enterRunning_run _⟩
  · show execStopComplete s = _
    simp only [execStopComplete, h]
  · cases ht : s.sys.selfTestEnded with
    | false => exact execAutonomousStart_testing (.inr ht)
    | true => exact (execAutonomousStart_loaded hs ht hi hk).trans (if_neg (by rw [hr]; exact Bool.false_ne_true))
  · show execOutputInstant s = _
    simp only [execOutputInstant, ho]

/-! ## Releases (R175 to R179, R191, R242) -/

/-- The periodic row where tasks are released. -/
theorem execTaskRelease_may {bad : List W32} {s : State} (h : mayRelease s = true) :
    execTaskRelease bad s =
      match duePeriodic s with
      | [] => .next s
      | x :: r => .next (clearLostEdges ((x :: r.filter fun y => y.1 == x.1).foldl (fun s y => releasePeriodic bad y s) s)) :=
  if_pos h

/-- The event row where tasks are released. -/
theorem execEventTaskRelease_may {bad : List W32} {s : State} (h : mayRelease s = true) :
    execEventTaskRelease bad s =
      match dueEvents s with
      | [] => .next s
      | (ct, t) :: _ => .next (clearLostEdges ((taskRun s t.task).triggers.foldl (fun s y => endTrigger ct y s)
          (release bad t (((taskRun s t.task).cycle.map fun c => c + 1).getD (taskRun s t.task).k0) ct
            (modRun t.task (fun x => { x with due := none, triggers := [] }) s)))) :=
  if_pos h

/-- A recognised event of a stand-alone module, of a source that needs no authority. -/
theorem execEventRecognised_alone {v : RawEvent} {rest : List RawEvent} {t : TaskEntry} {s : State} (hr : s.tsk.raw = v :: rest)
    (ht : taskEntry s v.task = some t) (hp : runsProgram s = true) (hs : t.eventSrc ≤ 3) (hm : mirrors s = false)
    (hn : s.pair.state ≠ .standbySynced) :
    execEventRecognised s = .next (recognise t s.clk.ct v.stamp v.trigger (s.modTsk fun k => { k with raw := rest })) := by
  have hsend : (mirrors s || s.pair.state == .standbySynced) = false := by simp [hm, hn]
  simp only [execEventRecognised, hr, ht, hp, decide_eq_true hs, Bool.true_or, Bool.and_self, if_true, hsend, Bool.false_eq_true, if_false]

/-- Settles O51. -/
theorem taskReleases : Obligations.TaskReleases := by
  intro l bad s
  refine ⟨fun x r hm hd => (execTaskRelease_may hm).trans (by rw [hd]), fun v rest t hr ht hp hs hm hn => execEventRecognised_alone hr ht hp hs hm hn,
    fun ct t r hm hd => (execEventTaskRelease_may hm).trans (by rw [hd]), fun r hr => ?_, fun r hr => ?_,
    fun hm => ⟨if_neg ?_, if_neg ?_⟩, fun hm hd => (execTaskRelease_may hm).trans (by rw [hd]),
    fun hm hd => (execEventTaskRelease_may hm).trans (by rw [hd]), fun hr => ?_, fun hr => ⟨?_, ?_⟩⟩
  · show execSnapshotDelivery l s = _
    simp only [execSnapshotDelivery, hr]
  · show execSnapshotCopyDone l s = _
    simp only [execSnapshotCopyDone, hr]
  · rw [hm]; exact Bool.false_ne_true
  · rw [hm]; exact Bool.false_ne_true
  · show execEventRecognised s = _
    simp only [execEventRecognised, hr]
  · show execSnapshotDelivery l s = _
    simp only [execSnapshotDelivery, hr, List.filter_nil, firstRel, List.foldl_nil]
  · show execSnapshotCopyDone l s = _
    simp only [execSnapshotCopyDone, hr, List.filter_nil, firstRel, List.foldl_nil]

end Sys2Proof.Machine

/-! # Forces and tables (O53, O54) -/

namespace Sys2Proof.Machine

/-! ## The force table (R206, R208) -/

/-- A force that is set stands in the table. -/
theorem set_mem_make (f : Force) (l : List Force) : f ∈ (ForceAct.set f).make l := by
  simp only [ForceAct.make]
  split
  · next h =>
    obtain ⟨x, hx, hs⟩ := List.any_eq_true.1 h
    exact List.mem_map.2 ⟨x, hx, if_pos hs⟩
  · exact List.mem_append_right _ (List.mem_singleton.2 rfl)

/-- A force that is cleared stands in it no more. -/
theorem clear_not_mem_make {sym : W32} {l : List Force} {g : Force} (h : g ∈ (ForceAct.clear sym).make l) : g.sym ≠ sym := by
  simpa using (List.mem_filter.1 h).2

/-- A force instant is more than 10 µs after its fetch, and no earlier than the last one of its ring pair. -/
theorem forceInstantAt_bounds (s : State) (q : RingId) (ct : Nat) :
    ct + 10000 ≤ forceInstantAt s q ct ∧ s.tsk.lastForceAt.get q ≤ forceInstantAt s q ct :=
  ⟨Nat.le_max_left .., Nat.le_max_right ..⟩

/-- FORCE_SET of a value of 1 to 4096 bytes: as its checks say. -/
theorem doForceSet_sized {q : RingId} {dma : List Byte} {e : Outst} {s : State} (h1 : 1 ≤ e.desc.par 28 2) (h2 : e.desc.par 28 2 ≤ 4096) :
    doForceSet q dma e s =
      match forceCheck s (BitVec.ofNat 32 (e.desc.par 24 4)) (forceValue e.desc dma s) with
      | some d => (s, .finish d)
      | none =>
        let f := forceOf s q e.fetchCt (BitVec.ofNat 32 (e.desc.par 24 4)) (forceValue e.desc dma s)
        (enterForce q e.num f.at_ (.set f) s, .wait (some f.at_)) :=
  if_neg (by omega)

/-- FORCE_LIST into a buffer that holds the whole table. -/
theorem doForceList_fits {e : Outst} {s : State} {fs : List Force} (hfs : fs = s.tsk.forces.foldl (fun l f => insertForce f l) [])
    (hl : 24 * fs.length ≤ e.desc.len) :
    doForceList e s =
      (bufWrite e.desc 0 (fs.flatMap (forceBytes s)) s, .finish (doneOk (leBytes 4 fs.length ++ leBytes 4 fs.length))) := by
  have hfit : fs.take (e.desc.len / 24) = fs := List.take_of_length_le (by omega)
  simp only [doForceList, ← hfs, hfit, if_true, fields, List.append_nil, doneOk]

/-- Settles O53. -/
theorem forces : Obligations.Forces := by
  intro q dma s e sym v at_ op holds
  refine ⟨rfl, fun f h h1 h2 hc hf => next_alone_wait h.2 h.1 ?_, fun h hp => next_alone_wait h.2 h.1 (if_pos hp),
    fun h => next_alone_wait h.2 h.1 rfl, ?_, fun d h h1 h2 hc => next_alone_finish h.2 h.1 ?_,
    fun h hp => next_alone_finish h.2 h.1 (if_neg (Bool.eq_false_iff.1 hp)), forceInstantAt_bounds s q e.fetchCt,
    fun f l => ⟨set_mem_make f l, fun g hg => clear_not_mem_make hg, rfl⟩⟩
  · subst hf
    rw [doForceSet_sized h1 h2, hc]
  · intro h fs hl
    exact next_served_finish h (doForceList_fits rfl hl)
  · rw [doForceSet_sized h1 h2, hc]

/-! ## Table changes (R149, R150, R159 to R161) -/

/-- A TBL_LOAD that cannot be planned for one snapshot cannot for another. -/
theorem planLoad_error {d : Desc} {dma : List Byte} {a b : Nat} {s : State} {x : Done} :
    planLoad d dma a s = .error x → planLoad d dma b s = .error x := by
  unfold planLoad
  dsimp only
  split
  · exact id
  · split
    · exact id
    · split
      · exact id
      · split
        · exact id
        · split
          · exact id
          · exact nofun

/-- A TBL_UPDATE that cannot be planned for one snapshot cannot for another. -/
theorem planUpdate_error {d : Desc} {dma : List Byte} {a b : Nat} {s : State} {x : Done} :
    planUpdate d dma a s = .error x → planUpdate d dma b s = .error x := by
  unfold planUpdate
  dsimp only
  split
  · exact id
  · split
    · exact id
    · split
      · exact id
      · split
        · exact id
        · split
          · exact id
          · exact nofun

section
variable {q : RingId} {op : Nat} {e : Outst} {s : State} {plan : Outst → Nat → State → TblChange}

/-- A table descriptor whose change fails ends at once. -/
theorem next_table_error {d : Done} (h : served s q op e) (hp : plan e (changeFrom s) s = .error d) :
    (Host.Outcome.next (serveTable q op plan s) : Host.Outcome State Fault Refusal) = .next (endDesc q e.num d s) := by
  have hrow : serveTable q op plan s = serve q op s fun _ s => (s, .finish d) := by simp only [serveTable, h.1, hp]
  rw [hrow]
  exact next_served_finish h rfl

/-- A table change of a module without a synchronised partner takes effect and completes. -/
theorem next_table_alone {i : MirrorItem} {r : List Byte} (hm : mirrors s = false) (h : served s q op e)
    (hp : plan e s.clk.ct s = .ok (i, r)) :
    (Host.Outcome.next (serveTable q op plan s) : Host.Outcome State Fault Refusal) =
      .next (endDesc q e.num (doneOk r) (forwardTable i (takeTable i s))) := by
  have hct : changeFrom s = s.clk.ct := if_neg (by simp [hm])
  have hrow : serveTable q op plan s =
      serveMirrored q op r (fun _ _ => i) (fun _ s => (forwardTable i (takeTable i s), .finish (doneOk r))) s := by
    simp only [serveTable, h.1, hct, hp]
  rw [hrow]
  exact next_alone_finish hm h rfl

/-- A table change with a synchronised partner waits for the acknowledgement of its MIRROR cell. -/
theorem next_table_mirrored {i : MirrorItem} {r : List Byte} (hm : mirrors s = true) (h : served s q op e)
    (hp : plan e (s.clk.ct + 150000) s = .ok (i, r)) :
    (Host.Outcome.next (serveTable q op plan s) : Host.Outcome State Fault Refusal) = .next (mirrorDesc q e r i s) := by
  have hct : changeFrom s = s.clk.ct + 150000 := if_pos hm
  have hok : (Work.finish (doneOk r)).failed = false := rfl
  simp only [serveTable, h.1, hct, hp, serveMirrored, hm, if_true, hok, Bool.false_eq_true, if_false]

end

/-- An index in range stands for itself. -/
theorem finOr_val {n : Nat} (i : Fin (n + 1)) : finOr i.val = i := dif_pos i.isLt

/-- What a TBL_UNLOAD of a table does, by whether it is loaded. -/
theorem planUnload_table {d : Desc} {n : Fin 16} {s : State} (hn : d.par 24 1 = n.val) (a : Nat) :
    planUnload d a s =
      if (s.tbl.get n).loaded then .ok (.tableUnload n.val a, leBytes 8 (s.tbl.get n).gen) else .error (doneWith stBadState 0) := by
  simp only [planUnload, fin?_val hn, fields, List.append_nil]

/-! ## One table among the others -/

/-- A way written leaves the standing of the table. -/
theorem putWays_standing (n : Fin 16) (l : List BucketWay) (t : Table) :
    (putWays n l t).loaded = t.loaded ∧ (putWays n l t).from_ = t.from_ ∧ (putWays n l t).gen = t.gen := by
  unfold putWays
  induction l generalizing t with
  | nil => exact ⟨rfl, rfl, rfl⟩
  | cons w l ih =>
    rw [List.foldl_cons]
    obtain ⟨hl, hf, hg⟩ := ih (if w.valid then putEntry (TblEntry.make n w.bucket w.way w.key w.value w.gen w.deleted) t
      else clearWay w.bucket w.way t)
    rw [hl, hf, hg]
    split <;> exact ⟨rfl, rfl, rfl⟩

/-- A change of one table is that of its entry. -/
@[simp] theorem tbl_modTable_same (n : Fin 16) (f : Table → Table) (s : State) : (modTable n f s).tbl.get n = f (s.tbl.get n) :=
  vmod_get_same _ _ _

/-- The other tables stay. -/
theorem tbl_modTable_other {n m : Fin 16} (h : m ≠ n) (f : Table → Table) (s : State) : (modTable n f s).tbl.get m = s.tbl.get m :=
  vmod_get_other _ _ (Ne.symm h)

/-- TBL_INFO of a table: 36 bytes that begin with its generation. -/
theorem doTblInfo_table {e : Outst} {n : Fin 16} {s : State} (hn : e.desc.par 24 1 = n.val) :
    ∃ r, doTblInfo e s = (s, .finish (doneOk r)) ∧ r.length = 36 ∧ r.take 8 = leBytes 8 (s.tbl.get n).gen := by
  unfold doTblInfo
  rw [fin?_val hn]
  refine ⟨_, rfl, ?_, ?_⟩
  · simp only [fields, List.length_append, leBytes_length, List.length_nil]
  · exact (List.take_left' (leBytes_length 8 _))

/-- Settles O54. -/
theorem tables : Obligations.Tables := by
  intro q dma n s e
  refine ⟨fun h hm i r hp => next_table_alone hm h hp, fun h hm i r hp => next_table_alone hm h hp, fun h hn hl => ?_,
    fun h => ⟨fun hn => ?_, fun hn => next_served_finish h ?_⟩, rfl, fun h d hp => next_table_error h (planLoad_error hp),
    fun h d hp => next_table_error h (planUpdate_error hp), fun h hn hl => next_table_error h ?_, fun k salt off at_ l => ?_, fun at_ => ?_⟩
  · intro g
    have hp (a : Nat) : planUnload e.desc a s = .ok (.tableUnload n.val a, g) := (planUnload_table hn a).trans (if_pos hl)
    refine ⟨fun hm => (next_table_alone hm h (hp _)).trans ?_, fun hm => next_table_mirrored hm h (hp _)⟩
    rw [takeTable, finOr_val]
  · obtain ⟨r, hr, hlen, hgen⟩ := doTblInfo_table (s := s) hn
    exact ⟨r, next_served_finish h hr, hlen, hgen⟩
  · have hf : fin? 16 (e.desc.par 24 1) = none := dif_neg (Nat.not_lt.2 hn)
    simp only [doTblInfo, hf]
  · exact (planUnload_table hn _).trans (if_neg (by rw [hl]; exact Bool.false_ne_true))
  · intro t
    have hget : t.tbl.get n = putWays n l _ := tbl_modTable_same n _ s
    obtain ⟨hl, hf, hg⟩ := putWays_standing n l { s.tbl.get n with
      loaded := true, loads := (s.tbl.get n).loads + 1, from_ := at_, k := k, salt := salt, offset := off, gen := 1, entries := [],
      poisoned := [] }
    rw [hget]
    exact ⟨hl, hf, hg, fun m hm => tbl_modTable_other hm _ s⟩
  · intro t
    have hget : t.tbl.get n = _ := tbl_modTable_same n _ s
    rw [hget]
    exact ⟨rfl, rfl, fun m hm => tbl_modTable_other hm _ s⟩

end Sys2Proof.Machine
